-- ==== Sys2Proof/Word.lean ====
section
/-!
DEFINITION. The words of the machine: registers, bytes, pick words and log entries.
-/

namespace Sys2Proof

/-- A register or a memory word (00 "Registers": 32 bits). -/
abbrev Word := BitVec 32

/-- A byte of memory. -/
abbrev Byte := BitVec 8

/-- A pick word or a route word (03 R63, 04 R103). -/
abbrev PickWord := BitVec 72

/-- A pick or route word as the jacquard stores it (03 R65). -/
abbrev StoredWord := BitVec 80

/-- A slot-table entry, a deep window descriptor or a shuttle accumulator load (04 R109, 05 R131). -/
abbrev Word64 := BitVec 64

/-- An error-log entry (14 R438). -/
abbrev LogWord := BitVec 128

end Sys2Proof
end

