-- ==== Sys2Proof/Machine/SMap.lean ====
section
/-!
DEFINITION. Sparse maps: sorted lists of (key, value) pairs that list no entry equal to the map's default. One form
for registers, memories and tables, so that equal contents are equal data.
-/

namespace Sys2Proof.Machine

/-- A sparse map from Nat keys. -/
abbrev SMap (α : Type) := List (Nat × α)

/-- The listed value of a key. -/
def SMap.find {α : Type} : SMap α → Nat → Option α
  | [], _ => none
  | (a, v) :: t, k => if a = k then some v else SMap.find t k

/-- The value of a key; an unlisted key has the default. -/
def SMap.get {α : Type} (dflt : α) (m : SMap α) (k : Nat) : α := (SMap.find m k).getD dflt

/-- Every entry of a key removed. -/
def SMap.del {α : Type} : SMap α → Nat → SMap α
  | [], _ => []
  | (a, v) :: t, k => if a = k then SMap.del t k else (a, v) :: SMap.del t k

/-- An entry put before the first larger key. -/
def SMap.ins {α : Type} : SMap α → Nat → α → SMap α
  | [], k, v => [(k, v)]
  | (a, w) :: t, k, v => if a < k then (a, w) :: SMap.ins t k v else (k, v) :: (a, w) :: t

/-- A key set to a value; the default is not listed. -/
def SMap.put {α : Type} [DecidableEq α] (dflt : α) (m : SMap α) (k : Nat) (v : α) : SMap α :=
  if v = dflt then SMap.del m k else SMap.ins (SMap.del m k) k v

/-- Every key of a list set to one value. -/
def SMap.putAll {α : Type} [DecidableEq α] (dflt : α) (m : SMap α) (ks : List Nat) (v : α) : SMap α :=
  ks.foldl (fun m k => SMap.put dflt m k v) m

/-- The canonical form: keys strictly rising, no entry equal to the default. -/
def SMap.wf {α : Type} [DecidableEq α] (dflt : α) : SMap α → Bool
  | [] => true
  | [(_, v)] => decide (v ≠ dflt)
  | (a, v) :: (b, w) :: t => decide (v ≠ dflt) && decide (a < b) && SMap.wf dflt ((b, w) :: t)

/-- An entry put before the first entry of a larger key. -/
def insertBy {α : Type} (key : α → Nat) (x : α) : List α → List α
  | [] => [x]
  | y :: t => if key x < key y then x :: y :: t else y :: insertBy key x t

/-- A list in rising order of a key; entries of one key keep their order. -/
def sortBy {α : Type} (key : α → Nat) (xs : List α) : List α := xs.foldl (fun t x => insertBy key x t) []

/-- Bit i of a number. -/
def bitN (x i : Nat) : Bool := x.testBit i

/-- Bits [hi:lo] of a number. -/
def bitsN (x hi lo : Nat) : Nat := x / 2 ^ lo % 2 ^ (hi - lo + 1)

/-- 1 for true. -/
def b2n (b : Bool) : Nat := if b then 1 else 0

/-- A count that saturates at 2^w - 1. -/
def satAdd (w x n : Nat) : Nat := min (x + n) (2 ^ w - 1)

/-- The number whose bit i is the i-th entry of the list. -/
def ofBits : List Bool → Nat
  | [] => 0
  | b :: t => b2n b + 2 * ofBits t

/-- The signed value of a number of w bits. -/
def sgn (w x : Nat) : Int := if x % 2 ^ w < 2 ^ (w - 1) then Int.ofNat (x % 2 ^ w) else Int.ofNat (x % 2 ^ w) - Int.ofNat (2 ^ w)

/-- A signed value as w bits. -/
def unsgn (w : Nat) (x : Int) : Nat := (x % Int.ofNat (2 ^ w)).toNat

/-- The little-endian number of a list of bytes (00 R4). -/
def leNat : List Byte → Nat
  | [] => 0
  | b :: t => b.toNat + 256 * leNat t

/-- The n little-endian bytes of a number (00 R4). -/
def leBytes : Nat → Nat → List Byte
  | 0, _ => []
  | n + 1, x => BitVec.ofNat 8 x :: leBytes n (x / 256)

/-- Bytes off .. off + n - 1 of a list, as a little-endian number. -/
def leAt (bs : List Byte) (off n : Nat) : Nat := leNat ((bs.drop off).take n)

end Sys2Proof.Machine
end

