-- ==== Sys2Proof/Machine/Registers.lean ====
section
/-!
DEFINITION. The registers of the device: one named key per register (block k of 13 R382 times 0x10000 plus the offset),
one named field per field, its access code (00 R6) and its value after PORST_N (00 R9), as the register tables of
the spec give them. A register reached through a selector has one word per selected instance (key + 0x1000000 *
instance).
-/

namespace Sys2Proof.Machine

/-- The access codes of 00 R6. -/
inductive Acc where
  | rw | ro | wo | w1c | w1s | rwl
  deriving DecidableEq, Repr

/-- A field: the key of its register and its bits [hi:lo]. -/
structure Fld where
  reg : Nat
  hi : Nat
  lo : Nat
  deriving DecidableEq, Repr

/-- A field of a register's table with its access code. -/
structure FieldRow where
  hi : Nat
  lo : Nat
  acc : Acc
  deriving DecidableEq, Repr

/-- A register's table. -/
structure RegRow where
  key : Nat
  fields : List FieldRow
  deriving DecidableEq, Repr

/-- The key of instance i of a register. -/
def instKey (key i : Nat) : Nat := key + 0x1000000 * i

/-- A field of instance i. -/
def Fld.at (f : Fld) (i : Nat) : Fld := { f with reg := instKey f.reg i }

/-- Number b of a field: the field moved up by b registers of 4 bytes. -/
def Fld.up (f : Fld) (b : Nat) : Fld := { f with reg := f.reg + 4 * b }

namespace R

/-- 06 R190, R191. -/
def TRD_CTL : Nat := 0x000000
/-- 06 R190, R191. -/
def TRD_PERIOD : Nat := 0x000004
/-- 06 R190, R191. -/
def TRD_FIRST : Nat := 0x000008
/-- 06 R190, R191. -/
def TRD_MARGIN : Nat := 0x00000C
/-- 06 R190, R191. -/
def TRD_START_CFG : Nat := 0x000010
/-- 06 R190, R191. -/
def TRD_START_AT : Nat := 0x000014
/-- 06 R190, R192. -/
def TRD_CMD : Nat := 0x000018
/-- 06 R190, R192. -/
def TRD_CMD_STATUS : Nat := 0x00001C
/-- 06 R190, R192. -/
def TRD_STATUS : Nat := 0x000020
/-- 06 R190, R192. -/
def TRD_EVENTS : Nat := 0x000024
/-- 06 R190, R193. -/
def TRD_ARM_NEED : Nat := 0x000028
/-- 06 R190, R193. -/
def TRD_SLACK_LAST : Nat := 0x000030
/-- 06 R190, R193. -/
def TRD_SLACK_MIN : Nat := 0x000034
/-- 06 R190, R193. -/
def TRD_OVR_CNT : Nat := 0x000038
/-- 06 R190, R193. -/
def TRD_HOLD_CNT : Nat := 0x00003C
/-- 06 R190, R193. -/
def TRD_PIN_CFG : Nat := 0x000040
/-- 06 R190, R193. -/
def TRD_LOCKSET0 : Nat := 0x000044
/-- 06 R190, R193. -/
def TRD_LOCKSET1 : Nat := 0x000048
/-- 06 R190, R193. -/
def TRD_LOCKSET2 : Nat := 0x00004C
/-- 06 R190, R193. -/
def TRD_LOCKSET3 : Nat := 0x000050
/-- 06 R190, R193. -/
def TRD_WEAVE : Nat := 0x000060
/-- 06 R190, R193. -/
def TRD_TOKEN_SKEW : Nat := 0x000064
/-- 06 R190, R193. -/
def TRD_TOKEN_LATE_CNT : Nat := 0x000068
/-- 06 R190, R193. -/
def TRD_ROLL : Nat := 0x00006C
/-- 02 R53, R54. -/
def LOM_CTL : Nat := 0x010000
/-- 02 R53, R55. -/
def LOM_DEPTH : Nat := 0x010004
/-- 02 R53, R56. -/
def LOM_RETRY_CFG : Nat := 0x010008
/-- 02 R53, R57. -/
def LOM_STATUS : Nat := 0x010010
/-- 02 R53, R58. -/
def LOM_EVENTS : Nat := 0x010014
/-- 02 R53, R59. -/
def LOM_BEAT_LO : Nat := 0x010018
/-- 02 R53, R59. -/
def LOM_BEAT_HI : Nat := 0x01001C
/-- 02 R53, R59. -/
def LOM_RETRY_CNT : Nat := 0x010020
/-- 02 R53, R59. -/
def LOM_REBUILD_CNT : Nat := 0x010024
/-- 02 R53, R59. -/
def LOM_REPAIR_CNT : Nat := 0x010028
/-- 02 R53, R60. -/
def LOM_LAST_FAULT : Nat := 0x010030
/-- 02 R53, R60. -/
def LOM_LAST_FAULT_X : Nat := 0x010034
/-- 02 R53, R61. -/
def LOM_WDOG : Nat := 0x010040
/-- 02 R53, R61. -/
def LOM_STALL_POS : Nat := 0x010044
/-- 02 R53, R62. -/
def LOM_MAP_ADDR : Nat := 0x010050
/-- 02 R53, R62. -/
def LOM_MAP_DATA : Nat := 0x010054
/-- 04 R120, R121. -/
def DRW_SEL : Nat := 0x020000
/-- 04 R120, R121. -/
def DRW_HCFG : Nat := 0x020004
/-- 04 R120, R122. -/
def DRW_CONT_CNT : Nat := 0x020010
/-- 04 R120, R122. -/
def DRW_CONT_BEAM : Nat := 0x020014
/-- 04 R120, R122. -/
def DRW_CONT_LAST : Nat := 0x020018
/-- 04 R120, R123. -/
def LRG_SEL : Nat := 0x030000
/-- 04 R120, R123. -/
def LRG_ENT_LO : Nat := 0x030008
/-- 04 R120, R123. -/
def LRG_ENT_HI : Nat := 0x03000C
/-- 04 R120, R124. -/
def LRG_LINK_SEL : Nat := 0x030010
/-- 04 R120, R124. -/
def LRG_LINK_LOAD : Nat := 0x030014
/-- 04 R120, R124. -/
def LRG_LINK_MAX : Nat := 0x030018
/-- 04 R120, R124. -/
def LRG_DISCARD_CNT : Nat := 0x030020
/-- 09 R287, R288. -/
def WRP_CTL : Nat := 0x040000
/-- 09 R287, R288. -/
def WRP_RETRY_CFG : Nat := 0x040004
/-- 09 R287, R288. -/
def WRP_LANE_SEL : Nat := 0x040010
/-- 09 R287, R288. -/
def WRP_LANE_CFG : Nat := 0x040014
/-- 09 R287, R289. -/
def WRP_LANE_STATUS : Nat := 0x040018
/-- 09 R287, R289. -/
def WRP_LANE_PWR : Nat := 0x04001C
/-- 09 R287, R289. -/
def WRP_LANE_TAPS : Nat := 0x040020
/-- 09 R287, R289. -/
def WRP_LANE_LB : Nat := 0x040024
/-- 09 R287, R289. -/
def WRP_LANE_ERR : Nat := 0x040028
/-- 09 R287, R289. -/
def WRP_LANE_PRBS_ERR : Nat := 0x04002C
/-- 09 R287, R289. -/
def WRP_LANE_EVENTS : Nat := 0x040030
/-- 09 R287, R289. -/
def WRP_UP0 : Nat := 0x040040
/-- 09 R287, R289. -/
def WRP_UP1 : Nat := 0x040044
/-- 09 R287, R289. -/
def WRP_UP2 : Nat := 0x040048
/-- 09 R287, R289. -/
def WRP_UP3 : Nat := 0x04004C
/-- 09 R287, R290. -/
def WRP_MSG_SEL : Nat := 0x040060
/-- 09 R287, R290. -/
def WRP_MSG_DATA : Nat := 0x040064
/-- 09 R287, R290. -/
def WRP_MSG_CTL : Nat := 0x040068
/-- 09 R287, R290. -/
def WRP_MSG_AT : Nat := 0x04006C
/-- 09 R287, R290. -/
def WRP_MSG_STATUS : Nat := 0x040070
/-- 09 R287, R290. -/
def WRP_RXMSG_CTL : Nat := 0x040080
/-- 09 R287, R290. -/
def WRP_RXMSG_DATA : Nat := 0x040084
/-- 10 R322, R323. -/
def WFT_CTL : Nat := 0x050000
/-- 10 R322, R323. -/
def WFT_RETRY_CFG : Nat := 0x050004
/-- 10 R322, R323. -/
def WFT_LINK_SEL : Nat := 0x050010
/-- 10 R322, R323. -/
def WFT_LINK_CFG : Nat := 0x050014
/-- 10 R322, R323. -/
def WFT_LINK_STATUS : Nat := 0x050018
/-- 10 R322, R323. -/
def WFT_LINK_ERR : Nat := 0x05001C
/-- 10 R322, R323. -/
def ETH_PORT_SEL : Nat := 0x060000
/-- 10 R322, R323. -/
def ETH_PORT_STATUS : Nat := 0x060004
/-- 10 R322, R323. -/
def ETH_RX_DROP : Nat := 0x060008
/-- 10 R322, R323. -/
def ETH_RING_BASE_LO : Nat := 0x060010
/-- 10 R322, R323. -/
def ETH_RING_BASE_HI : Nat := 0x060014
/-- 06 R194, R195. -/
def PTP_CTL : Nat := 0x070000
/-- 06 R194, R195. -/
def PTP_TS : Nat := 0x070004
/-- 06 R194, R195. -/
def PTP_OFFSET : Nat := 0x070008
/-- 06 R194, R195. -/
def PTP_SERVO : Nat := 0x07000C
/-- 06 R194, R195. -/
def PTP_RATE : Nat := 0x070010
/-- 06 R194, R195. -/
def PTP_JUMP_LIMIT : Nat := 0x070014
/-- 06 R194, R195. -/
def PTP_JUMP_CTL : Nat := 0x070018
/-- 06 R194, R195. -/
def PTP_JUMP_OFS : Nat := 0x07001C
/-- 06 R194, R195. -/
def PTP_STATUS : Nat := 0x070020
/-- 06 R194, R195. -/
def PTP_LOCK_CFG : Nat := 0x070024
/-- 06 R194, R195. -/
def PTP_PPS_NEXT : Nat := 0x070030
/-- 06 R194, R195. -/
def PTP_PPS_CAP : Nat := 0x070034
/-- 06 R194, R195. -/
def PTP_PPS_CFG : Nat := 0x070038
/-- 06 R194, R195. -/
def PTP_PORT0_CFG : Nat := 0x070040
/-- 06 R194, R195. -/
def PTP_PORT1_CFG : Nat := 0x070044
/-- 06 R194, R195. -/
def PTP_PORT0_LAT : Nat := 0x070048
/-- 06 R194, R195. -/
def PTP_PORT1_LAT : Nat := 0x07004C
/-- 06 R194, R195. -/
def PTP_TXTS0_ID : Nat := 0x070060
/-- 06 R194, R195. -/
def PTP_TXTS0_T : Nat := 0x070064
/-- 06 R194, R195. -/
def PTP_TXTS1_ID : Nat := 0x070068
/-- 06 R194, R195. -/
def PTP_TXTS1_T : Nat := 0x07006C
/-- 08 R247, R248. -/
def LDR_CMD : Nat := 0x080000
/-- 08 R247, R248. -/
def LDR_CMD_STATUS : Nat := 0x080004
/-- 08 R247, R248. -/
def LDR_STATUS : Nat := 0x080008
/-- 08 R247, R248. -/
def LDR_PROGRESS : Nat := 0x08000C
/-- 08 R247, R248. -/
def LDR_BOOT_SLOT : Nat := 0x080010
/-- 08 R247, R248. -/
def LDR_MODEL_BASE : Nat := 0x080014
/-- 08 R247, R248. -/
def LDR_CACHE_BASE : Nat := 0x080018
/-- 08 R247, R248. -/
def LDR_CACHE_SIZE : Nat := 0x08001C
/-- 08 R247, R248. -/
def LDR_IMAGE_ID_LO : Nat := 0x080020
/-- 08 R247, R248. -/
def LDR_IMAGE_ID_HI : Nat := 0x080024
/-- 08 R247, R248. -/
def LDR_BAY_STATUS : Nat := 0x080028
/-- 08 R247, R248. -/
def LDR_DONE : Nat := 0x08002C
/-- 08 R247, R248. -/
def LDR_DONE_CFG : Nat := 0x080030
/-- 07 R208, R209. -/
def LDR_LAT_SEL : Nat := 0x080100
/-- 07 R208, R209. -/
def LDR_LAT_VAL : Nat := 0x080104
/-- 07 R208, R209. -/
def LDR_CPATH : Nat := 0x080108
/-- 07 R208, R209. -/
def LDR_BMAP_SEL : Nat := 0x080110
/-- 07 R208, R209. -/
def LDR_BMAP : Nat := 0x080114
/-- 08 R249, R249. -/
def CHR_STATUS : Nat := 0x090000
/-- 08 R249, R249. -/
def CHR_SYSTEM_ID : Nat := 0x090004
/-- 08 R249, R249. -/
def CHR_FL_ADDR : Nat := 0x090010
/-- 08 R249, R249. -/
def CHR_FL_DATA : Nat := 0x090014
/-- 08 R249, R249. -/
def CHR_FL_CMD : Nat := 0x090018
/-- 08 R249, R249. -/
def CHR_FL_STATUS : Nat := 0x09001C
/-- 11 R349, R350. -/
def CAP_UNIT_SEL : Nat := 0x0A0000
/-- 11 R349, R350. -/
def CAP_UNIT_CFG : Nat := 0x0A0004
/-- 11 R349, R350. -/
def CAP_BUF_BASE : Nat := 0x0A0008
/-- 11 R349, R350. -/
def CAP_PRE : Nat := 0x0A000C
/-- 11 R349, R350. -/
def CAP_POST : Nat := 0x0A0010
/-- 11 R349, R350. -/
def CAP_TRIG_CFG : Nat := 0x0A0014
/-- 11 R349, R350. -/
def CAP_TRIG_MASK_LO : Nat := 0x0A0018
/-- 11 R349, R350. -/
def CAP_TRIG_MASK_HI : Nat := 0x0A001C
/-- 11 R349, R350. -/
def CAP_TRIG_VAL_LO : Nat := 0x0A0020
/-- 11 R349, R350. -/
def CAP_TRIG_VAL_HI : Nat := 0x0A0024
/-- 11 R349, R350. -/
def CAP_RED_CFG : Nat := 0x0A0028
/-- 11 R349, R350. -/
def CAP_CMD : Nat := 0x0A0040
/-- 11 R349, R350. -/
def CAP_UNIT_STATUS : Nat := 0x0A0044
/-- 11 R349, R350. -/
def CAP_WPTR : Nat := 0x0A0048
/-- 11 R349, R350. -/
def CAP_TRIG_POS : Nat := 0x0A004C
/-- 11 R349, R350. -/
def CAP_TRIG_BEAT : Nat := 0x0A0050
/-- 11 R349, R350. -/
def CAP_DSK_SEL : Nat := 0x0A0060
/-- 11 R349, R350. -/
def CAP_DSK_VAL : Nat := 0x0A0064
/-- 11 R349, R351. -/
def FMP_SEL : Nat := 0x0B0000
/-- 11 R349, R351. -/
def FMP_DESC : Nat := 0x0B0004
/-- 11 R349, R351. -/
def FMP_BASE : Nat := 0x0B0008
/-- 11 R349, R351. -/
def FMP_CMD : Nat := 0x0B000C
/-- 11 R349, R351. -/
def FMP_STATUS : Nat := 0x0B0010
/-- 11 R349, R351. -/
def FMP_REC_CNT : Nat := 0x0B0014
/-- 11 R349, R351. -/
def FMP_NEWBITS : Nat := 0x0B0018
/-- 11 R349, R351. -/
def FMP_FIRST_BEAT : Nat := 0x0B001C
/-- 11 R349, R351. -/
def FMP_FIRST_ADDR : Nat := 0x0B0020
/-- 11 R349, R351. -/
def FMP_RANGE_CNT : Nat := 0x0B0024
/-- 11 R349, R351. -/
def FMP_APPLIED_LO : Nat := 0x0B0030
/-- 11 R349, R351. -/
def FMP_APPLIED_HI : Nat := 0x0B0034
/-- 11 R349, R351. -/
def FMP_HELD : Nat := 0x0B0038
/-- 11 R349, R351. -/
def FMP_UE_ADDR : Nat := 0x0B0040
/-- 11 R349, R351. -/
def FMP_UE_BITS : Nat := 0x0B0044
/-- 12 R378, R379. -/
def SHT_SEL : Nat := 0x0C0000
/-- 12 R378, R379. -/
def SHT_CTL : Nat := 0x0C0004
/-- 12 R378, R379. -/
def SHT_STATUS : Nat := 0x0C0008
/-- 12 R378, R379. -/
def SHT_PC : Nat := 0x0C000C
/-- 12 R378, R379. -/
def SHT_CAUSE : Nat := 0x0C0010
/-- 12 R378, R379. -/
def SHT_ITEMS : Nat := 0x0C0014
/-- 12 R378, R379. -/
def SHT_TRAPS : Nat := 0x0C0018
/-- 12 R378, R379. -/
def WSC_CFG : Nat := 0x0D0000
/-- 12 R378, R379. -/
def WSC_STATUS : Nat := 0x0D0004
/-- 12 R378, R379. -/
def WSC_LVL_SEL : Nat := 0x0D0008
/-- 12 R378, R379. -/
def WSC_LVL_CNT : Nat := 0x0D000C
/-- 12 R378, R379. -/
def WSC_TRIG_SEL : Nat := 0x0D0010
/-- 12 R378, R379. -/
def WSC_TRIG_LO : Nat := 0x0D0014
/-- 12 R378, R379. -/
def WSC_TRIG_HI : Nat := 0x0D0018
/-- 12 R378, R379. -/
def WSC_TRIG_PEND : Nat := 0x0D001C
/-- 12 R378, R379. -/
def WSC_CNT_SEL : Nat := 0x0D0020
/-- 12 R378, R379. -/
def WSC_CNT : Nat := 0x0D0024
/-- 12 R378, R379. -/
def WSC_POST_DATA : Nat := 0x0D0030
/-- 12 R378, R379. -/
def WSC_POST_CMD : Nat := 0x0D0034
/-- 12 R378, R379. -/
def WSC_POST_STATUS : Nat := 0x0D0038
/-- 12 R378, R379. -/
def WSC_CMD : Nat := 0x0D0040
/-- 12 R378, R379. -/
def WSC_CMD_STATUS : Nat := 0x0D0044
/-- 12 R378, R379. -/
def CLM_CFG : Nat := 0x0E0000
/-- 12 R378, R379. -/
def CLM_STARVE_CNT : Nat := 0x0E0010
/-- 12 R378, R379. -/
def CLM_STARVE_CFG : Nat := 0x0E0014
/-- 05 R156, R156. -/
def CLM_MBX_MODE : Nat := 0x0E0100
/-- 05 R156, R156. -/
def CLM_MBX_BUSY : Nat := 0x0E0104
/-- 05 R156, R156. -/
def CLM_MBX_COLL : Nat := 0x0E0108
/-- 12 R378, R379. -/
def CLM_BANK_OWNER : Nat := 0x0E1000
/-- 13 R408, R409. -/
def HUB_URG_CFG : Nat := 0x0F0000
/-- 13 R408, R409. -/
def HUB_MON_SEL : Nat := 0x0F0010
/-- 13 R408, R409. -/
def HUB_MON_CNT : Nat := 0x0F0014
/-- 13 R408, R409. -/
def HUB_LINK_ERR : Nat := 0x0F0018
/-- 13 R408, R410. -/
def GK_SEL : Nat := 0x100000
/-- 13 R408, R410. -/
def GK_ENT0 : Nat := 0x100004
/-- 13 R408, R410. -/
def GK_ENT1 : Nat := 0x100008
/-- 13 R408, R410. -/
def GK_ENT2 : Nat := 0x10000C
/-- 13 R408, R410. -/
def GK_ENT3 : Nat := 0x100010
/-- 13 R408, R410. -/
def GK_VIOL_CNT : Nat := 0x100020
/-- 13 R408, R410. -/
def GK_VIOL_LAST : Nat := 0x100024
/-- 13 R408, R410. -/
def GK_VIOL_ADDR_LO : Nat := 0x100028
/-- 13 R408, R410. -/
def GK_VIOL_ADDR_HI : Nat := 0x10002C
/-- 13 R408, R411. -/
def BOB_CH_SEL : Nat := 0x110000
/-- 13 R408, R411. -/
def BOB_CH_DESC_LO : Nat := 0x110004
/-- 13 R408, R411. -/
def BOB_CH_DESC_HI : Nat := 0x110008
/-- 13 R408, R411. -/
def BOB_CH_CFG : Nat := 0x11000C
/-- 13 R408, R411. -/
def BOB_CH_CMD : Nat := 0x110010
/-- 13 R408, R411. -/
def BOB_CH_STATUS : Nat := 0x110014
/-- 13 R408, R411. -/
def BOB_CH_BYTES : Nat := 0x110018
/-- 13 R408, R411. -/
def BOB_CH_ERR_LO : Nat := 0x110020
/-- 13 R408, R411. -/
def BOB_CH_ERR_HI : Nat := 0x110024
/-- 13 R408, R411. -/
def BOB_BUSY : Nat := 0x110030
/-- 13 R408, R412. -/
def HBM_CTL : Nat := 0x120000
/-- 13 R408, R412. -/
def HBM_STATUS : Nat := 0x120004
/-- 13 R408, R412. -/
def HBM_SCRUB_CFG : Nat := 0x120010
/-- 13 R408, R412. -/
def HBM_SCRUB_PASS : Nat := 0x120014
/-- 13 R408, R412. -/
def HBM_CE_CNT : Nat := 0x120020
/-- 13 R408, R412. -/
def HBM_UE_CNT : Nat := 0x120024
/-- 13 R408, R412. -/
def HBM_ERR_ADDR_LO : Nat := 0x120028
/-- 13 R408, R412. -/
def HBM_ERR_ADDR_HI : Nat := 0x12002C
/-- 13 R408, R412. -/
def HBM_CA_CNT : Nat := 0x120030
/-- 05 R153, R154. -/
def HBM_HASH_CTL : Nat := 0x120100
/-- 05 R153, R154. -/
def HBM_HASH_SEED : Nat := 0x120104
/-- 05 R153, R154. -/
def HBM_OCC_CFG : Nat := 0x120110
/-- 05 R153, R154. -/
def HBM_OCC_SEL : Nat := 0x120114
/-- 05 R153, R154. -/
def HBM_OCC_CNT : Nat := 0x120118
/-- 05 R153, R154. -/
def HBM_OCC_MAX : Nat := 0x12011C
/-- 05 R153, R154. -/
def HBM_OCC_STATUS : Nat := 0x120120
/-- 05 R153, R155. -/
def HBM_SPILL_BASE : Nat := 0x120130
/-- 05 R153, R155. -/
def HBM_SPILL_CNT : Nat := 0x120134
/-- 05 R153, R155. -/
def HBM_DWIN_SEL : Nat := 0x120140
/-- 05 R153, R155. -/
def HBM_DWIN_LO : Nat := 0x120144
/-- 05 R153, R155. -/
def HBM_DWIN_HI : Nat := 0x120148
/-- 14 R443, R444. -/
def ECC_CE_SEL : Nat := 0x130000
/-- 14 R443, R444. -/
def ECC_CE_CNT : Nat := 0x130004
/-- 14 R443, R444. -/
def ECC_CE_CFG : Nat := 0x130008
/-- 14 R443, R444. -/
def ECC_CE_LAST : Nat := 0x13000C
/-- 14 R443, R444. -/
def ECC_UE_CNT : Nat := 0x130010
/-- 14 R443, R444. -/
def ECC_SCRUB_CFG : Nat := 0x130014
/-- 14 R443, R444. -/
def ECC_TEST : Nat := 0x130020
/-- 14 R443, R444. -/
def ECC_TEST_RAW : Nat := 0x130024
/-- 14 R443, R444. -/
def ECC_INJ_POS : Nat := 0x130030
/-- 14 R443, R444. -/
def ECC_INJ_BITS : Nat := 0x130034
/-- 14 R443, R444. -/
def ECC_INJ_CMD : Nat := 0x130038
/-- 14 R443, R445. -/
def BST_CFG : Nat := 0x140000
/-- 14 R443, R445. -/
def BST_TMT_CFG : Nat := 0x140004
/-- 14 R443, R445. -/
def BST_CMD : Nat := 0x140010
/-- 14 R443, R445. -/
def BST_STATUS : Nat := 0x140014
/-- 14 R443, R445. -/
def BST_ROLL_CNT : Nat := 0x140020
/-- 14 R443, R445. -/
def BST_TMT_ERR : Nat := 0x140024
/-- 14 R443, R445. -/
def BST_BAD_CNT : Nat := 0x140028
/-- 14 R443, R446. -/
def CHIP_ID : Nat := 0x150000
/-- 14 R443, R446. -/
def STEP_ID : Nat := 0x150004
/-- 14 R443, R446. -/
def FUS_UID_LO : Nat := 0x150008
/-- 14 R443, R446. -/
def FUS_UID_HI : Nat := 0x15000C
/-- 14 R443, R446. -/
def FUS_REPAIR_CFG : Nat := 0x150010
/-- 14 R443, R446. -/
def FUS_ADDR : Nat := 0x150020
/-- 14 R443, R446. -/
def FUS_DATA : Nat := 0x150024
/-- 14 R443, R446. -/
def FUS_CMD : Nat := 0x150028
/-- 14 R443, R446. -/
def FUS_STATUS : Nat := 0x15002C
/-- 14 R443, R446. -/
def FUS_READ : Nat := 0x150030
/-- 14 R443, R447. -/
def LOG_CTL : Nat := 0x160000
/-- 14 R443, R447. -/
def LOG_STATUS : Nat := 0x160004
/-- 14 R443, R447. -/
def LOG_COUNT : Nat := 0x160008
/-- 14 R443, R447. -/
def LOG_LOST : Nat := 0x16000C
/-- 14 R443, R447. -/
def LOG_RD_IDX : Nat := 0x160010
/-- 14 R443, R447. -/
def LOG_RD_DATA0 : Nat := 0x160014
/-- 14 R443, R447. -/
def LOG_RD_DATA1 : Nat := 0x160018
/-- 14 R443, R447. -/
def LOG_RD_DATA2 : Nat := 0x16001C
/-- 14 R443, R447. -/
def LOG_RD_DATA3 : Nat := 0x160020
/-- 15 R471, R472. -/
def WCH_STATUS : Nat := 0x170004
/-- 15 R471, R472. -/
def WCH_CMD : Nat := 0x170008
/-- 15 R471, R472. -/
def WCH_SEL : Nat := 0x170010
/-- 15 R471, R472. -/
def WCH_FILT : Nat := 0x170014
/-- 15 R471, R472. -/
def WCH_RULE_LO : Nat := 0x170018
/-- 15 R471, R472. -/
def WCH_RULE_HI : Nat := 0x17001C
/-- 15 R471, R472. -/
def WCH_VALUE : Nat := 0x170020
/-- 15 R471, R472. -/
def WCH_SRC_SEL : Nat := 0x170024
/-- 15 R471, R472. -/
def WCH_SRC_VAL : Nat := 0x170028
/-- 15 R471, R472. -/
def PWR_DEV_REQ : Nat := 0x180000
/-- 15 R471, R472. -/
def PWR_STATUS : Nat := 0x180004
/-- 15 R471, R472. -/
def PWR_WAKE_CFG : Nat := 0x180008
/-- 15 R471, R472. -/
def PWR_PANEL_SEL : Nat := 0x180010
/-- 15 R471, R472. -/
def PWR_PANEL_CFG : Nat := 0x180014
/-- 15 R471, R472. -/
def PWR_PANEL_REQ : Nat := 0x180018
/-- 15 R471, R472. -/
def PWR_PANEL_V : Nat := 0x18001C
/-- 15 R471, R472. -/
def PWR_SAVE_BASE : Nat := 0x180020
/-- 17 R502, R503. -/
def IOC_PIN_SEL : Nat := 0x190000
/-- 17 R502, R503. -/
def IOC_PIN_CFG : Nat := 0x190004
/-- 17 R502, R503. -/
def IOC_IN0 : Nat := 0x190010
/-- 17 R502, R503. -/
def IOC_IN1 : Nat := 0x190014
/-- 17 R502, R503. -/
def IOC_SH_OUT0 : Nat := 0x190020
/-- 17 R502, R503. -/
def IOC_SH_OUT1 : Nat := 0x190024
/-- 17 R502, R503. -/
def IOC_SH_OE0 : Nat := 0x190028
/-- 17 R502, R503. -/
def IOC_SH_OE1 : Nat := 0x19002C
/-- 17 R502, R503. -/
def IOC_STRAP : Nat := 0x190030
/-- 15 R471, R473. -/
def TMX_CTL : Nat := 0x1A0000
/-- 15 R471, R473. -/
def TMX_HEDDLE : Nat := 0x1A0004
/-- 15 R471, R473. -/
def TMX_SEL0 : Nat := 0x1A0010
/-- 15 R471, R473. -/
def TMX_SEL1 : Nat := 0x1A0014
/-- 15 R471, R473. -/
def TMX_SEL2 : Nat := 0x1A0018
/-- 15 R471, R473. -/
def TMX_SEL3 : Nat := 0x1A001C
/-- 15 R471, R473. -/
def TMX_SEL4 : Nat := 0x1A0020
/-- 15 R471, R473. -/
def TMX_SEL5 : Nat := 0x1A0024
/-- 15 R471, R473. -/
def TMX_SEL6 : Nat := 0x1A0028
/-- 15 R471, R473. -/
def TMX_SEL7 : Nat := 0x1A002C
/-- 15 R471, R473. -/
def TRC_CTL : Nat := 0x1B0000
/-- 15 R471, R473. -/
def TRC_BUF_BASE : Nat := 0x1B0004
/-- 15 R471, R473. -/
def TRC_WPTR : Nat := 0x1B0008
/-- 15 R471, R473. -/
def TRC_ETH_ADDR : Nat := 0x1B000C
/-- 15 R471, R473. -/
def TRC_ETH_PORT : Nat := 0x1B0010
/-- 15 R471, R473. -/
def TRC_LOST : Nat := 0x1B0014
/-- 10 R322, R323. -/
def MGT_LOCK : Nat := 0x1C0000
/-- 10 R322, R323. -/
def MGT_STATUS : Nat := 0x1C0004

end R

namespace F

def TRD_CTL_OVR_ACT : Fld := ⟨R.TRD_CTL, 2, 2⟩
def TRD_CTL_MODE : Fld := ⟨R.TRD_CTL, 1, 0⟩
def TRD_PERIOD_PERIOD : Fld := ⟨R.TRD_PERIOD, 23, 0⟩
def TRD_FIRST_FIRST : Fld := ⟨R.TRD_FIRST, 31, 0⟩
def TRD_MARGIN_HAZ_BUDGET : Fld := ⟨R.TRD_MARGIN, 31, 24⟩
def TRD_MARGIN_TP_ARM : Fld := ⟨R.TRD_MARGIN, 23, 12⟩
def TRD_MARGIN_MARGIN : Fld := ⟨R.TRD_MARGIN, 7, 0⟩
def TRD_START_CFG_DELAY : Fld := ⟨R.TRD_START_CFG, 23, 4⟩
def TRD_START_CFG_SRC : Fld := ⟨R.TRD_START_CFG, 0, 0⟩
def TRD_START_AT_T : Fld := ⟨R.TRD_START_AT, 31, 0⟩
def TRD_CMD_TIMED : Fld := ⟨R.TRD_CMD, 8, 8⟩
def TRD_CMD_CMD : Fld := ⟨R.TRD_CMD, 2, 0⟩
def TRD_CMD_STATUS_REASON : Fld := ⟨R.TRD_CMD_STATUS, 11, 8⟩
def TRD_CMD_STATUS_CMD : Fld := ⟨R.TRD_CMD_STATUS, 5, 4⟩
def TRD_CMD_STATUS_STATUS : Fld := ⟨R.TRD_CMD_STATUS, 2, 0⟩
def TRD_STATUS_WAIT : Fld := ⟨R.TRD_STATUS, 15, 12⟩
def TRD_STATUS_FSTRETCH : Fld := ⟨R.TRD_STATUS, 5, 5⟩
def TRD_STATUS_ARM_OK : Fld := ⟨R.TRD_STATUS, 4, 4⟩
def TRD_STATUS_STATE : Fld := ⟨R.TRD_STATUS, 2, 0⟩
def TRD_EVENTS_ARM_FAIL : Fld := ⟨R.TRD_EVENTS, 5, 5⟩
def TRD_EVENTS_STEP_SKIP : Fld := ⟨R.TRD_EVENTS, 4, 4⟩
def TRD_EVENTS_TOKEN : Fld := ⟨R.TRD_EVENTS, 3, 3⟩
def TRD_EVENTS_PIN_TO : Fld := ⟨R.TRD_EVENTS, 2, 2⟩
def TRD_EVENTS_OVERRUN : Fld := ⟨R.TRD_EVENTS, 1, 1⟩
def TRD_EVENTS_LATE : Fld := ⟨R.TRD_EVENTS, 0, 0⟩
def TRD_ARM_NEED_NEED : Fld := ⟨R.TRD_ARM_NEED, 23, 0⟩
def TRD_SLACK_LAST_SLACK : Fld := ⟨R.TRD_SLACK_LAST, 31, 0⟩
def TRD_SLACK_MIN_SLACK : Fld := ⟨R.TRD_SLACK_MIN, 31, 0⟩
def TRD_OVR_CNT_COUNT : Fld := ⟨R.TRD_OVR_CNT, 31, 0⟩
def TRD_HOLD_CNT_COUNT : Fld := ⟨R.TRD_HOLD_CNT, 31, 0⟩
def TRD_PIN_CFG_TIMEOUT : Fld := ⟨R.TRD_PIN_CFG, 23, 4⟩
def TRD_PIN_CFG_LAG : Fld := ⟨R.TRD_PIN_CFG, 2, 0⟩
def TRD_LOCKSET0_LANES : Fld := ⟨R.TRD_LOCKSET0, 31, 0⟩
def TRD_LOCKSET1_LANES : Fld := ⟨R.TRD_LOCKSET1, 31, 0⟩
def TRD_LOCKSET2_LANES : Fld := ⟨R.TRD_LOCKSET2, 31, 0⟩
def TRD_LOCKSET3_LANES : Fld := ⟨R.TRD_LOCKSET3, 31, 0⟩
def TRD_WEAVE_TOKEN_WINDOW : Fld := ⟨R.TRD_WEAVE, 31, 16⟩
def TRD_WEAVE_POSITION : Fld := ⟨R.TRD_WEAVE, 7, 4⟩
def TRD_WEAVE_ROLE : Fld := ⟨R.TRD_WEAVE, 1, 0⟩
def TRD_TOKEN_SKEW_SKEW : Fld := ⟨R.TRD_TOKEN_SKEW, 31, 0⟩
def TRD_TOKEN_LATE_CNT_COUNT : Fld := ⟨R.TRD_TOKEN_LATE_CNT, 31, 0⟩
def TRD_ROLL_NEED : Fld := ⟨R.TRD_ROLL, 15, 0⟩
def LOM_CTL_SHADOW : Fld := ⟨R.LOM_CTL, 1, 1⟩
def LOM_CTL_CHECK : Fld := ⟨R.LOM_CTL, 0, 0⟩
def LOM_DEPTH_D : Fld := ⟨R.LOM_DEPTH, 11, 0⟩
def LOM_RETRY_CFG_REPAIR_EN : Fld := ⟨R.LOM_RETRY_CFG, 3, 3⟩
def LOM_RETRY_CFG_MAX : Fld := ⟨R.LOM_RETRY_CFG, 2, 1⟩
def LOM_RETRY_CFG_EN : Fld := ⟨R.LOM_RETRY_CFG, 0, 0⟩
def LOM_STATUS_REPAIRED : Fld := ⟨R.LOM_STATUS, 14, 14⟩
def LOM_STATUS_ATTEMPT : Fld := ⟨R.LOM_STATUS, 13, 12⟩
def LOM_STATUS_HALT_CAUSE : Fld := ⟨R.LOM_STATUS, 11, 8⟩
def LOM_STATUS_BANK : Fld := ⟨R.LOM_STATUS, 3, 3⟩
def LOM_STATUS_STATE : Fld := ⟨R.LOM_STATUS, 2, 0⟩
def LOM_EVENTS_HALT : Fld := ⟨R.LOM_EVENTS, 3, 3⟩
def LOM_EVENTS_REPAIR : Fld := ⟨R.LOM_EVENTS, 2, 2⟩
def LOM_EVENTS_REBUILD : Fld := ⟨R.LOM_EVENTS, 1, 1⟩
def LOM_EVENTS_RETRY : Fld := ⟨R.LOM_EVENTS, 0, 0⟩
def LOM_BEAT_LO_COUNT_LO : Fld := ⟨R.LOM_BEAT_LO, 31, 0⟩
def LOM_BEAT_HI_COUNT_HI : Fld := ⟨R.LOM_BEAT_HI, 15, 0⟩
def LOM_RETRY_CNT_COUNT : Fld := ⟨R.LOM_RETRY_CNT, 31, 0⟩
def LOM_REBUILD_CNT_COUNT : Fld := ⟨R.LOM_REBUILD_CNT, 31, 0⟩
def LOM_REPAIR_CNT_MIGRATIONS : Fld := ⟨R.LOM_REPAIR_CNT, 31, 16⟩
def LOM_REPAIR_CNT_HEDDLE_REPAIRS : Fld := ⟨R.LOM_REPAIR_CNT, 15, 0⟩
def LOM_LAST_FAULT_PICK : Fld := ⟨R.LOM_LAST_FAULT, 28, 18⟩
def LOM_LAST_FAULT_HEDDLE : Fld := ⟨R.LOM_LAST_FAULT, 17, 13⟩
def LOM_LAST_FAULT_HARNESS : Fld := ⟨R.LOM_LAST_FAULT, 12, 7⟩
def LOM_LAST_FAULT_GB : Fld := ⟨R.LOM_LAST_FAULT, 6, 0⟩
def LOM_LAST_FAULT_X_BEAT : Fld := ⟨R.LOM_LAST_FAULT_X, 31, 8⟩
def LOM_LAST_FAULT_X_KIND : Fld := ⟨R.LOM_LAST_FAULT_X, 7, 4⟩
def LOM_WDOG_LIMIT : Fld := ⟨R.LOM_WDOG, 19, 0⟩
def LOM_STALL_POS_WAIT : Fld := ⟨R.LOM_STALL_POS, 31, 29⟩
def LOM_STALL_POS_PICK : Fld := ⟨R.LOM_STALL_POS, 28, 18⟩
def LOM_STALL_POS_HEDDLE : Fld := ⟨R.LOM_STALL_POS, 17, 13⟩
def LOM_STALL_POS_HARNESS : Fld := ⟨R.LOM_STALL_POS, 12, 7⟩
def LOM_STALL_POS_GB : Fld := ⟨R.LOM_STALL_POS, 6, 0⟩
def LOM_MAP_ADDR_HARNESS : Fld := ⟨R.LOM_MAP_ADDR, 13, 8⟩
def LOM_MAP_ADDR_GB : Fld := ⟨R.LOM_MAP_ADDR, 6, 0⟩
def LOM_MAP_DATA_SPARE_FREE : Fld := ⟨R.LOM_MAP_DATA, 17, 16⟩
def LOM_MAP_DATA_REPL_VALID : Fld := ⟨R.LOM_MAP_DATA, 13, 13⟩
def LOM_MAP_DATA_REPL_K : Fld := ⟨R.LOM_MAP_DATA, 12, 8⟩
def LOM_MAP_DATA_PH : Fld := ⟨R.LOM_MAP_DATA, 6, 0⟩
def DRW_SEL_HARNESS : Fld := ⟨R.DRW_SEL, 13, 8⟩
def DRW_SEL_GB : Fld := ⟨R.DRW_SEL, 6, 0⟩
def DRW_HCFG_LAT : Fld := ⟨R.DRW_HCFG, 5, 4⟩
def DRW_HCFG_LANE_MERGE : Fld := ⟨R.DRW_HCFG, 1, 0⟩
def DRW_CONT_CNT_COUNT : Fld := ⟨R.DRW_CONT_CNT, 31, 0⟩
def DRW_CONT_BEAM_COUNT : Fld := ⟨R.DRW_CONT_BEAM, 31, 0⟩
def DRW_CONT_LAST_LANE : Fld := ⟨R.DRW_CONT_LAST, 31, 29⟩
def DRW_CONT_LAST_PICK : Fld := ⟨R.DRW_CONT_LAST, 28, 18⟩
def DRW_CONT_LAST_HEDDLE : Fld := ⟨R.DRW_CONT_LAST, 17, 13⟩
def DRW_CONT_LAST_HARNESS : Fld := ⟨R.DRW_CONT_LAST, 12, 7⟩
def DRW_CONT_LAST_GB : Fld := ⟨R.DRW_CONT_LAST, 6, 0⟩
def LRG_SEL_ENTRY : Fld := ⟨R.LRG_SEL, 16, 7⟩
def LRG_SEL_GB : Fld := ⟨R.LRG_SEL, 6, 0⟩
def LRG_ENT_LO_ENT_LO : Fld := ⟨R.LRG_ENT_LO, 31, 0⟩
def LRG_ENT_HI_ENT_HI : Fld := ⟨R.LRG_ENT_HI, 31, 0⟩
def LRG_LINK_SEL_RING : Fld := ⟨R.LRG_LINK_SEL, 10, 8⟩
def LRG_LINK_SEL_STOP : Fld := ⟨R.LRG_LINK_SEL, 6, 0⟩
def LRG_LINK_LOAD_LOAD : Fld := ⟨R.LRG_LINK_LOAD, 15, 0⟩
def LRG_LINK_MAX_STOP : Fld := ⟨R.LRG_LINK_MAX, 26, 20⟩
def LRG_LINK_MAX_RING : Fld := ⟨R.LRG_LINK_MAX, 18, 16⟩
def LRG_LINK_MAX_LOAD : Fld := ⟨R.LRG_LINK_MAX, 15, 0⟩
def LRG_DISCARD_CNT_COUNT : Fld := ⟨R.LRG_DISCARD_CNT, 31, 0⟩
def WRP_CTL_HOLD_PERIOD : Fld := ⟨R.WRP_CTL, 24, 8⟩
def WRP_CTL_RATE : Fld := ⟨R.WRP_CTL, 0, 0⟩
def WRP_RETRY_CFG_MAX : Fld := ⟨R.WRP_RETRY_CFG, 31, 24⟩
def WRP_RETRY_CFG_TIMEOUT : Fld := ⟨R.WRP_RETRY_CFG, 15, 0⟩
def WRP_LANE_SEL_LANE : Fld := ⟨R.WRP_LANE_SEL, 6, 0⟩
def WRP_LANE_CFG_EN : Fld := ⟨R.WRP_LANE_CFG, 7, 7⟩
def WRP_LANE_CFG_REMOTE_LB_OK : Fld := ⟨R.WRP_LANE_CFG, 6, 6⟩
def WRP_LANE_CFG_RX_INV : Fld := ⟨R.WRP_LANE_CFG, 5, 5⟩
def WRP_LANE_CFG_TX_INV : Fld := ⟨R.WRP_LANE_CFG, 4, 4⟩
def WRP_LANE_CFG_PRESET : Fld := ⟨R.WRP_LANE_CFG, 2, 0⟩
def WRP_LANE_STATUS_TXQ : Fld := ⟨R.WRP_LANE_STATUS, 31, 24⟩
def WRP_LANE_STATUS_RSP : Fld := ⟨R.WRP_LANE_STATUS, 23, 21⟩
def WRP_LANE_STATUS_PWR : Fld := ⟨R.WRP_LANE_STATUS, 7, 6⟩
def WRP_LANE_STATUS_STATE : Fld := ⟨R.WRP_LANE_STATUS, 2, 0⟩
def WRP_LANE_PWR_REQ : Fld := ⟨R.WRP_LANE_PWR, 1, 0⟩
def WRP_LANE_TAPS_MAIN : Fld := ⟨R.WRP_LANE_TAPS, 22, 16⟩
def WRP_LANE_TAPS_POST : Fld := ⟨R.WRP_LANE_TAPS, 12, 8⟩
def WRP_LANE_TAPS_PRE : Fld := ⟨R.WRP_LANE_TAPS, 3, 0⟩
def WRP_LANE_LB_PRBS : Fld := ⟨R.WRP_LANE_LB, 4, 4⟩
def WRP_LANE_LB_MODE : Fld := ⟨R.WRP_LANE_LB, 1, 0⟩
def WRP_LANE_ERR_CRC : Fld := ⟨R.WRP_LANE_ERR, 31, 16⟩
def WRP_LANE_ERR_RESENT : Fld := ⟨R.WRP_LANE_ERR, 15, 0⟩
def WRP_LANE_PRBS_ERR_COUNT : Fld := ⟨R.WRP_LANE_PRBS_ERR, 31, 0⟩
def WRP_LANE_EVENTS_LB_REF : Fld := ⟨R.WRP_LANE_EVENTS, 6, 6⟩
def WRP_LANE_EVENTS_ALARM : Fld := ⟨R.WRP_LANE_EVENTS, 5, 5⟩
def WRP_LANE_EVENTS_UNDERRUN : Fld := ⟨R.WRP_LANE_EVENTS, 4, 4⟩
def WRP_LANE_EVENTS_PWR_REF : Fld := ⟨R.WRP_LANE_EVENTS, 3, 3⟩
def WRP_LANE_EVENTS_PROTO : Fld := ⟨R.WRP_LANE_EVENTS, 2, 2⟩
def WRP_LANE_EVENTS_RETRAIN : Fld := ⟨R.WRP_LANE_EVENTS, 1, 1⟩
def WRP_LANE_EVENTS_DOWN : Fld := ⟨R.WRP_LANE_EVENTS, 0, 0⟩
def WRP_UP0_UP : Fld := ⟨R.WRP_UP0, 31, 0⟩
def WRP_UP1_UP : Fld := ⟨R.WRP_UP1, 31, 0⟩
def WRP_UP2_UP : Fld := ⟨R.WRP_UP2, 31, 0⟩
def WRP_UP3_UP : Fld := ⟨R.WRP_UP3, 31, 0⟩
def WRP_MSG_SEL_ENTRY : Fld := ⟨R.WRP_MSG_SEL, 3, 0⟩
def WRP_MSG_DATA_WORD : Fld := ⟨R.WRP_MSG_DATA, 31, 0⟩
def WRP_MSG_CTL_LANE : Fld := ⟨R.WRP_MSG_CTL, 22, 16⟩
def WRP_MSG_CTL_LEN : Fld := ⟨R.WRP_MSG_CTL, 13, 8⟩
def WRP_MSG_CTL_TIMED : Fld := ⟨R.WRP_MSG_CTL, 4, 4⟩
def WRP_MSG_CTL_CMD : Fld := ⟨R.WRP_MSG_CTL, 2, 0⟩
def WRP_MSG_AT_T : Fld := ⟨R.WRP_MSG_AT, 31, 0⟩
def WRP_MSG_STATUS_REASON : Fld := ⟨R.WRP_MSG_STATUS, 11, 8⟩
def WRP_MSG_STATUS_STATUS : Fld := ⟨R.WRP_MSG_STATUS, 2, 0⟩
def WRP_RXMSG_CTL_COUNT : Fld := ⟨R.WRP_RXMSG_CTL, 31, 24⟩
def WRP_RXMSG_CTL_LANE : Fld := ⟨R.WRP_RXMSG_CTL, 22, 16⟩
def WRP_RXMSG_CTL_LEN : Fld := ⟨R.WRP_RXMSG_CTL, 13, 8⟩
def WRP_RXMSG_CTL_POP : Fld := ⟨R.WRP_RXMSG_CTL, 0, 0⟩
def WRP_RXMSG_DATA_WORD : Fld := ⟨R.WRP_RXMSG_DATA, 31, 0⟩
def WFT_CTL_LOST_TO : Fld := ⟨R.WFT_CTL, 31, 12⟩
def WFT_CTL_TOPO : Fld := ⟨R.WFT_CTL, 1, 1⟩
def WFT_CTL_RATE : Fld := ⟨R.WFT_CTL, 0, 0⟩
def WFT_RETRY_CFG_MAX : Fld := ⟨R.WFT_RETRY_CFG, 31, 24⟩
def WFT_RETRY_CFG_TIMEOUT : Fld := ⟨R.WFT_RETRY_CFG, 15, 0⟩
def WFT_LINK_SEL_LINK : Fld := ⟨R.WFT_LINK_SEL, 1, 0⟩
def WFT_LINK_CFG_EN : Fld := ⟨R.WFT_LINK_CFG, 0, 0⟩
def WFT_LINK_STATUS_NBR : Fld := ⟨R.WFT_LINK_STATUS, 11, 8⟩
def WFT_LINK_STATUS_LOGICAL : Fld := ⟨R.WFT_LINK_STATUS, 7, 6⟩
def WFT_LINK_STATUS_STATE : Fld := ⟨R.WFT_LINK_STATUS, 2, 0⟩
def WFT_LINK_ERR_CRC : Fld := ⟨R.WFT_LINK_ERR, 31, 16⟩
def WFT_LINK_ERR_RESENT : Fld := ⟨R.WFT_LINK_ERR, 15, 0⟩
def ETH_PORT_SEL_PORT : Fld := ⟨R.ETH_PORT_SEL, 0, 0⟩
def ETH_PORT_STATUS_FEC : Fld := ⟨R.ETH_PORT_STATUS, 7, 6⟩
def ETH_PORT_STATUS_MODE : Fld := ⟨R.ETH_PORT_STATUS, 5, 3⟩
def ETH_PORT_STATUS_UP : Fld := ⟨R.ETH_PORT_STATUS, 0, 0⟩
def ETH_RX_DROP_FILTER : Fld := ⟨R.ETH_RX_DROP, 31, 16⟩
def ETH_RX_DROP_RING : Fld := ⟨R.ETH_RX_DROP, 15, 8⟩
def ETH_RX_DROP_OTHER : Fld := ⟨R.ETH_RX_DROP, 7, 0⟩
def ETH_RING_BASE_LO_BASE_LO : Fld := ⟨R.ETH_RING_BASE_LO, 31, 0⟩
def ETH_RING_BASE_HI_BASE_HI : Fld := ⟨R.ETH_RING_BASE_HI, 15, 0⟩
def PTP_CTL_TSYNC_OUT : Fld := ⟨R.PTP_CTL, 3, 3⟩
def PTP_CTL_SRC : Fld := ⟨R.PTP_CTL, 1, 0⟩
def PTP_TS_TB : Fld := ⟨R.PTP_TS, 31, 0⟩
def PTP_OFFSET_E : Fld := ⟨R.PTP_OFFSET, 31, 0⟩
def PTP_SERVO_RATE_MAX : Fld := ⟨R.PTP_SERVO, 31, 8⟩
def PTP_SERVO_KI_SHIFT : Fld := ⟨R.PTP_SERVO, 7, 4⟩
def PTP_SERVO_KP_SHIFT : Fld := ⟨R.PTP_SERVO, 3, 0⟩
def PTP_RATE_RATE : Fld := ⟨R.PTP_RATE, 31, 0⟩
def PTP_JUMP_LIMIT_LIMIT : Fld := ⟨R.PTP_JUMP_LIMIT, 29, 0⟩
def PTP_JUMP_CTL_CLEAR : Fld := ⟨R.PTP_JUMP_CTL, 1, 1⟩
def PTP_JUMP_CTL_ACCEPT : Fld := ⟨R.PTP_JUMP_CTL, 0, 0⟩
def PTP_JUMP_OFS_OFS : Fld := ⟨R.PTP_JUMP_OFS, 31, 0⟩
def PTP_STATUS_TXTS_OVF : Fld := ⟨R.PTP_STATUS, 5, 5⟩
def PTP_STATUS_HOLDOVER : Fld := ⟨R.PTP_STATUS, 4, 4⟩
def PTP_STATUS_JUMP_PEND : Fld := ⟨R.PTP_STATUS, 3, 3⟩
def PTP_STATUS_LOCKED : Fld := ⟨R.PTP_STATUS, 2, 2⟩
def PTP_STATUS_SRC : Fld := ⟨R.PTP_STATUS, 1, 0⟩
def PTP_LOCK_CFG_LOCK_N : Fld := ⟨R.PTP_LOCK_CFG, 31, 24⟩
def PTP_LOCK_CFG_HOLDOVER : Fld := ⟨R.PTP_LOCK_CFG, 23, 16⟩
def PTP_LOCK_CFG_LOCK_NS : Fld := ⟨R.PTP_LOCK_CFG, 15, 0⟩
def PTP_PPS_NEXT_T : Fld := ⟨R.PTP_PPS_NEXT, 31, 0⟩
def PTP_PPS_CAP_T : Fld := ⟨R.PTP_PPS_CAP, 31, 0⟩
def PTP_PPS_CFG_WIDTH : Fld := ⟨R.PTP_PPS_CFG, 15, 0⟩
def PTP_PORT0_CFG_DOMAIN : Fld := ⟨R.PTP_PORT0_CFG, 31, 24⟩
def PTP_PORT0_CFG_EN : Fld := ⟨R.PTP_PORT0_CFG, 7, 7⟩
def PTP_PORT0_CFG_STEP : Fld := ⟨R.PTP_PORT0_CFG, 6, 6⟩
def PTP_PORT0_CFG_MECH : Fld := ⟨R.PTP_PORT0_CFG, 5, 5⟩
def PTP_PORT0_CFG_TRANSPORT : Fld := ⟨R.PTP_PORT0_CFG, 4, 4⟩
def PTP_PORT1_CFG_DOMAIN : Fld := ⟨R.PTP_PORT1_CFG, 31, 24⟩
def PTP_PORT1_CFG_EN : Fld := ⟨R.PTP_PORT1_CFG, 7, 7⟩
def PTP_PORT1_CFG_STEP : Fld := ⟨R.PTP_PORT1_CFG, 6, 6⟩
def PTP_PORT1_CFG_MECH : Fld := ⟨R.PTP_PORT1_CFG, 5, 5⟩
def PTP_PORT1_CFG_TRANSPORT : Fld := ⟨R.PTP_PORT1_CFG, 4, 4⟩
def PTP_PORT0_LAT_EGRESS : Fld := ⟨R.PTP_PORT0_LAT, 31, 16⟩
def PTP_PORT0_LAT_INGRESS : Fld := ⟨R.PTP_PORT0_LAT, 15, 0⟩
def PTP_PORT1_LAT_EGRESS : Fld := ⟨R.PTP_PORT1_LAT, 31, 16⟩
def PTP_PORT1_LAT_INGRESS : Fld := ⟨R.PTP_PORT1_LAT, 15, 0⟩
def PTP_TXTS0_ID_VALID : Fld := ⟨R.PTP_TXTS0_ID, 16, 16⟩
def PTP_TXTS0_ID_SEQ : Fld := ⟨R.PTP_TXTS0_ID, 15, 0⟩
def PTP_TXTS0_T_T : Fld := ⟨R.PTP_TXTS0_T, 31, 0⟩
def PTP_TXTS1_ID_VALID : Fld := ⟨R.PTP_TXTS1_ID, 16, 16⟩
def PTP_TXTS1_ID_SEQ : Fld := ⟨R.PTP_TXTS1_ID, 15, 0⟩
def PTP_TXTS1_T_T : Fld := ⟨R.PTP_TXTS1_T, 31, 0⟩
def LDR_CMD_BAY_SRC : Fld := ⟨R.LDR_CMD, 24, 24⟩
def LDR_CMD_SLOT : Fld := ⟨R.LDR_CMD, 23, 16⟩
def LDR_CMD_BAY : Fld := ⟨R.LDR_CMD, 12, 8⟩
def LDR_CMD_CMD : Fld := ⟨R.LDR_CMD, 2, 0⟩
def LDR_CMD_STATUS_REASON : Fld := ⟨R.LDR_CMD_STATUS, 11, 8⟩
def LDR_CMD_STATUS_CMD : Fld := ⟨R.LDR_CMD_STATUS, 5, 3⟩
def LDR_CMD_STATUS_STATUS : Fld := ⟨R.LDR_CMD_STATUS, 2, 0⟩
def LDR_STATUS_CODE : Fld := ⟨R.LDR_STATUS, 27, 16⟩
def LDR_STATUS_SLOT : Fld := ⟨R.LDR_STATUS, 15, 8⟩
def LDR_STATUS_ENTRY : Fld := ⟨R.LDR_STATUS, 7, 7⟩
def LDR_STATUS_STAGE : Fld := ⟨R.LDR_STATUS, 6, 3⟩
def LDR_STATUS_STATE : Fld := ⟨R.LDR_STATUS, 2, 0⟩
def LDR_PROGRESS_KIB4 : Fld := ⟨R.LDR_PROGRESS, 31, 0⟩
def LDR_BOOT_SLOT_SLOT : Fld := ⟨R.LDR_BOOT_SLOT, 7, 0⟩
def LDR_MODEL_BASE_BASE : Fld := ⟨R.LDR_MODEL_BASE, 29, 0⟩
def LDR_CACHE_BASE_BASE : Fld := ⟨R.LDR_CACHE_BASE, 29, 0⟩
def LDR_CACHE_SIZE_SIZE : Fld := ⟨R.LDR_CACHE_SIZE, 4, 0⟩
def LDR_IMAGE_ID_LO_ID_LO : Fld := ⟨R.LDR_IMAGE_ID_LO, 31, 0⟩
def LDR_IMAGE_ID_HI_ID_HI : Fld := ⟨R.LDR_IMAGE_ID_HI, 31, 0⟩
def LDR_BAY_STATUS_OUT : Fld := ⟨R.LDR_BAY_STATUS, 31, 0⟩
def LDR_DONE_MIRROR : Fld := ⟨R.LDR_DONE, 31, 16⟩
def LDR_DONE_START_PEND : Fld := ⟨R.LDR_DONE, 3, 3⟩
def LDR_DONE_SEEN : Fld := ⟨R.LDR_DONE, 2, 2⟩
def LDR_DONE_RELEASED : Fld := ⟨R.LDR_DONE, 1, 1⟩
def LDR_DONE_PIN : Fld := ⟨R.LDR_DONE, 0, 0⟩
def LDR_DONE_CFG_TIMEOUT : Fld := ⟨R.LDR_DONE_CFG, 23, 4⟩
def LDR_DONE_CFG_AUTO : Fld := ⟨R.LDR_DONE_CFG, 3, 3⟩
def LDR_DONE_CFG_SRC : Fld := ⟨R.LDR_DONE_CFG, 1, 0⟩
def LDR_LAT_SEL_STEP : Fld := ⟨R.LDR_LAT_SEL, 9, 8⟩
def LDR_LAT_SEL_INDEX : Fld := ⟨R.LDR_LAT_SEL, 5, 0⟩
def LDR_LAT_VAL_VALUE : Fld := ⟨R.LDR_LAT_VAL, 15, 0⟩
def LDR_CPATH_C_RING : Fld := ⟨R.LDR_CPATH, 31, 16⟩
def LDR_CPATH_C : Fld := ⟨R.LDR_CPATH, 15, 0⟩
def LDR_BMAP_SEL_GB : Fld := ⟨R.LDR_BMAP_SEL, 6, 0⟩
def LDR_BMAP_BAY : Fld := ⟨R.LDR_BMAP, 29, 24⟩
def LDR_BMAP_SWAPPED : Fld := ⟨R.LDR_BMAP, 23, 23⟩
def LDR_BMAP_PGB : Fld := ⟨R.LDR_BMAP, 22, 16⟩
def LDR_BMAP_SPARES : Fld := ⟨R.LDR_BMAP, 9, 8⟩
def LDR_BMAP_NEED : Fld := ⟨R.LDR_BMAP, 6, 0⟩
def CHR_STATUS_SEQ_LO : Fld := ⟨R.CHR_STATUS, 31, 16⟩
def CHR_STATUS_B_VALID : Fld := ⟨R.CHR_STATUS, 3, 3⟩
def CHR_STATUS_A_VALID : Fld := ⟨R.CHR_STATUS, 2, 2⟩
def CHR_STATUS_COPY : Fld := ⟨R.CHR_STATUS, 1, 0⟩
def CHR_SYSTEM_ID_ID : Fld := ⟨R.CHR_SYSTEM_ID, 31, 0⟩
def CHR_FL_ADDR_ADDR : Fld := ⟨R.CHR_FL_ADDR, 19, 0⟩
def CHR_FL_DATA_DATA : Fld := ⟨R.CHR_FL_DATA, 31, 0⟩
def CHR_FL_CMD_CMD : Fld := ⟨R.CHR_FL_CMD, 1, 0⟩
def CHR_FL_STATUS_DIRTY : Fld := ⟨R.CHR_FL_STATUS, 2, 2⟩
def CHR_FL_STATUS_ERROR : Fld := ⟨R.CHR_FL_STATUS, 1, 1⟩
def CHR_FL_STATUS_BUSY : Fld := ⟨R.CHR_FL_STATUS, 0, 0⟩
def CAP_UNIT_SEL_UNIT : Fld := ⟨R.CAP_UNIT_SEL, 3, 0⟩
def CAP_UNIT_CFG_RSP_TO : Fld := ⟨R.CAP_UNIT_CFG, 31, 24⟩
def CAP_UNIT_CFG_AUTO_ARM : Fld := ⟨R.CAP_UNIT_CFG, 23, 23⟩
def CAP_UNIT_CFG_WIDTH : Fld := ⟨R.CAP_UNIT_CFG, 22, 18⟩
def CAP_UNIT_CFG_NSTREAM : Fld := ⟨R.CAP_UNIT_CFG, 17, 12⟩
def CAP_UNIT_CFG_SIZE : Fld := ⟨R.CAP_UNIT_CFG, 9, 5⟩
def CAP_UNIT_CFG_CONT : Fld := ⟨R.CAP_UNIT_CFG, 4, 4⟩
def CAP_UNIT_CFG_MODE : Fld := ⟨R.CAP_UNIT_CFG, 1, 0⟩
def CAP_BUF_BASE_BASE : Fld := ⟨R.CAP_BUF_BASE, 29, 0⟩
def CAP_PRE_BYTES : Fld := ⟨R.CAP_PRE, 31, 0⟩
def CAP_POST_BYTES : Fld := ⟨R.CAP_POST, 31, 0⟩
def CAP_TRIG_CFG_COUNT : Fld := ⟨R.CAP_TRIG_CFG, 31, 16⟩
def CAP_TRIG_CFG_SRC_UNIT : Fld := ⟨R.CAP_TRIG_CFG, 15, 12⟩
def CAP_TRIG_CFG_ARM_SEQ : Fld := ⟨R.CAP_TRIG_CFG, 11, 11⟩
def CAP_TRIG_CFG_KIND : Fld := ⟨R.CAP_TRIG_CFG, 10, 8⟩
def CAP_TRIG_CFG_EDGE_POL : Fld := ⟨R.CAP_TRIG_CFG, 7, 6⟩
def CAP_TRIG_CFG_WORD : Fld := ⟨R.CAP_TRIG_CFG, 3, 0⟩
def CAP_TRIG_MASK_LO_MASK : Fld := ⟨R.CAP_TRIG_MASK_LO, 31, 0⟩
def CAP_TRIG_MASK_HI_MASK : Fld := ⟨R.CAP_TRIG_MASK_HI, 31, 0⟩
def CAP_TRIG_VAL_LO_VALUE : Fld := ⟨R.CAP_TRIG_VAL_LO, 31, 0⟩
def CAP_TRIG_VAL_HI_VALUE : Fld := ⟨R.CAP_TRIG_VAL_HI, 31, 0⟩
def CAP_RED_CFG_INTERVAL : Fld := ⟨R.CAP_RED_CFG, 15, 0⟩
def CAP_CMD_CMD : Fld := ⟨R.CAP_CMD, 1, 0⟩
def CAP_UNIT_STATUS_REASON : Fld := ⟨R.CAP_UNIT_STATUS, 15, 12⟩
def CAP_UNIT_STATUS_STATUS : Fld := ⟨R.CAP_UNIT_STATUS, 10, 8⟩
def CAP_UNIT_STATUS_MISSING : Fld := ⟨R.CAP_UNIT_STATUS, 6, 6⟩
def CAP_UNIT_STATUS_BAYOUT : Fld := ⟨R.CAP_UNIT_STATUS, 5, 5⟩
def CAP_UNIT_STATUS_TRIGGERED : Fld := ⟨R.CAP_UNIT_STATUS, 4, 4⟩
def CAP_UNIT_STATUS_STATE : Fld := ⟨R.CAP_UNIT_STATUS, 2, 0⟩
def CAP_WPTR_BYTES : Fld := ⟨R.CAP_WPTR, 31, 0⟩
def CAP_TRIG_POS_OFFSET : Fld := ⟨R.CAP_TRIG_POS, 31, 0⟩
def CAP_TRIG_BEAT_BEAT : Fld := ⟨R.CAP_TRIG_BEAT, 31, 0⟩
def CAP_DSK_SEL_INDEX : Fld := ⟨R.CAP_DSK_SEL, 11, 0⟩
def CAP_DSK_VAL_OFFSET : Fld := ⟨R.CAP_DSK_VAL, 15, 0⟩
def FMP_SEL_MAP : Fld := ⟨R.FMP_SEL, 7, 0⟩
def FMP_DESC_VALID : Fld := ⟨R.FMP_DESC, 31, 31⟩
def FMP_DESC_ROW_BITS : Fld := ⟨R.FMP_DESC, 12, 8⟩
def FMP_DESC_CW_BITS : Fld := ⟨R.FMP_DESC, 4, 0⟩
def FMP_BASE_BASE : Fld := ⟨R.FMP_BASE, 29, 0⟩
def FMP_CMD_CLEAR : Fld := ⟨R.FMP_CMD, 0, 0⟩
def FMP_STATUS_UE_MAP : Fld := ⟨R.FMP_STATUS, 15, 8⟩
def FMP_STATUS_UE : Fld := ⟨R.FMP_STATUS, 2, 2⟩
def FMP_STATUS_RANGE : Fld := ⟨R.FMP_STATUS, 1, 1⟩
def FMP_STATUS_CLEARING : Fld := ⟨R.FMP_STATUS, 0, 0⟩
def FMP_REC_CNT_COUNT : Fld := ⟨R.FMP_REC_CNT, 31, 0⟩
def FMP_NEWBITS_COUNT : Fld := ⟨R.FMP_NEWBITS, 31, 0⟩
def FMP_FIRST_BEAT_BEAT : Fld := ⟨R.FMP_FIRST_BEAT, 31, 0⟩
def FMP_FIRST_ADDR_ADDR : Fld := ⟨R.FMP_FIRST_ADDR, 31, 0⟩
def FMP_RANGE_CNT_COUNT : Fld := ⟨R.FMP_RANGE_CNT, 31, 0⟩
def FMP_APPLIED_LO_BEAT_LO : Fld := ⟨R.FMP_APPLIED_LO, 31, 0⟩
def FMP_APPLIED_HI_BEAT_HI : Fld := ⟨R.FMP_APPLIED_HI, 15, 0⟩
def FMP_HELD_RECORDS : Fld := ⟨R.FMP_HELD, 14, 0⟩
def FMP_UE_ADDR_ADDR : Fld := ⟨R.FMP_UE_ADDR, 31, 0⟩
def FMP_UE_BITS_BITS : Fld := ⟨R.FMP_UE_BITS, 31, 0⟩
def SHT_SEL_SHUTTLE : Fld := ⟨R.SHT_SEL, 6, 0⟩
def SHT_CTL_DUALMEM : Fld := ⟨R.SHT_CTL, 0, 0⟩
def SHT_STATUS_TAB_WAIT : Fld := ⟨R.SHT_STATUS, 31, 16⟩
def SHT_STATUS_PRIV : Fld := ⟨R.SHT_STATUS, 3, 3⟩
def SHT_STATUS_STATE : Fld := ⟨R.SHT_STATUS, 2, 0⟩
def SHT_PC_PC : Fld := ⟨R.SHT_PC, 31, 0⟩
def SHT_CAUSE_CAUSE : Fld := ⟨R.SHT_CAUSE, 3, 0⟩
def SHT_ITEMS_COUNT : Fld := ⟨R.SHT_ITEMS, 31, 0⟩
def SHT_TRAPS_COUNT : Fld := ⟨R.SHT_TRAPS, 31, 0⟩
def WSC_CFG_RUN_LIMIT : Fld := ⟨R.WSC_CFG, 31, 16⟩
def WSC_CFG_AGE : Fld := ⟨R.WSC_CFG, 15, 0⟩
def WSC_STATUS_FULL : Fld := ⟨R.WSC_STATUS, 31, 31⟩
def WSC_STATUS_TRIG_SAT : Fld := ⟨R.WSC_STATUS, 30, 30⟩
def WSC_STATUS_OCC : Fld := ⟨R.WSC_STATUS, 16, 0⟩
def WSC_LVL_SEL_LEVEL : Fld := ⟨R.WSC_LVL_SEL, 2, 0⟩
def WSC_LVL_CNT_COUNT : Fld := ⟨R.WSC_LVL_CNT, 16, 0⟩
def WSC_TRIG_SEL_ENTRY : Fld := ⟨R.WSC_TRIG_SEL, 5, 0⟩
def WSC_TRIG_LO_EN : Fld := ⟨R.WSC_TRIG_LO, 31, 31⟩
def WSC_TRIG_LO_KIND : Fld := ⟨R.WSC_TRIG_LO, 30, 28⟩
def WSC_TRIG_LO_TEMPLATE : Fld := ⟨R.WSC_TRIG_LO, 27, 20⟩
def WSC_TRIG_LO_SEVERITY : Fld := ⟨R.WSC_TRIG_LO, 15, 8⟩
def WSC_TRIG_LO_SEL : Fld := ⟨R.WSC_TRIG_LO, 7, 0⟩
def WSC_TRIG_HI_PARAM : Fld := ⟨R.WSC_TRIG_HI, 31, 0⟩
def WSC_TRIG_PEND_COUNT : Fld := ⟨R.WSC_TRIG_PEND, 31, 0⟩
def WSC_CNT_SEL_COUNTER : Fld := ⟨R.WSC_CNT_SEL, 5, 0⟩
def WSC_CNT_COUNT : Fld := ⟨R.WSC_CNT, 31, 0⟩
def WSC_POST_DATA_WORD : Fld := ⟨R.WSC_POST_DATA, 31, 0⟩
def WSC_POST_CMD_POST : Fld := ⟨R.WSC_POST_CMD, 0, 0⟩
def WSC_POST_STATUS_STATUS : Fld := ⟨R.WSC_POST_STATUS, 1, 0⟩
def WSC_CMD_CLASS : Fld := ⟨R.WSC_CMD, 31, 16⟩
def WSC_CMD_CANCEL : Fld := ⟨R.WSC_CMD, 0, 0⟩
def WSC_CMD_STATUS_REMOVED : Fld := ⟨R.WSC_CMD_STATUS, 16, 0⟩
def CLM_CFG_FULL : Fld := ⟨R.CLM_CFG, 15, 0⟩
def CLM_STARVE_CNT_COUNT : Fld := ⟨R.CLM_STARVE_CNT, 31, 0⟩
def CLM_STARVE_CFG_LIMIT : Fld := ⟨R.CLM_STARVE_CFG, 15, 0⟩
def CLM_MBX_MODE_MODE : Fld := ⟨R.CLM_MBX_MODE, 31, 0⟩
def CLM_MBX_BUSY_BUSY : Fld := ⟨R.CLM_MBX_BUSY, 31, 0⟩
def CLM_MBX_COLL_COUNT : Fld := ⟨R.CLM_MBX_COLL, 31, 0⟩
def CLM_BANK_OWNER_KIND : Fld := ⟨R.CLM_BANK_OWNER, 9, 8⟩
def CLM_BANK_OWNER_ID : Fld := ⟨R.CLM_BANK_OWNER, 6, 0⟩
def HUB_URG_CFG_STEP : Fld := ⟨R.HUB_URG_CFG, 7, 0⟩
def HUB_MON_SEL_RING : Fld := ⟨R.HUB_MON_SEL, 10, 8⟩
def HUB_MON_SEL_DIR : Fld := ⟨R.HUB_MON_SEL, 7, 7⟩
def HUB_MON_SEL_STOP : Fld := ⟨R.HUB_MON_SEL, 4, 0⟩
def HUB_MON_CNT_FLITS : Fld := ⟨R.HUB_MON_CNT, 31, 0⟩
def HUB_LINK_ERR_COUNT : Fld := ⟨R.HUB_LINK_ERR, 31, 0⟩
def GK_SEL_TABLE : Fld := ⟨R.GK_SEL, 10, 8⟩
def GK_SEL_ENTRY : Fld := ⟨R.GK_SEL, 5, 0⟩
def GK_ENT0_VALID : Fld := ⟨R.GK_ENT0, 31, 31⟩
def GK_ENT0_PRIV : Fld := ⟨R.GK_ENT0, 28, 28⟩
def GK_ENT0_X : Fld := ⟨R.GK_ENT0, 27, 27⟩
def GK_ENT0_W : Fld := ⟨R.GK_ENT0, 26, 26⟩
def GK_ENT0_R : Fld := ⟨R.GK_ENT0, 25, 25⟩
def GK_ENT0_MID_HI : Fld := ⟨R.GK_ENT0, 23, 12⟩
def GK_ENT0_MID_LO : Fld := ⟨R.GK_ENT0, 11, 0⟩
def GK_ENT1_BASE : Fld := ⟨R.GK_ENT1, 31, 0⟩
def GK_ENT2_LIMIT : Fld := ⟨R.GK_ENT2, 31, 0⟩
def GK_ENT3_LIMIT_HI : Fld := ⟨R.GK_ENT3, 7, 4⟩
def GK_ENT3_BASE_HI : Fld := ⟨R.GK_ENT3, 3, 0⟩
def GK_VIOL_CNT_COUNT : Fld := ⟨R.GK_VIOL_CNT, 31, 0⟩
def GK_VIOL_LAST_MID : Fld := ⟨R.GK_VIOL_LAST, 31, 20⟩
def GK_VIOL_LAST_TABLE : Fld := ⟨R.GK_VIOL_LAST, 19, 17⟩
def GK_VIOL_LAST_ACCESS : Fld := ⟨R.GK_VIOL_LAST, 16, 15⟩
def GK_VIOL_LAST_REASON : Fld := ⟨R.GK_VIOL_LAST, 14, 13⟩
def GK_VIOL_ADDR_LO_ADDR_LO : Fld := ⟨R.GK_VIOL_ADDR_LO, 31, 0⟩
def GK_VIOL_ADDR_HI_ADDR_HI : Fld := ⟨R.GK_VIOL_ADDR_HI, 15, 0⟩
def BOB_CH_SEL_CH : Fld := ⟨R.BOB_CH_SEL, 4, 0⟩
def BOB_CH_DESC_LO_ADDR : Fld := ⟨R.BOB_CH_DESC_LO, 31, 6⟩
def BOB_CH_DESC_HI_ADDR_HI : Fld := ⟨R.BOB_CH_DESC_HI, 15, 0⟩
def BOB_CH_CFG_RETRY_MAX : Fld := ⟨R.BOB_CH_CFG, 7, 0⟩
def BOB_CH_CMD_CMD : Fld := ⟨R.BOB_CH_CMD, 1, 0⟩
def BOB_CH_STATUS_RSP : Fld := ⟨R.BOB_CH_STATUS, 15, 12⟩
def BOB_CH_STATUS_CAUSE : Fld := ⟨R.BOB_CH_STATUS, 11, 8⟩
def BOB_CH_STATUS_REASON : Fld := ⟨R.BOB_CH_STATUS, 7, 7⟩
def BOB_CH_STATUS_STATUS : Fld := ⟨R.BOB_CH_STATUS, 6, 4⟩
def BOB_CH_STATUS_STATE : Fld := ⟨R.BOB_CH_STATUS, 2, 0⟩
def BOB_CH_BYTES_BYTES : Fld := ⟨R.BOB_CH_BYTES, 31, 0⟩
def BOB_CH_ERR_LO_ADDR_LO : Fld := ⟨R.BOB_CH_ERR_LO, 31, 0⟩
def BOB_CH_ERR_HI_ADDR_HI : Fld := ⟨R.BOB_CH_ERR_HI, 15, 0⟩
def BOB_BUSY_BUSY : Fld := ⟨R.BOB_BUSY, 31, 0⟩
def HBM_CTL_RATE : Fld := ⟨R.HBM_CTL, 0, 0⟩
def HBM_STATUS_HOT : Fld := ⟨R.HBM_STATUS, 23, 16⟩
def HBM_STATUS_SELFREF : Fld := ⟨R.HBM_STATUS, 15, 8⟩
def HBM_STATUS_TRAINED : Fld := ⟨R.HBM_STATUS, 7, 0⟩
def HBM_SCRUB_CFG_PERIOD : Fld := ⟨R.HBM_SCRUB_CFG, 15, 0⟩
def HBM_SCRUB_PASS_COUNT : Fld := ⟨R.HBM_SCRUB_PASS, 31, 0⟩
def HBM_CE_CNT_COUNT : Fld := ⟨R.HBM_CE_CNT, 31, 0⟩
def HBM_UE_CNT_COUNT : Fld := ⟨R.HBM_UE_CNT, 31, 0⟩
def HBM_ERR_ADDR_LO_ADDR : Fld := ⟨R.HBM_ERR_ADDR_LO, 31, 0⟩
def HBM_ERR_ADDR_HI_ADDR_HI : Fld := ⟨R.HBM_ERR_ADDR_HI, 0, 0⟩
def HBM_CA_CNT_COUNT : Fld := ⟨R.HBM_CA_CNT, 31, 0⟩
def HBM_HASH_CTL_MODE : Fld := ⟨R.HBM_HASH_CTL, 0, 0⟩
def HBM_HASH_SEED_SEED : Fld := ⟨R.HBM_HASH_SEED, 31, 0⟩
def HBM_OCC_CFG_INTERVAL_RUN : Fld := ⟨R.HBM_OCC_CFG, 23, 20⟩
def HBM_OCC_CFG_THRESH : Fld := ⟨R.HBM_OCC_CFG, 19, 8⟩
def HBM_OCC_CFG_INTERVAL : Fld := ⟨R.HBM_OCC_CFG, 4, 0⟩
def HBM_OCC_SEL_PC : Fld := ⟨R.HBM_OCC_SEL, 7, 0⟩
def HBM_OCC_CNT_COUNT : Fld := ⟨R.HBM_OCC_CNT, 31, 0⟩
def HBM_OCC_MAX_RATIO : Fld := ⟨R.HBM_OCC_MAX, 19, 8⟩
def HBM_OCC_MAX_PC : Fld := ⟨R.HBM_OCC_MAX, 7, 0⟩
def HBM_OCC_STATUS_IMBAL : Fld := ⟨R.HBM_OCC_STATUS, 0, 0⟩
def HBM_SPILL_BASE_BASE : Fld := ⟨R.HBM_SPILL_BASE, 28, 0⟩
def HBM_SPILL_CNT_DEEP : Fld := ⟨R.HBM_SPILL_CNT, 31, 16⟩
def HBM_SPILL_CNT_BEAM : Fld := ⟨R.HBM_SPILL_CNT, 15, 0⟩
def HBM_DWIN_SEL_GB : Fld := ⟨R.HBM_DWIN_SEL, 6, 0⟩
def HBM_DWIN_LO_DESC_LO : Fld := ⟨R.HBM_DWIN_LO, 31, 0⟩
def HBM_DWIN_HI_DESC_HI : Fld := ⟨R.HBM_DWIN_HI, 31, 0⟩
def ECC_CE_SEL_CLASS : Fld := ⟨R.ECC_CE_SEL, 2, 0⟩
def ECC_CE_CNT_COUNT : Fld := ⟨R.ECC_CE_CNT, 31, 0⟩
def ECC_CE_CFG_STEP : Fld := ⟨R.ECC_CE_CFG, 15, 0⟩
def ECC_CE_LAST_POS : Fld := ⟨R.ECC_CE_LAST, 31, 0⟩
def ECC_UE_CNT_COUNT : Fld := ⟨R.ECC_UE_CNT, 31, 0⟩
def ECC_SCRUB_CFG_PERIOD : Fld := ⟨R.ECC_SCRUB_CFG, 15, 0⟩
def ECC_TEST_MASK : Fld := ⟨R.ECC_TEST, 15, 6⟩
def ECC_TEST_CLASS : Fld := ⟨R.ECC_TEST, 2, 1⟩
def ECC_TEST_EN : Fld := ⟨R.ECC_TEST, 0, 0⟩
def ECC_TEST_RAW_CHK : Fld := ⟨R.ECC_TEST_RAW, 9, 0⟩
def ECC_INJ_POS_GB : Fld := ⟨R.ECC_INJ_POS, 29, 23⟩
def ECC_INJ_POS_HARNESS : Fld := ⟨R.ECC_INJ_POS, 22, 17⟩
def ECC_INJ_POS_STREAM : Fld := ⟨R.ECC_INJ_POS, 16, 11⟩
def ECC_INJ_POS_PICK : Fld := ⟨R.ECC_INJ_POS, 10, 0⟩
def ECC_INJ_BITS_EN1 : Fld := ⟨R.ECC_INJ_BITS, 15, 15⟩
def ECC_INJ_BITS_BIT1 : Fld := ⟨R.ECC_INJ_BITS, 14, 8⟩
def ECC_INJ_BITS_EN0 : Fld := ⟨R.ECC_INJ_BITS, 7, 7⟩
def ECC_INJ_BITS_BIT0 : Fld := ⟨R.ECC_INJ_BITS, 6, 0⟩
def ECC_INJ_CMD_INJECT : Fld := ⟨R.ECC_INJ_CMD, 0, 0⟩
def BST_CFG_ROLL_EN : Fld := ⟨R.BST_CFG, 3, 3⟩
def BST_CFG_ON_WRST : Fld := ⟨R.BST_CFG, 2, 2⟩
def BST_CFG_MBIST_EN : Fld := ⟨R.BST_CFG, 1, 1⟩
def BST_CFG_LBIST_EN : Fld := ⟨R.BST_CFG, 0, 0⟩
def BST_TMT_CFG_RATE : Fld := ⟨R.BST_TMT_CFG, 23, 4⟩
def BST_TMT_CFG_CLASS : Fld := ⟨R.BST_TMT_CFG, 3, 0⟩
def BST_CMD_TARGETS : Fld := ⟨R.BST_CMD, 11, 8⟩
def BST_CMD_CMD : Fld := ⟨R.BST_CMD, 1, 0⟩
def BST_STATUS_REASON : Fld := ⟨R.BST_STATUS, 11, 8⟩
def BST_STATUS_STATE : Fld := ⟨R.BST_STATUS, 6, 4⟩
def BST_STATUS_STATUS : Fld := ⟨R.BST_STATUS, 2, 0⟩
def BST_ROLL_CNT_COUNT : Fld := ⟨R.BST_ROLL_CNT, 31, 0⟩
def BST_TMT_ERR_COUNT : Fld := ⟨R.BST_TMT_ERR, 31, 0⟩
def BST_BAD_CNT_BAD : Fld := ⟨R.BST_BAD_CNT, 31, 16⟩
def BST_BAD_CNT_SPARES : Fld := ⟨R.BST_BAD_CNT, 15, 0⟩
def CHIP_ID_ID : Fld := ⟨R.CHIP_ID, 31, 0⟩
def STEP_ID_STEP : Fld := ⟨R.STEP_ID, 1, 0⟩
def FUS_UID_LO_UID : Fld := ⟨R.FUS_UID_LO, 31, 0⟩
def FUS_UID_HI_UID : Fld := ⟨R.FUS_UID_HI, 31, 0⟩
def FUS_REPAIR_CFG_RESTART : Fld := ⟨R.FUS_REPAIR_CFG, 2, 2⟩
def FUS_REPAIR_CFG_AUTO : Fld := ⟨R.FUS_REPAIR_CFG, 1, 0⟩
def FUS_ADDR_WORD : Fld := ⟨R.FUS_ADDR, 6, 0⟩
def FUS_DATA_DATA : Fld := ⟨R.FUS_DATA, 31, 0⟩
def FUS_CMD_CMD : Fld := ⟨R.FUS_CMD, 2, 0⟩
def FUS_STATUS_REFUSED : Fld := ⟨R.FUS_STATUS, 2, 2⟩
def FUS_STATUS_ERROR : Fld := ⟨R.FUS_STATUS, 1, 1⟩
def FUS_STATUS_BUSY : Fld := ⟨R.FUS_STATUS, 0, 0⟩
def FUS_READ_WORD : Fld := ⟨R.FUS_READ, 31, 0⟩
def LOG_CTL_CLEAR : Fld := ⟨R.LOG_CTL, 1, 1⟩
def LOG_CTL_STOP_ON_FULL : Fld := ⟨R.LOG_CTL, 0, 0⟩
def LOG_STATUS_IDX : Fld := ⟨R.LOG_STATUS, 11, 0⟩
def LOG_COUNT_COUNT : Fld := ⟨R.LOG_COUNT, 31, 0⟩
def LOG_LOST_COUNT : Fld := ⟨R.LOG_LOST, 31, 0⟩
def LOG_RD_IDX_SLOT : Fld := ⟨R.LOG_RD_IDX, 11, 0⟩
def LOG_RD_DATA0_DATA : Fld := ⟨R.LOG_RD_DATA0, 31, 0⟩
def LOG_RD_DATA1_DATA : Fld := ⟨R.LOG_RD_DATA1, 31, 0⟩
def LOG_RD_DATA2_DATA : Fld := ⟨R.LOG_RD_DATA2, 31, 0⟩
def LOG_RD_DATA3_DATA : Fld := ⟨R.LOG_RD_DATA3, 31, 0⟩
def WCH_STATUS_FIRED : Fld := ⟨R.WCH_STATUS, 31, 0⟩
def WCH_CMD_UNPARK : Fld := ⟨R.WCH_CMD, 0, 0⟩
def WCH_SEL_INDEX : Fld := ⟨R.WCH_SEL, 4, 0⟩
def WCH_FILT_EN : Fld := ⟨R.WCH_FILT, 31, 31⟩
def WCH_FILT_K : Fld := ⟨R.WCH_FILT, 11, 8⟩
def WCH_FILT_SRC : Fld := ⟨R.WCH_FILT, 7, 0⟩
def WCH_RULE_LO_RULE_LO : Fld := ⟨R.WCH_RULE_LO, 31, 0⟩
def WCH_RULE_HI_RULE_HI : Fld := ⟨R.WCH_RULE_HI, 31, 0⟩
def WCH_VALUE_Y : Fld := ⟨R.WCH_VALUE, 15, 0⟩
def WCH_SRC_SEL_SRC : Fld := ⟨R.WCH_SRC_SEL, 7, 0⟩
def WCH_SRC_VAL_VALUE : Fld := ⟨R.WCH_SRC_VAL, 15, 0⟩
def PWR_DEV_REQ_REQ : Fld := ⟨R.PWR_DEV_REQ, 1, 0⟩
def PWR_STATUS_PANEL : Fld := ⟨R.PWR_STATUS, 23, 16⟩
def PWR_STATUS_WAKE : Fld := ⟨R.PWR_STATUS, 7, 4⟩
def PWR_STATUS_TRANS : Fld := ⟨R.PWR_STATUS, 3, 3⟩
def PWR_STATUS_PARKED : Fld := ⟨R.PWR_STATUS, 2, 2⟩
def PWR_STATUS_DEV : Fld := ⟨R.PWR_STATUS, 1, 0⟩
def PWR_WAKE_CFG_ETH : Fld := ⟨R.PWR_WAKE_CFG, 0, 0⟩
def PWR_PANEL_SEL_PANEL : Fld := ⟨R.PWR_PANEL_SEL, 1, 0⟩
def PWR_PANEL_CFG_ADAPT : Fld := ⟨R.PWR_PANEL_CFG, 31, 31⟩
def PWR_PANEL_CFG_VMAX : Fld := ⟨R.PWR_PANEL_CFG, 29, 24⟩
def PWR_PANEL_CFG_VMIN : Fld := ⟨R.PWR_PANEL_CFG, 21, 16⟩
def PWR_PANEL_CFG_TP_TARGET : Fld := ⟨R.PWR_PANEL_CFG, 11, 0⟩
def PWR_PANEL_REQ_REQ : Fld := ⟨R.PWR_PANEL_REQ, 1, 0⟩
def PWR_PANEL_V_CODE : Fld := ⟨R.PWR_PANEL_V, 21, 16⟩
def PWR_PANEL_V_TP : Fld := ⟨R.PWR_PANEL_V, 11, 0⟩
def PWR_SAVE_BASE_EN : Fld := ⟨R.PWR_SAVE_BASE, 31, 31⟩
def PWR_SAVE_BASE_BASE : Fld := ⟨R.PWR_SAVE_BASE, 9, 0⟩
def IOC_PIN_SEL_PIN : Fld := ⟨R.IOC_PIN_SEL, 5, 0⟩
def IOC_PIN_CFG_USER : Fld := ⟨R.IOC_PIN_CFG, 13, 12⟩
def IOC_PIN_CFG_SAFE : Fld := ⟨R.IOC_PIN_CFG, 11, 10⟩
def IOC_PIN_CFG_LOAD : Fld := ⟨R.IOC_PIN_CFG, 9, 8⟩
def IOC_PIN_CFG_DRIVE : Fld := ⟨R.IOC_PIN_CFG, 7, 6⟩
def IOC_PIN_CFG_SLEW : Fld := ⟨R.IOC_PIN_CFG, 5, 5⟩
def IOC_PIN_CFG_BIAS : Fld := ⟨R.IOC_PIN_CFG, 4, 3⟩
def IOC_IN0_LEVEL : Fld := ⟨R.IOC_IN0, 31, 0⟩
def IOC_IN1_LEVEL : Fld := ⟨R.IOC_IN1, 15, 0⟩
def IOC_SH_OUT0_OUT : Fld := ⟨R.IOC_SH_OUT0, 31, 0⟩
def IOC_SH_OUT1_OUT : Fld := ⟨R.IOC_SH_OUT1, 15, 0⟩
def IOC_SH_OE0_OE : Fld := ⟨R.IOC_SH_OE0, 31, 0⟩
def IOC_SH_OE1_OE : Fld := ⟨R.IOC_SH_OE1, 15, 0⟩
def IOC_STRAP_XTAL : Fld := ⟨R.IOC_STRAP, 4, 4⟩
def IOC_STRAP_JTAG_OWNER : Fld := ⟨R.IOC_STRAP, 3, 3⟩
def IOC_STRAP_MADR : Fld := ⟨R.IOC_STRAP, 2, 0⟩
def TMX_CTL_URG_MIN : Fld := ⟨R.TMX_CTL, 10, 8⟩
def TMX_CTL_EN : Fld := ⟨R.TMX_CTL, 0, 0⟩
def TMX_HEDDLE_GB : Fld := ⟨R.TMX_HEDDLE, 29, 23⟩
def TMX_HEDDLE_HARNESS : Fld := ⟨R.TMX_HEDDLE, 22, 17⟩
def TMX_HEDDLE_HEDDLE : Fld := ⟨R.TMX_HEDDLE, 16, 12⟩
def TMX_SEL0_POINT : Fld := ⟨R.TMX_SEL0, 11, 0⟩
def TMX_SEL1_POINT : Fld := ⟨R.TMX_SEL1, 11, 0⟩
def TMX_SEL2_POINT : Fld := ⟨R.TMX_SEL2, 11, 0⟩
def TMX_SEL3_POINT : Fld := ⟨R.TMX_SEL3, 11, 0⟩
def TMX_SEL4_POINT : Fld := ⟨R.TMX_SEL4, 11, 0⟩
def TMX_SEL5_POINT : Fld := ⟨R.TMX_SEL5, 11, 0⟩
def TMX_SEL6_POINT : Fld := ⟨R.TMX_SEL6, 11, 0⟩
def TMX_SEL7_POINT : Fld := ⟨R.TMX_SEL7, 11, 0⟩
def TRC_CTL_FW_VIS : Fld := ⟨R.TRC_CTL, 31, 31⟩
def TRC_CTL_CLUSTERS : Fld := ⟨R.TRC_CTL, 30, 15⟩
def TRC_CTL_SIZE : Fld := ⟨R.TRC_CTL, 14, 10⟩
def TRC_CTL_PORT : Fld := ⟨R.TRC_CTL, 3, 3⟩
def TRC_CTL_STALL : Fld := ⟨R.TRC_CTL, 2, 2⟩
def TRC_CTL_SINK : Fld := ⟨R.TRC_CTL, 1, 1⟩
def TRC_CTL_EN : Fld := ⟨R.TRC_CTL, 0, 0⟩
def TRC_BUF_BASE_BASE : Fld := ⟨R.TRC_BUF_BASE, 29, 0⟩
def TRC_WPTR_BYTES : Fld := ⟨R.TRC_WPTR, 31, 0⟩
def TRC_ETH_ADDR_ADDR : Fld := ⟨R.TRC_ETH_ADDR, 31, 0⟩
def TRC_ETH_PORT_PORT : Fld := ⟨R.TRC_ETH_PORT, 15, 0⟩
def TRC_LOST_COUNT : Fld := ⟨R.TRC_LOST, 31, 0⟩
def MGT_LOCK_TIMEOUT : Fld := ⟨R.MGT_LOCK, 31, 16⟩
def MGT_LOCK_UNLOCK : Fld := ⟨R.MGT_LOCK, 0, 0⟩
def MGT_STATUS_LOG_IDX : Fld := ⟨R.MGT_STATUS, 27, 16⟩
def MGT_STATUS_ALERT : Fld := ⟨R.MGT_STATUS, 0, 0⟩

end F

/-- The register tables of the TRD_ block. -/
def trdRows : List RegRow := [
  ⟨R.TRD_CTL, [⟨2, 2, .rw⟩, ⟨1, 0, .rw⟩]⟩,
  ⟨R.TRD_PERIOD, [⟨23, 0, .rw⟩]⟩,
  ⟨R.TRD_FIRST, [⟨31, 0, .rw⟩]⟩,
  ⟨R.TRD_MARGIN, [⟨31, 24, .rw⟩, ⟨23, 12, .rw⟩, ⟨7, 0, .rw⟩]⟩,
  ⟨R.TRD_START_CFG, [⟨23, 4, .rw⟩, ⟨0, 0, .rw⟩]⟩,
  ⟨R.TRD_START_AT, [⟨31, 0, .rw⟩]⟩,
  ⟨R.TRD_CMD, [⟨8, 8, .wo⟩, ⟨2, 0, .wo⟩]⟩,
  ⟨R.TRD_CMD_STATUS, [⟨11, 8, .ro⟩, ⟨5, 4, .ro⟩, ⟨2, 0, .ro⟩]⟩,
  ⟨R.TRD_STATUS, [⟨15, 12, .ro⟩, ⟨5, 5, .ro⟩, ⟨4, 4, .ro⟩, ⟨2, 0, .ro⟩]⟩,
  ⟨R.TRD_EVENTS, [⟨5, 5, .w1c⟩, ⟨4, 4, .w1c⟩, ⟨3, 3, .w1c⟩, ⟨2, 2, .w1c⟩, ⟨1, 1, .w1c⟩, ⟨0, 0, .w1c⟩]⟩,
  ⟨R.TRD_ARM_NEED, [⟨23, 0, .ro⟩]⟩,
  ⟨R.TRD_SLACK_LAST, [⟨31, 0, .ro⟩]⟩,
  ⟨R.TRD_SLACK_MIN, [⟨31, 0, .ro⟩]⟩,
  ⟨R.TRD_OVR_CNT, [⟨31, 0, .ro⟩]⟩,
  ⟨R.TRD_HOLD_CNT, [⟨31, 0, .ro⟩]⟩,
  ⟨R.TRD_PIN_CFG, [⟨23, 4, .rw⟩, ⟨2, 0, .ro⟩]⟩,
  ⟨R.TRD_LOCKSET0, [⟨31, 0, .ro⟩]⟩,
  ⟨R.TRD_LOCKSET1, [⟨31, 0, .ro⟩]⟩,
  ⟨R.TRD_LOCKSET2, [⟨31, 0, .ro⟩]⟩,
  ⟨R.TRD_LOCKSET3, [⟨31, 0, .ro⟩]⟩,
  ⟨R.TRD_WEAVE, [⟨31, 16, .rw⟩, ⟨7, 4, .ro⟩, ⟨1, 0, .ro⟩]⟩,
  ⟨R.TRD_TOKEN_SKEW, [⟨31, 0, .ro⟩]⟩,
  ⟨R.TRD_TOKEN_LATE_CNT, [⟨31, 0, .ro⟩]⟩,
  ⟨R.TRD_ROLL, [⟨15, 0, .rw⟩]⟩]

/-- The register tables of the LOM_ block. -/
def lomRows : List RegRow := [
  ⟨R.LOM_CTL, [⟨1, 1, .rwl⟩, ⟨0, 0, .rw⟩]⟩,
  ⟨R.LOM_DEPTH, [⟨11, 0, .ro⟩]⟩,
  ⟨R.LOM_RETRY_CFG, [⟨3, 3, .rwl⟩, ⟨2, 1, .rwl⟩, ⟨0, 0, .rwl⟩]⟩,
  ⟨R.LOM_STATUS, [⟨14, 14, .ro⟩, ⟨13, 12, .ro⟩, ⟨11, 8, .ro⟩, ⟨3, 3, .ro⟩, ⟨2, 0, .ro⟩]⟩,
  ⟨R.LOM_EVENTS, [⟨3, 3, .w1c⟩, ⟨2, 2, .w1c⟩, ⟨1, 1, .w1c⟩, ⟨0, 0, .w1c⟩]⟩,
  ⟨R.LOM_BEAT_LO, [⟨31, 0, .ro⟩]⟩,
  ⟨R.LOM_BEAT_HI, [⟨15, 0, .ro⟩]⟩,
  ⟨R.LOM_RETRY_CNT, [⟨31, 0, .ro⟩]⟩,
  ⟨R.LOM_REBUILD_CNT, [⟨31, 0, .ro⟩]⟩,
  ⟨R.LOM_REPAIR_CNT, [⟨31, 16, .ro⟩, ⟨15, 0, .ro⟩]⟩,
  ⟨R.LOM_LAST_FAULT, [⟨28, 18, .ro⟩, ⟨17, 13, .ro⟩, ⟨12, 7, .ro⟩, ⟨6, 0, .ro⟩]⟩,
  ⟨R.LOM_LAST_FAULT_X, [⟨31, 8, .ro⟩, ⟨7, 4, .ro⟩]⟩,
  ⟨R.LOM_WDOG, [⟨19, 0, .rwl⟩]⟩,
  ⟨R.LOM_STALL_POS, [⟨31, 29, .ro⟩, ⟨28, 18, .ro⟩, ⟨17, 13, .ro⟩, ⟨12, 7, .ro⟩, ⟨6, 0, .ro⟩]⟩,
  ⟨R.LOM_MAP_ADDR, [⟨13, 8, .rw⟩, ⟨6, 0, .rw⟩]⟩,
  ⟨R.LOM_MAP_DATA, [⟨17, 16, .ro⟩, ⟨13, 13, .ro⟩, ⟨12, 8, .ro⟩, ⟨6, 0, .ro⟩]⟩]

/-- The register tables of the DRW_ block. -/
def drwRows : List RegRow := [
  ⟨R.DRW_SEL, [⟨13, 8, .rw⟩, ⟨6, 0, .rw⟩]⟩,
  ⟨R.DRW_HCFG, [⟨5, 4, .ro⟩, ⟨1, 0, .rwl⟩]⟩,
  ⟨R.DRW_CONT_CNT, [⟨31, 0, .ro⟩]⟩,
  ⟨R.DRW_CONT_BEAM, [⟨31, 0, .ro⟩]⟩,
  ⟨R.DRW_CONT_LAST, [⟨31, 29, .ro⟩, ⟨28, 18, .ro⟩, ⟨17, 13, .ro⟩, ⟨12, 7, .ro⟩, ⟨6, 0, .ro⟩]⟩]

/-- The register tables of the LRG_ block. -/
def lrgRows : List RegRow := [
  ⟨R.LRG_SEL, [⟨16, 7, .rw⟩, ⟨6, 0, .rw⟩]⟩,
  ⟨R.LRG_ENT_LO, [⟨31, 0, .ro⟩]⟩,
  ⟨R.LRG_ENT_HI, [⟨31, 0, .ro⟩]⟩,
  ⟨R.LRG_LINK_SEL, [⟨10, 8, .rw⟩, ⟨6, 0, .rw⟩]⟩,
  ⟨R.LRG_LINK_LOAD, [⟨15, 0, .ro⟩]⟩,
  ⟨R.LRG_LINK_MAX, [⟨26, 20, .ro⟩, ⟨18, 16, .ro⟩, ⟨15, 0, .ro⟩]⟩,
  ⟨R.LRG_DISCARD_CNT, [⟨31, 0, .ro⟩]⟩]

/-- The register tables of the WRP_ block. -/
def wrpRows : List RegRow := [
  ⟨R.WRP_CTL, [⟨24, 8, .rw⟩, ⟨0, 0, .rwl⟩]⟩,
  ⟨R.WRP_RETRY_CFG, [⟨31, 24, .rw⟩, ⟨15, 0, .rw⟩]⟩,
  ⟨R.WRP_LANE_SEL, [⟨6, 0, .rw⟩]⟩,
  ⟨R.WRP_LANE_CFG, [⟨7, 7, .rwl⟩, ⟨6, 6, .rwl⟩, ⟨5, 5, .rwl⟩, ⟨4, 4, .rwl⟩, ⟨2, 0, .rwl⟩]⟩,
  ⟨R.WRP_LANE_STATUS, [⟨31, 24, .ro⟩, ⟨23, 21, .ro⟩, ⟨7, 6, .ro⟩, ⟨2, 0, .ro⟩]⟩,
  ⟨R.WRP_LANE_PWR, [⟨1, 0, .rw⟩]⟩,
  ⟨R.WRP_LANE_TAPS, [⟨22, 16, .ro⟩, ⟨12, 8, .ro⟩, ⟨3, 0, .ro⟩]⟩,
  ⟨R.WRP_LANE_LB, [⟨4, 4, .rw⟩, ⟨1, 0, .rw⟩]⟩,
  ⟨R.WRP_LANE_ERR, [⟨31, 16, .ro⟩, ⟨15, 0, .ro⟩]⟩,
  ⟨R.WRP_LANE_PRBS_ERR, [⟨31, 0, .ro⟩]⟩,
  ⟨R.WRP_LANE_EVENTS, [⟨6, 6, .w1c⟩, ⟨5, 5, .w1c⟩, ⟨4, 4, .w1c⟩, ⟨3, 3, .w1c⟩, ⟨2, 2, .w1c⟩, ⟨1, 1, .w1c⟩, ⟨0, 0, .w1c⟩]⟩,
  ⟨R.WRP_UP0, [⟨31, 0, .ro⟩]⟩,
  ⟨R.WRP_UP1, [⟨31, 0, .ro⟩]⟩,
  ⟨R.WRP_UP2, [⟨31, 0, .ro⟩]⟩,
  ⟨R.WRP_UP3, [⟨31, 0, .ro⟩]⟩,
  ⟨R.WRP_MSG_SEL, [⟨3, 0, .rw⟩]⟩,
  ⟨R.WRP_MSG_DATA, [⟨31, 0, .wo⟩]⟩,
  ⟨R.WRP_MSG_CTL, [⟨22, 16, .wo⟩, ⟨13, 8, .wo⟩, ⟨4, 4, .wo⟩, ⟨2, 0, .wo⟩]⟩,
  ⟨R.WRP_MSG_AT, [⟨31, 0, .rw⟩]⟩,
  ⟨R.WRP_MSG_STATUS, [⟨11, 8, .ro⟩, ⟨2, 0, .ro⟩]⟩,
  ⟨R.WRP_RXMSG_CTL, [⟨31, 24, .ro⟩, ⟨22, 16, .ro⟩, ⟨13, 8, .ro⟩, ⟨0, 0, .w1s⟩]⟩,
  ⟨R.WRP_RXMSG_DATA, [⟨31, 0, .ro⟩]⟩]

/-- The register tables of the WFT_ block. -/
def wftRows : List RegRow := [
  ⟨R.WFT_CTL, [⟨31, 12, .rw⟩, ⟨1, 1, .rwl⟩, ⟨0, 0, .rwl⟩]⟩,
  ⟨R.WFT_RETRY_CFG, [⟨31, 24, .rw⟩, ⟨15, 0, .rw⟩]⟩,
  ⟨R.WFT_LINK_SEL, [⟨1, 0, .rw⟩]⟩,
  ⟨R.WFT_LINK_CFG, [⟨0, 0, .rwl⟩]⟩,
  ⟨R.WFT_LINK_STATUS, [⟨11, 8, .ro⟩, ⟨7, 6, .ro⟩, ⟨2, 0, .ro⟩]⟩,
  ⟨R.WFT_LINK_ERR, [⟨31, 16, .ro⟩, ⟨15, 0, .ro⟩]⟩]

/-- The register tables of the ETH_ block. -/
def ethRows : List RegRow := [
  ⟨R.ETH_PORT_SEL, [⟨0, 0, .rw⟩]⟩,
  ⟨R.ETH_PORT_STATUS, [⟨7, 6, .ro⟩, ⟨5, 3, .ro⟩, ⟨0, 0, .ro⟩]⟩,
  ⟨R.ETH_RX_DROP, [⟨31, 16, .ro⟩, ⟨15, 8, .ro⟩, ⟨7, 0, .ro⟩]⟩,
  ⟨R.ETH_RING_BASE_LO, [⟨31, 0, .rwl⟩]⟩,
  ⟨R.ETH_RING_BASE_HI, [⟨15, 0, .rwl⟩]⟩]

/-- The register tables of the PTP_ block. -/
def ptpRows : List RegRow := [
  ⟨R.PTP_CTL, [⟨3, 3, .rwl⟩, ⟨1, 0, .rwl⟩]⟩,
  ⟨R.PTP_TS, [⟨31, 0, .ro⟩]⟩,
  ⟨R.PTP_OFFSET, [⟨31, 0, .wo⟩]⟩,
  ⟨R.PTP_SERVO, [⟨31, 8, .rw⟩, ⟨7, 4, .rw⟩, ⟨3, 0, .rw⟩]⟩,
  ⟨R.PTP_RATE, [⟨31, 0, .ro⟩]⟩,
  ⟨R.PTP_JUMP_LIMIT, [⟨29, 0, .rw⟩]⟩,
  ⟨R.PTP_JUMP_CTL, [⟨1, 1, .wo⟩, ⟨0, 0, .wo⟩]⟩,
  ⟨R.PTP_JUMP_OFS, [⟨31, 0, .ro⟩]⟩,
  ⟨R.PTP_STATUS, [⟨5, 5, .w1c⟩, ⟨4, 4, .ro⟩, ⟨3, 3, .ro⟩, ⟨2, 2, .ro⟩, ⟨1, 0, .ro⟩]⟩,
  ⟨R.PTP_LOCK_CFG, [⟨31, 24, .rw⟩, ⟨23, 16, .rw⟩, ⟨15, 0, .rw⟩]⟩,
  ⟨R.PTP_PPS_NEXT, [⟨31, 0, .rw⟩]⟩,
  ⟨R.PTP_PPS_CAP, [⟨31, 0, .ro⟩]⟩,
  ⟨R.PTP_PPS_CFG, [⟨15, 0, .rw⟩]⟩,
  ⟨R.PTP_PORT0_CFG, [⟨31, 24, .rwl⟩, ⟨7, 7, .rwl⟩, ⟨6, 6, .rwl⟩, ⟨5, 5, .rwl⟩, ⟨4, 4, .rwl⟩]⟩,
  ⟨R.PTP_PORT1_CFG, [⟨31, 24, .rwl⟩, ⟨7, 7, .rwl⟩, ⟨6, 6, .rwl⟩, ⟨5, 5, .rwl⟩, ⟨4, 4, .rwl⟩]⟩,
  ⟨R.PTP_PORT0_LAT, [⟨31, 16, .rw⟩, ⟨15, 0, .rw⟩]⟩,
  ⟨R.PTP_PORT1_LAT, [⟨31, 16, .rw⟩, ⟨15, 0, .rw⟩]⟩,
  ⟨R.PTP_TXTS0_ID, [⟨16, 16, .ro⟩, ⟨15, 0, .ro⟩]⟩,
  ⟨R.PTP_TXTS0_T, [⟨31, 0, .ro⟩]⟩,
  ⟨R.PTP_TXTS1_ID, [⟨16, 16, .ro⟩, ⟨15, 0, .ro⟩]⟩,
  ⟨R.PTP_TXTS1_T, [⟨31, 0, .ro⟩]⟩]

/-- The register tables of the LDR_ block. -/
def ldrRows : List RegRow := [
  ⟨R.LDR_CMD, [⟨24, 24, .wo⟩, ⟨23, 16, .wo⟩, ⟨12, 8, .wo⟩, ⟨2, 0, .wo⟩]⟩,
  ⟨R.LDR_CMD_STATUS, [⟨11, 8, .ro⟩, ⟨5, 3, .ro⟩, ⟨2, 0, .ro⟩]⟩,
  ⟨R.LDR_STATUS, [⟨27, 16, .ro⟩, ⟨15, 8, .ro⟩, ⟨7, 7, .ro⟩, ⟨6, 3, .ro⟩, ⟨2, 0, .ro⟩]⟩,
  ⟨R.LDR_PROGRESS, [⟨31, 0, .ro⟩]⟩,
  ⟨R.LDR_BOOT_SLOT, [⟨7, 0, .rwl⟩]⟩,
  ⟨R.LDR_MODEL_BASE, [⟨29, 0, .rwl⟩]⟩,
  ⟨R.LDR_CACHE_BASE, [⟨29, 0, .ro⟩]⟩,
  ⟨R.LDR_CACHE_SIZE, [⟨4, 0, .ro⟩]⟩,
  ⟨R.LDR_IMAGE_ID_LO, [⟨31, 0, .ro⟩]⟩,
  ⟨R.LDR_IMAGE_ID_HI, [⟨31, 0, .ro⟩]⟩,
  ⟨R.LDR_BAY_STATUS, [⟨31, 0, .ro⟩]⟩,
  ⟨R.LDR_DONE, [⟨31, 16, .ro⟩, ⟨3, 3, .ro⟩, ⟨2, 2, .ro⟩, ⟨1, 1, .ro⟩, ⟨0, 0, .ro⟩]⟩,
  ⟨R.LDR_DONE_CFG, [⟨23, 4, .rw⟩, ⟨3, 3, .rw⟩, ⟨1, 0, .rw⟩]⟩,
  ⟨R.LDR_LAT_SEL, [⟨9, 8, .rw⟩, ⟨5, 0, .rw⟩]⟩,
  ⟨R.LDR_LAT_VAL, [⟨15, 0, .ro⟩]⟩,
  ⟨R.LDR_CPATH, [⟨31, 16, .ro⟩, ⟨15, 0, .ro⟩]⟩,
  ⟨R.LDR_BMAP_SEL, [⟨6, 0, .rw⟩]⟩,
  ⟨R.LDR_BMAP, [⟨29, 24, .ro⟩, ⟨23, 23, .ro⟩, ⟨22, 16, .ro⟩, ⟨9, 8, .ro⟩, ⟨6, 0, .ro⟩]⟩]

/-- The register tables of the CHR_ block. -/
def chrRows : List RegRow := [
  ⟨R.CHR_STATUS, [⟨31, 16, .ro⟩, ⟨3, 3, .ro⟩, ⟨2, 2, .ro⟩, ⟨1, 0, .ro⟩]⟩,
  ⟨R.CHR_SYSTEM_ID, [⟨31, 0, .ro⟩]⟩,
  ⟨R.CHR_FL_ADDR, [⟨19, 0, .rwl⟩]⟩,
  ⟨R.CHR_FL_DATA, [⟨31, 0, .rwl⟩]⟩,
  ⟨R.CHR_FL_CMD, [⟨1, 0, .wo⟩]⟩,
  ⟨R.CHR_FL_STATUS, [⟨2, 2, .w1c⟩, ⟨1, 1, .w1c⟩, ⟨0, 0, .ro⟩]⟩]

/-- The register tables of the CAP_ block. -/
def capRows : List RegRow := [
  ⟨R.CAP_UNIT_SEL, [⟨3, 0, .rw⟩]⟩,
  ⟨R.CAP_UNIT_CFG, [⟨31, 24, .rw⟩, ⟨23, 23, .rw⟩, ⟨22, 18, .rw⟩, ⟨17, 12, .rw⟩, ⟨9, 5, .rw⟩, ⟨4, 4, .rw⟩, ⟨1, 0, .rw⟩]⟩,
  ⟨R.CAP_BUF_BASE, [⟨29, 0, .rw⟩]⟩,
  ⟨R.CAP_PRE, [⟨31, 0, .rw⟩]⟩,
  ⟨R.CAP_POST, [⟨31, 0, .rw⟩]⟩,
  ⟨R.CAP_TRIG_CFG, [⟨31, 16, .rw⟩, ⟨15, 12, .rw⟩, ⟨11, 11, .rw⟩, ⟨10, 8, .rw⟩, ⟨7, 6, .rw⟩, ⟨3, 0, .rw⟩]⟩,
  ⟨R.CAP_TRIG_MASK_LO, [⟨31, 0, .rw⟩]⟩,
  ⟨R.CAP_TRIG_MASK_HI, [⟨31, 0, .rw⟩]⟩,
  ⟨R.CAP_TRIG_VAL_LO, [⟨31, 0, .rw⟩]⟩,
  ⟨R.CAP_TRIG_VAL_HI, [⟨31, 0, .rw⟩]⟩,
  ⟨R.CAP_RED_CFG, [⟨15, 0, .rw⟩]⟩,
  ⟨R.CAP_CMD, [⟨1, 0, .wo⟩]⟩,
  ⟨R.CAP_UNIT_STATUS, [⟨15, 12, .ro⟩, ⟨10, 8, .ro⟩, ⟨6, 6, .ro⟩, ⟨5, 5, .ro⟩, ⟨4, 4, .ro⟩, ⟨2, 0, .ro⟩]⟩,
  ⟨R.CAP_WPTR, [⟨31, 0, .ro⟩]⟩,
  ⟨R.CAP_TRIG_POS, [⟨31, 0, .ro⟩]⟩,
  ⟨R.CAP_TRIG_BEAT, [⟨31, 0, .ro⟩]⟩,
  ⟨R.CAP_DSK_SEL, [⟨11, 0, .rw⟩]⟩,
  ⟨R.CAP_DSK_VAL, [⟨15, 0, .rw⟩]⟩]

/-- The register tables of the FMP_ block. -/
def fmpRows : List RegRow := [
  ⟨R.FMP_SEL, [⟨7, 0, .rw⟩]⟩,
  ⟨R.FMP_DESC, [⟨31, 31, .ro⟩, ⟨12, 8, .ro⟩, ⟨4, 0, .ro⟩]⟩,
  ⟨R.FMP_BASE, [⟨29, 0, .ro⟩]⟩,
  ⟨R.FMP_CMD, [⟨0, 0, .wo⟩]⟩,
  ⟨R.FMP_STATUS, [⟨15, 8, .ro⟩, ⟨2, 2, .w1c⟩, ⟨1, 1, .w1c⟩, ⟨0, 0, .ro⟩]⟩,
  ⟨R.FMP_REC_CNT, [⟨31, 0, .ro⟩]⟩,
  ⟨R.FMP_NEWBITS, [⟨31, 0, .ro⟩]⟩,
  ⟨R.FMP_FIRST_BEAT, [⟨31, 0, .ro⟩]⟩,
  ⟨R.FMP_FIRST_ADDR, [⟨31, 0, .ro⟩]⟩,
  ⟨R.FMP_RANGE_CNT, [⟨31, 0, .ro⟩]⟩,
  ⟨R.FMP_APPLIED_LO, [⟨31, 0, .ro⟩]⟩,
  ⟨R.FMP_APPLIED_HI, [⟨15, 0, .ro⟩]⟩,
  ⟨R.FMP_HELD, [⟨14, 0, .ro⟩]⟩,
  ⟨R.FMP_UE_ADDR, [⟨31, 0, .ro⟩]⟩,
  ⟨R.FMP_UE_BITS, [⟨31, 0, .ro⟩]⟩]

/-- The register tables of the SHT_ block. -/
def shtRows : List RegRow := [
  ⟨R.SHT_SEL, [⟨6, 0, .rw⟩]⟩,
  ⟨R.SHT_CTL, [⟨0, 0, .rwl⟩]⟩,
  ⟨R.SHT_STATUS, [⟨31, 16, .ro⟩, ⟨3, 3, .ro⟩, ⟨2, 0, .ro⟩]⟩,
  ⟨R.SHT_PC, [⟨31, 0, .ro⟩]⟩,
  ⟨R.SHT_CAUSE, [⟨3, 0, .ro⟩]⟩,
  ⟨R.SHT_ITEMS, [⟨31, 0, .ro⟩]⟩,
  ⟨R.SHT_TRAPS, [⟨31, 0, .ro⟩]⟩]

/-- The register tables of the WSC_ block. -/
def wscRows : List RegRow := [
  ⟨R.WSC_CFG, [⟨31, 16, .rw⟩, ⟨15, 0, .rw⟩]⟩,
  ⟨R.WSC_STATUS, [⟨31, 31, .ro⟩, ⟨30, 30, .w1c⟩, ⟨16, 0, .ro⟩]⟩,
  ⟨R.WSC_LVL_SEL, [⟨2, 0, .rw⟩]⟩,
  ⟨R.WSC_LVL_CNT, [⟨16, 0, .ro⟩]⟩,
  ⟨R.WSC_TRIG_SEL, [⟨5, 0, .rw⟩]⟩,
  ⟨R.WSC_TRIG_LO, [⟨31, 31, .rwl⟩, ⟨30, 28, .rwl⟩, ⟨27, 20, .rwl⟩, ⟨15, 8, .rwl⟩, ⟨7, 0, .rwl⟩]⟩,
  ⟨R.WSC_TRIG_HI, [⟨31, 0, .rwl⟩]⟩,
  ⟨R.WSC_TRIG_PEND, [⟨31, 0, .ro⟩]⟩,
  ⟨R.WSC_CNT_SEL, [⟨5, 0, .rw⟩]⟩,
  ⟨R.WSC_CNT, [⟨31, 0, .w1c⟩]⟩,
  ⟨R.WSC_POST_DATA, [⟨31, 0, .wo⟩]⟩,
  ⟨R.WSC_POST_CMD, [⟨0, 0, .wo⟩]⟩,
  ⟨R.WSC_POST_STATUS, [⟨1, 0, .ro⟩]⟩,
  ⟨R.WSC_CMD, [⟨31, 16, .wo⟩, ⟨0, 0, .wo⟩]⟩,
  ⟨R.WSC_CMD_STATUS, [⟨16, 0, .ro⟩]⟩]

/-- The register tables of the CLM_ block. -/
def clmRows : List RegRow := [
  ⟨R.CLM_CFG, [⟨15, 0, .rwl⟩]⟩,
  ⟨R.CLM_STARVE_CNT, [⟨31, 0, .w1c⟩]⟩,
  ⟨R.CLM_STARVE_CFG, [⟨15, 0, .rw⟩]⟩,
  ⟨R.CLM_MBX_MODE, [⟨31, 0, .rwl⟩]⟩,
  ⟨R.CLM_MBX_BUSY, [⟨31, 0, .w1c⟩]⟩,
  ⟨R.CLM_MBX_COLL, [⟨31, 0, .ro⟩]⟩,
  ⟨R.CLM_BANK_OWNER, [⟨9, 8, .rw⟩, ⟨6, 0, .rw⟩]⟩]

/-- The register tables of the HUB_ block. -/
def hubRows : List RegRow := [
  ⟨R.HUB_URG_CFG, [⟨7, 0, .rw⟩]⟩,
  ⟨R.HUB_MON_SEL, [⟨10, 8, .rw⟩, ⟨7, 7, .rw⟩, ⟨4, 0, .rw⟩]⟩,
  ⟨R.HUB_MON_CNT, [⟨31, 0, .ro⟩]⟩,
  ⟨R.HUB_LINK_ERR, [⟨31, 0, .ro⟩]⟩]

/-- The register tables of the GK_ block. -/
def gkRows : List RegRow := [
  ⟨R.GK_SEL, [⟨10, 8, .rw⟩, ⟨5, 0, .rw⟩]⟩,
  ⟨R.GK_ENT0, [⟨31, 31, .rw⟩, ⟨28, 28, .rw⟩, ⟨27, 27, .rw⟩, ⟨26, 26, .rw⟩, ⟨25, 25, .rw⟩, ⟨23, 12, .rw⟩, ⟨11, 0, .rw⟩]⟩,
  ⟨R.GK_ENT1, [⟨31, 0, .rw⟩]⟩,
  ⟨R.GK_ENT2, [⟨31, 0, .rw⟩]⟩,
  ⟨R.GK_ENT3, [⟨7, 4, .rw⟩, ⟨3, 0, .rw⟩]⟩,
  ⟨R.GK_VIOL_CNT, [⟨31, 0, .ro⟩]⟩,
  ⟨R.GK_VIOL_LAST, [⟨31, 20, .ro⟩, ⟨19, 17, .ro⟩, ⟨16, 15, .ro⟩, ⟨14, 13, .ro⟩]⟩,
  ⟨R.GK_VIOL_ADDR_LO, [⟨31, 0, .ro⟩]⟩,
  ⟨R.GK_VIOL_ADDR_HI, [⟨15, 0, .ro⟩]⟩]

/-- The register tables of the BOB_ block. -/
def bobRows : List RegRow := [
  ⟨R.BOB_CH_SEL, [⟨4, 0, .rw⟩]⟩,
  ⟨R.BOB_CH_DESC_LO, [⟨31, 6, .rw⟩]⟩,
  ⟨R.BOB_CH_DESC_HI, [⟨15, 0, .rw⟩]⟩,
  ⟨R.BOB_CH_CFG, [⟨7, 0, .rw⟩]⟩,
  ⟨R.BOB_CH_CMD, [⟨1, 0, .wo⟩]⟩,
  ⟨R.BOB_CH_STATUS, [⟨15, 12, .ro⟩, ⟨11, 8, .ro⟩, ⟨7, 7, .ro⟩, ⟨6, 4, .ro⟩, ⟨2, 0, .ro⟩]⟩,
  ⟨R.BOB_CH_BYTES, [⟨31, 0, .ro⟩]⟩,
  ⟨R.BOB_CH_ERR_LO, [⟨31, 0, .ro⟩]⟩,
  ⟨R.BOB_CH_ERR_HI, [⟨15, 0, .ro⟩]⟩,
  ⟨R.BOB_BUSY, [⟨31, 0, .ro⟩]⟩]

/-- The register tables of the HBM_ block. -/
def hbmRows : List RegRow := [
  ⟨R.HBM_CTL, [⟨0, 0, .rwl⟩]⟩,
  ⟨R.HBM_STATUS, [⟨23, 16, .ro⟩, ⟨15, 8, .ro⟩, ⟨7, 0, .ro⟩]⟩,
  ⟨R.HBM_SCRUB_CFG, [⟨15, 0, .rw⟩]⟩,
  ⟨R.HBM_SCRUB_PASS, [⟨31, 0, .ro⟩]⟩,
  ⟨R.HBM_CE_CNT, [⟨31, 0, .ro⟩]⟩,
  ⟨R.HBM_UE_CNT, [⟨31, 0, .ro⟩]⟩,
  ⟨R.HBM_ERR_ADDR_LO, [⟨31, 0, .ro⟩]⟩,
  ⟨R.HBM_ERR_ADDR_HI, [⟨0, 0, .ro⟩]⟩,
  ⟨R.HBM_CA_CNT, [⟨31, 0, .ro⟩]⟩,
  ⟨R.HBM_HASH_CTL, [⟨0, 0, .rwl⟩]⟩,
  ⟨R.HBM_HASH_SEED, [⟨31, 0, .rwl⟩]⟩,
  ⟨R.HBM_OCC_CFG, [⟨23, 20, .rw⟩, ⟨19, 8, .rw⟩, ⟨4, 0, .rw⟩]⟩,
  ⟨R.HBM_OCC_SEL, [⟨7, 0, .rw⟩]⟩,
  ⟨R.HBM_OCC_CNT, [⟨31, 0, .ro⟩]⟩,
  ⟨R.HBM_OCC_MAX, [⟨19, 8, .ro⟩, ⟨7, 0, .ro⟩]⟩,
  ⟨R.HBM_OCC_STATUS, [⟨0, 0, .w1c⟩]⟩,
  ⟨R.HBM_SPILL_BASE, [⟨28, 0, .ro⟩]⟩,
  ⟨R.HBM_SPILL_CNT, [⟨31, 16, .ro⟩, ⟨15, 0, .ro⟩]⟩,
  ⟨R.HBM_DWIN_SEL, [⟨6, 0, .rw⟩]⟩,
  ⟨R.HBM_DWIN_LO, [⟨31, 0, .ro⟩]⟩,
  ⟨R.HBM_DWIN_HI, [⟨31, 0, .ro⟩]⟩]

/-- The register tables of the ECC_ block. -/
def eccRows : List RegRow := [
  ⟨R.ECC_CE_SEL, [⟨2, 0, .rw⟩]⟩,
  ⟨R.ECC_CE_CNT, [⟨31, 0, .ro⟩]⟩,
  ⟨R.ECC_CE_CFG, [⟨15, 0, .rw⟩]⟩,
  ⟨R.ECC_CE_LAST, [⟨31, 0, .ro⟩]⟩,
  ⟨R.ECC_UE_CNT, [⟨31, 0, .ro⟩]⟩,
  ⟨R.ECC_SCRUB_CFG, [⟨15, 0, .rw⟩]⟩,
  ⟨R.ECC_TEST, [⟨15, 6, .rwl⟩, ⟨2, 1, .rwl⟩, ⟨0, 0, .rwl⟩]⟩,
  ⟨R.ECC_TEST_RAW, [⟨9, 0, .ro⟩]⟩,
  ⟨R.ECC_INJ_POS, [⟨29, 23, .rwl⟩, ⟨22, 17, .rwl⟩, ⟨16, 11, .rwl⟩, ⟨10, 0, .rwl⟩]⟩,
  ⟨R.ECC_INJ_BITS, [⟨15, 15, .rwl⟩, ⟨14, 8, .rwl⟩, ⟨7, 7, .rwl⟩, ⟨6, 0, .rwl⟩]⟩,
  ⟨R.ECC_INJ_CMD, [⟨0, 0, .wo⟩]⟩]

/-- The register tables of the BST_ block. -/
def bstRows : List RegRow := [
  ⟨R.BST_CFG, [⟨3, 3, .rwl⟩, ⟨2, 2, .rwl⟩, ⟨1, 1, .rwl⟩, ⟨0, 0, .rwl⟩]⟩,
  ⟨R.BST_TMT_CFG, [⟨23, 4, .rw⟩, ⟨3, 0, .rw⟩]⟩,
  ⟨R.BST_CMD, [⟨11, 8, .wo⟩, ⟨1, 0, .wo⟩]⟩,
  ⟨R.BST_STATUS, [⟨11, 8, .ro⟩, ⟨6, 4, .ro⟩, ⟨2, 0, .ro⟩]⟩,
  ⟨R.BST_ROLL_CNT, [⟨31, 0, .ro⟩]⟩,
  ⟨R.BST_TMT_ERR, [⟨31, 0, .ro⟩]⟩,
  ⟨R.BST_BAD_CNT, [⟨31, 16, .ro⟩, ⟨15, 0, .ro⟩]⟩]

/-- The register tables of the FUS_ block. -/
def fusRows : List RegRow := [
  ⟨R.CHIP_ID, [⟨31, 0, .ro⟩]⟩,
  ⟨R.STEP_ID, [⟨1, 0, .ro⟩]⟩,
  ⟨R.FUS_UID_LO, [⟨31, 0, .ro⟩]⟩,
  ⟨R.FUS_UID_HI, [⟨31, 0, .ro⟩]⟩,
  ⟨R.FUS_REPAIR_CFG, [⟨2, 2, .rwl⟩, ⟨1, 0, .rwl⟩]⟩,
  ⟨R.FUS_ADDR, [⟨6, 0, .rwl⟩]⟩,
  ⟨R.FUS_DATA, [⟨31, 0, .rwl⟩]⟩,
  ⟨R.FUS_CMD, [⟨2, 0, .wo⟩]⟩,
  ⟨R.FUS_STATUS, [⟨2, 2, .w1c⟩, ⟨1, 1, .w1c⟩, ⟨0, 0, .ro⟩]⟩,
  ⟨R.FUS_READ, [⟨31, 0, .ro⟩]⟩]

/-- The register tables of the LOG_ block. -/
def logRows : List RegRow := [
  ⟨R.LOG_CTL, [⟨1, 1, .wo⟩, ⟨0, 0, .rwl⟩]⟩,
  ⟨R.LOG_STATUS, [⟨11, 0, .ro⟩]⟩,
  ⟨R.LOG_COUNT, [⟨31, 0, .ro⟩]⟩,
  ⟨R.LOG_LOST, [⟨31, 0, .ro⟩]⟩,
  ⟨R.LOG_RD_IDX, [⟨11, 0, .rw⟩]⟩,
  ⟨R.LOG_RD_DATA0, [⟨31, 0, .ro⟩]⟩,
  ⟨R.LOG_RD_DATA1, [⟨31, 0, .ro⟩]⟩,
  ⟨R.LOG_RD_DATA2, [⟨31, 0, .ro⟩]⟩,
  ⟨R.LOG_RD_DATA3, [⟨31, 0, .ro⟩]⟩]

/-- The register tables of the WCH_ block. -/
def wchRows : List RegRow := [
  ⟨R.WCH_STATUS, [⟨31, 0, .ro⟩]⟩,
  ⟨R.WCH_CMD, [⟨0, 0, .wo⟩]⟩,
  ⟨R.WCH_SEL, [⟨4, 0, .rw⟩]⟩,
  ⟨R.WCH_FILT, [⟨31, 31, .rwl⟩, ⟨11, 8, .rwl⟩, ⟨7, 0, .rwl⟩]⟩,
  ⟨R.WCH_RULE_LO, [⟨31, 0, .rwl⟩]⟩,
  ⟨R.WCH_RULE_HI, [⟨31, 0, .rwl⟩]⟩,
  ⟨R.WCH_VALUE, [⟨15, 0, .ro⟩]⟩,
  ⟨R.WCH_SRC_SEL, [⟨7, 0, .rw⟩]⟩,
  ⟨R.WCH_SRC_VAL, [⟨15, 0, .ro⟩]⟩]

/-- The register tables of the PWR_ block. -/
def pwrRows : List RegRow := [
  ⟨R.PWR_DEV_REQ, [⟨1, 0, .rwl⟩]⟩,
  ⟨R.PWR_STATUS, [⟨23, 16, .ro⟩, ⟨7, 4, .ro⟩, ⟨3, 3, .ro⟩, ⟨2, 2, .ro⟩, ⟨1, 0, .ro⟩]⟩,
  ⟨R.PWR_WAKE_CFG, [⟨0, 0, .rwl⟩]⟩,
  ⟨R.PWR_PANEL_SEL, [⟨1, 0, .rw⟩]⟩,
  ⟨R.PWR_PANEL_CFG, [⟨31, 31, .rwl⟩, ⟨29, 24, .rwl⟩, ⟨21, 16, .rwl⟩, ⟨11, 0, .rwl⟩]⟩,
  ⟨R.PWR_PANEL_REQ, [⟨1, 0, .rwl⟩]⟩,
  ⟨R.PWR_PANEL_V, [⟨21, 16, .ro⟩, ⟨11, 0, .ro⟩]⟩,
  ⟨R.PWR_SAVE_BASE, [⟨31, 31, .rwl⟩, ⟨9, 0, .rwl⟩]⟩]

/-- The register tables of the IOC_ block. -/
def iocRows : List RegRow := [
  ⟨R.IOC_PIN_SEL, [⟨5, 0, .rw⟩]⟩,
  ⟨R.IOC_PIN_CFG, [⟨13, 12, .ro⟩, ⟨11, 10, .ro⟩, ⟨9, 8, .ro⟩, ⟨7, 6, .rwl⟩, ⟨5, 5, .rwl⟩, ⟨4, 3, .rwl⟩]⟩,
  ⟨R.IOC_IN0, [⟨31, 0, .ro⟩]⟩,
  ⟨R.IOC_IN1, [⟨15, 0, .ro⟩]⟩,
  ⟨R.IOC_SH_OUT0, [⟨31, 0, .rw⟩]⟩,
  ⟨R.IOC_SH_OUT1, [⟨15, 0, .rw⟩]⟩,
  ⟨R.IOC_SH_OE0, [⟨31, 0, .rw⟩]⟩,
  ⟨R.IOC_SH_OE1, [⟨15, 0, .rw⟩]⟩,
  ⟨R.IOC_STRAP, [⟨4, 4, .ro⟩, ⟨3, 3, .ro⟩, ⟨2, 0, .ro⟩]⟩]

/-- The register tables of the TMX_ block. -/
def tmxRows : List RegRow := [
  ⟨R.TMX_CTL, [⟨10, 8, .rw⟩, ⟨0, 0, .rwl⟩]⟩,
  ⟨R.TMX_HEDDLE, [⟨29, 23, .rw⟩, ⟨22, 17, .rw⟩, ⟨16, 12, .rw⟩]⟩,
  ⟨R.TMX_SEL0, [⟨11, 0, .rw⟩]⟩,
  ⟨R.TMX_SEL1, [⟨11, 0, .rw⟩]⟩,
  ⟨R.TMX_SEL2, [⟨11, 0, .rw⟩]⟩,
  ⟨R.TMX_SEL3, [⟨11, 0, .rw⟩]⟩,
  ⟨R.TMX_SEL4, [⟨11, 0, .rw⟩]⟩,
  ⟨R.TMX_SEL5, [⟨11, 0, .rw⟩]⟩,
  ⟨R.TMX_SEL6, [⟨11, 0, .rw⟩]⟩,
  ⟨R.TMX_SEL7, [⟨11, 0, .rw⟩]⟩]

/-- The register tables of the TRC_ block. -/
def trcRows : List RegRow := [
  ⟨R.TRC_CTL, [⟨31, 31, .rwl⟩, ⟨30, 15, .rw⟩, ⟨14, 10, .rw⟩, ⟨3, 3, .rw⟩, ⟨2, 2, .rw⟩, ⟨1, 1, .rw⟩, ⟨0, 0, .rw⟩]⟩,
  ⟨R.TRC_BUF_BASE, [⟨29, 0, .rw⟩]⟩,
  ⟨R.TRC_WPTR, [⟨31, 0, .ro⟩]⟩,
  ⟨R.TRC_ETH_ADDR, [⟨31, 0, .rw⟩]⟩,
  ⟨R.TRC_ETH_PORT, [⟨15, 0, .rw⟩]⟩,
  ⟨R.TRC_LOST, [⟨31, 0, .ro⟩]⟩]

/-- The register tables of the MGT_ block. -/
def mgtRows : List RegRow := [
  ⟨R.MGT_LOCK, [⟨31, 16, .rw⟩, ⟨0, 0, .rw⟩]⟩,
  ⟨R.MGT_STATUS, [⟨27, 16, .ro⟩, ⟨0, 0, .ro⟩]⟩]

/-- The register tables of block k (13 R382); a k with no block has none. -/
def rowsOf : Nat → List RegRow
  | 0 => trdRows
  | 1 => lomRows
  | 2 => drwRows
  | 3 => lrgRows
  | 4 => wrpRows
  | 5 => wftRows
  | 6 => ethRows
  | 7 => ptpRows
  | 8 => ldrRows
  | 9 => chrRows
  | 10 => capRows
  | 11 => fmpRows
  | 12 => shtRows
  | 13 => wscRows
  | 14 => clmRows
  | 15 => hubRows
  | 16 => gkRows
  | 17 => bobRows
  | 18 => hbmRows
  | 19 => eccRows
  | 20 => bstRows
  | 21 => fusRows
  | 22 => logRows
  | 23 => wchRows
  | 24 => pwrRows
  | 25 => iocRows
  | 26 => tmxRows
  | 27 => trcRows
  | 28 => mgtRows
  | _ => []

/-- Values after PORST_N that are not 0 (00 R9). -/
def resetVals0 : SMap Nat := [
  (R.TRD_MARGIN, 0x10A28020),
  (R.TRD_START_CFG, 0x640),
  (R.TRD_SLACK_LAST, 0x7FFFFFFF),
  (R.TRD_SLACK_MIN, 0x7FFFFFFF),
  (R.TRD_PIN_CFG, 0x3E80),
  (R.TRD_WEAVE, 0x1F40000),
  (R.TRD_ROLL, 0x190),
  (R.LOM_CTL, 0x2),
  (R.LOM_RETRY_CFG, 0xD),
  (R.LOM_WDOG, 0x3E8),
  (R.LOM_MAP_DATA, 0x20000),
  (R.WRP_CTL, 0x271000),
  (R.WRP_RETRY_CFG, 0x80007D0),
  (R.WRP_LANE_CFG, 0x2),
  (R.WFT_CTL, 0x7D0000),
  (R.WFT_RETRY_CFG, 0x80003E8),
  (R.PTP_SERVO, 0x30D4041),
  (R.PTP_JUMP_LIMIT, 0x3E8),
  (R.PTP_LOCK_CFG, 0x8040064),
  (R.PTP_PPS_CFG, 0x64),
  (R.LDR_DONE_CFG, 0x27108),
  (R.LDR_BMAP, 0x3F000000),
  (R.CAP_UNIT_CFG, 0xA000200),
  (R.CAP_TRIG_CFG, 0x10000),
  (R.FMP_FIRST_BEAT, 0xFFFFFFFF),
  (R.SHT_CTL, 0x1),
  (R.WSC_CFG, 0x271007D0),
  (R.CLM_CFG, 0xFFFF),
  (R.CLM_STARVE_CFG, 0x1000),
  (R.HUB_URG_CFG, 0x40)]

/-- Values after PORST_N that are not 0 (00 R9). -/
def resetVals1 : SMap Nat := [
  (R.BOB_CH_CFG, 0x3),
  (R.HBM_SCRUB_CFG, 0x18),
  (R.HBM_OCC_CFG, 0x404010),
  (R.ECC_CE_CFG, 0x400),
  (R.ECC_SCRUB_CFG, 0x3C),
  (R.BST_TMT_CFG, 0x186A00),
  (R.CHIP_ID, 0xC591200),
  (R.PWR_STATUS, 0x550000),
  (R.PWR_PANEL_CFG, 0xA8000640),
  (R.PWR_PANEL_V, 0x1E0000),
  (R.IOC_PIN_CFG, 0x8),
  (R.TMX_CTL, 0x700),
  (R.TRC_CTL, 0x7FFFC000),
  (R.TRC_ETH_PORT, 0x1BE5),
  (R.MGT_LOCK, 0x12C0000)]

/-- 13 R410: the value after PORST_N of word i of a gatekeeper entry: entry 0 of every table allows everything. -/
def gkResetVal (w entry : Nat) : Nat :=
  if entry % 64 ≠ 0 then 0
  else if w = 0 then 0x9EFFF000 else if w = 2 then 0xFFFFFFFF else if w = 3 then 0xF0 else 0

/-- The value of a register's key after PORST_N (00 R9; the tables' Reset columns). -/
def resetVal (key : Nat) : Word :=
  let k := key % 0x1000000
  if R.GK_ENT0 ≤ k ∧ k ≤ R.GK_ENT3 then BitVec.ofNat 32 (gkResetVal ((k - R.GK_ENT0) / 4) (key / 0x1000000))
  else BitVec.ofNat 32 (SMap.get 0 (resetVals0 ++ resetVals1) k)

/-- The table of the register at a key, if one is defined there (00 R8: other offsets are reserved). CLM_BANK_OWNER
stands for its 512 registers (12 R369). -/
def rowOf (key : Nat) : Option RegRow :=
  let k := key % 0x1000000
  if R.CLM_BANK_OWNER ≤ k ∧ k < R.CLM_BANK_OWNER + 0x800 ∧ k % 4 = 0 then
    (rowsOf (R.CLM_BANK_OWNER / 0x10000)).find? (fun r => r.key == R.CLM_BANK_OWNER)
  else (rowsOf (k / 0x10000)).find? (fun r => r.key == k)

end Sys2Proof.Machine
end

