-- ==== Sys2Proof/Machine/StLoom.lean ====
section
/-!
DEFINITION. The state of the loom and its exchange (02, 03, 04), of the model memories behind it (05), and of the
treadle and the time base (06), as far as no register holds it. Maps are sparse; each docstring says how its keys are
made. A harness is numbered hn = 64 * GB + h, a heddle hk = 32 * hn + k.
-/

namespace Sys2Proof.Machine

/-- Where the attempt of the beat in progress stands (02 R33, R41). -/
inductive Phase where
  /-- no attempt: before the first release, between commit and release, or halted -/
  | none
  /-- event 1 of R33 has happened, event 2 has not -/
  | released
  /-- heddles execute their picks -/
  | running
  /-- the reed has reported the attempt complete (event 5) -/
  | complete
  /-- a fault is flagged and the heddles are being stopped (R41) -/
  | faulted
  /-- the held effects are discarded; the fix of the fault runs (R41) -/
  | fixing
  /-- a repair step runs (R42) -/
  | repairing
  /-- the treadle has decided on a rerun of the beat (R41) -/
  | rerun
  deriving DecidableEq, Repr

/-- The kinds of 02 R38, numbered as the KIND field of R46. -/
structure FaultRec where
  /-- 0 pick error; 1 route-word error; 2 shed error in CUR; 3 shed error in OTHER; 4 heddle fault; 5 stall -/
  kind : Nat
  gb : Nat
  h : Nat
  k : Nat
  pick : Nat
  /-- shed group, for kinds 2 and 3 (R46) -/
  group : Nat
  deriving DecidableEq, Repr

/-- A stored bit that has flipped (02 R38, R40). -/
inductive Hit where
  /-- bits of a pick word or route word in the jacquard; stream 32 is the draw stream -/
  | word (hn stream pick : Nat) (flips : StoredWord)
  /-- one entry of a shed bank -/
  | shed (hn k bank entry : Nat)
  /-- one bit of the check word of a harness for a bank and group -/
  | check (hn bank group bit : Nat)
  /-- the image cache's copy of a word is uncorrectable -/
  | cache (hn stream pick : Nat)
  /-- a word of a line of a shuttle's instruction cache is uncorrectable (12 R366) -/
  | code (sh line : Nat)
  /-- bits of a slot-table entry (14 R417) -/
  | slot (gb entry : Nat) (flips : BitVec 72)
  /-- bits of a deep window descriptor -/
  | window (gb : Nat) (flips : BitVec 72)
  /-- the image cache's copy of a slot-table entry, or of a descriptor, is uncorrectable -/
  | tableCache (gb : Nat) (entry : Option Nat)
  /-- bits of a word of a gatekeeper entry: 64 * table + entry -/
  | gate (entry i : Nat) (flips : BitVec 39)
  deriving DecidableEq, Repr

/-- The numbers of a flipped bit are in their ranges. -/
def Hit.wf : Hit → Bool
  | .word hn stream pick _ => decide (hn < 8192) && decide (stream < 33) && decide (pick < 2048)
  | .shed hn k bank entry => decide (hn < 8192) && decide (k < 32) && decide (bank < 2) && decide (entry < 2048)
  | .check hn bank group bit => decide (hn < 8192) && decide (bank < 2) && decide (group < 32) && decide (bit < 64)
  | .cache hn stream pick => decide (hn < 8192) && decide (stream < 33) && decide (pick < 2048)
  | .code sh line => decide (sh < 128) && decide (line < 2 ^ 42)
  | .slot gb entry _ => decide (gb < 128) && decide (entry < 1024)
  | .window gb _ => decide (gb < 128)
  | .tableCache gb entry => decide (gb < 128) && decide (entry.getD 0 < 1024)
  | .gate entry i _ => decide (entry < 384) && decide (i < 4)

/-- The record's numbers are in their ranges. -/
def FaultRec.wf (f : FaultRec) : Bool :=
  decide (f.kind ≤ 5) && decide (f.gb < 128) && decide (f.h < 64) && decide (f.k < 32) && decide (f.pick < 2048) && decide (f.group < 32)

/-- A hazard held with the attempt (03 R93, R94). -/
structure Hazard where
  gb : Nat
  code : Nat
  pick : Nat
  h : Nat
  k : Nat
  operand : Nat
  detail : Nat
  deriving DecidableEq, Repr

/-- A lane merge held with the attempt (04 R102). -/
structure MergeRec where
  gb : Nat
  h : Nat
  pick : Nat
  lane : Nat
  /-- lowest driving heddle -/
  k : Nat
  deriving DecidableEq, Repr

/-- An entry of a beam journal or a deep journal (03 R79, R83, 05 R129). -/
structure JEntry where
  gb : Nat
  h : Nat
  pick : Nat
  /-- word address (beam journal) or word index (deep journal) -/
  addr : Nat
  data : Word
  /-- the entry has been copied to the spill area -/
  spilled : Bool
  deriving DecidableEq, Repr

/-- A deep read in flight (05 R139). -/
structure DeepRead where
  gb : Nat
  h : Nat
  pick : Nat
  /-- word index (05 R132) -/
  idx : Nat
  delayed : Bool
  /-- the beat that issued it -/
  beat : Nat
  /-- its attempt was aborted: it is still served, and what it returns is discarded (02 R41; 05 R137, R139) -/
  aborted : Bool
  deriving DecidableEq, Repr

/-- A bundle on a loom ring (04 R110, R117). -/
structure Bundle where
  ring : Nat
  /-- true: a weft bundle -/
  weft : Bool
  /-- WEFT_OUT: the weft link that sends. WEFT_IN: the link that received. -/
  link : Nat
  /-- true: put onto the ring by the gateway (WEFT_IN) -/
  fromGw : Bool
  flow : Nat
  val : Nat
  /-- physical stop at which the bundle now stands -/
  stop : Nat
  /-- physical stop of the injection -/
  origin : Nat
  /-- slot-table entries that have copied it: keys 1024 * GB + entry -/
  taken : List Nat
  deriving DecidableEq, Repr

/-- One tapped bit in a beam's tap FIFO (03 R69). -/
structure TapBit where
  gb : Nat
  h : Nat
  k : Nat
  pick : Nat
  val : Bool
  deriving DecidableEq, Repr

/-- A fail record (03 R87). -/
structure FailRec where
  map : Nat
  addr : Nat
  bits : Word
  beat : Nat
  pick : Nat
  gb : Nat
  h : Nat
  deriving DecidableEq, Repr

/-- An access to a mailbox bank in its latest bank cycle or in the one before, for the collisions of 05 R143 and R144. -/
structure MbxAccess where
  /-- on port L -/
  portL : Bool
  write : Bool
  word : Nat
  /-- the word before the access -/
  old : Word
  /-- the word after it -/
  new : Word
  /-- bank cycles since: 0 or 1 -/
  age : Nat
  /-- a read of an attempt that was aborted: its BUSY is discarded (05 R145) -/
  aborted : Bool
  deriving DecidableEq, Repr

/-- The latest accesses of a mailbox bank. -/
structure MbxBank where
  /-- those of its last two cycles, oldest first (05 R143) -/
  accs : List MbxAccess
  /-- nanosecond of the last one -/
  time : Nat
  deriving DecidableEq, Repr

/-- No access. -/
def MbxBank.empty : MbxBank := { accs := [], time := 0 }

/-- An uncorrectable memory word that an attempt has met (05 R151): the beam, the event code, its data. -/
structure MemFault where
  gb : Nat
  code : Nat
  data : Nat
  deriving DecidableEq, Repr

/-- Harness map, heddle map and spares (02 R23), and the beam map (07 R204). -/
structure Maps where
  hmap : SMap Nat
  repl : SMap Nat
  spare : SMap Bool
  bmap : SMap Nat
  deriving DecidableEq, Repr

/-- What registers show as of the last commit although it has changed since. -/
structure SinceCommit where
  /-- bundles discarded since then (04 R114, R120) -/
  discards : Nat
  /-- harness map, heddle map, spares and beam map as they were, where a rolling-test swap or a re-place has changed them (02 R62) -/
  maps : Option Maps
  deriving DecidableEq, Repr

/-- The loom (02, 03, 04, 05). -/
structure Loom where
  /-- committed beat count n, 48 bits (02 R37) -/
  beat : Nat
  phase : Phase
  /-- the release in progress is that of a catch-up beat (06 R188) -/
  solo : Bool
  /-- attempt number and repair flag of R41 are in LOM_STATUS; the fault under treatment -/
  fault : Option FaultRec
  /-- cause of the halt that is requested but not yet taken (02 R43) -/
  haltReq : Option Nat
  /-- a break flagged by a BRK of this attempt (03 R89) -/
  brk : Bool
  /-- the windows of the beat in progress are frozen (02 R28) -/
  frozen : Bool
  /-- pick words and route words: key (33 * hn + stream) * 2048 + pick; stream 32 is the draw stream (03 R65) -/
  jac : SMap PickWord
  /-- flipped stored bits, by the same key (14 R420) -/
  jacFlip : SMap StoredWord
  /-- image-cache copies that are uncorrectable, by the same key (02 R38); a table word's key stands 2^30 above that of
  `tabFlip` -/
  cacheBad : SMap Bool
  /-- flipped stored bits of slot-table entries, key 1024 * GB + entry, and of deep window descriptors, key 131072 + GB (14
  R417) -/
  tabFlip : SMap (BitVec 72)
  /-- stored shed bits that differ from what was written: key (2 * hk + bank) * 32 + group; the group's parity is wrong
  where their number is odd (02 R38, R40) -/
  shedFlip : SMap Word64
  /-- stored bits of the check words that differ from the XOR of what was written: key (2 * hn + bank) * 32 + group; the
  word's own parity is wrong where their number is odd (02 R40) -/
  checkFlip : SMap Word64
  /-- initial shed contents of the image: key hk * 2048 + entry (02 R32) -/
  initShed : SMap Bool
  /-- slot tables: key 1024 * GB + entry (04 R109) -/
  slots : SMap Word64
  /-- need U of each beam: key GB (07 R203); harnesses 0 to U - 1 are mapped -/
  need : SMap Nat
  /-- harness map: key hn, physical slot PH + 1; 0 stands for the identity (02 R23) -/
  hmap : SMap Nat
  /-- heddle map: key 32 * (66 * PGB + PH) + logical heddle, its physical slot PK + 1; 0 stands for the identity (02 R23,
  R42) -/
  repl : SMap Nat
  /-- physical slots of a beam that its maps name or that are named spares: key 66 * PGB + PH; 1 + use: 1 spare -/
  spare : SMap Bool
  /-- harness map, heddle map and spares before the repair step of the beat in progress (02 R42) -/
  savedMaps : Option (SMap Nat × SMap Nat × SMap Bool)
  /-- flipped bits of the streams that the repair step reloaded, as they stand in the slots left (02 R42) -/
  savedFlip : SMap StoredWord
  /-- beam map: key logical GB, physical beam + 1; 0 stands for the identity (07 R204) -/
  bmap : SMap Nat
  /-- shed banks: key (2 * hk + bank) * 2048 + entry (02 R30) -/
  shed : SMap Bool
  /-- picks completed in this attempt: key hk (02 R25) -/
  done : SMap Nat
  /-- picks whose operands are fetched: key hk (04 R97) -/
  fetched : SMap Nat
  /-- result held while its delivery waits: key hk, 1 + value (04 R97, R107) -/
  held : SMap Nat
  /-- the fields whose loom-receive read has waited at the heddle's present pick, bit i for field i: key hk (03 R92, 0x223;
  04 R111) -/
  waited : SMap Nat
  /-- fields fetched at a handshake that has closed: key hk, 1 + (a + 2b + 4c) (03 R75) -/
  operands : SMap Nat
  /-- handshakes closed: key hn, 1 + pick (03 R75) -/
  closed : SMap Nat
  /-- harness windows: key 512 * hn + slot (04 R96) -/
  win : SMap Bool
  /-- window slots that hold a delivered value, and whether a heddle has fetched it: 1 not fetched, 2 fetched (04 R99) -/
  winSt : SMap Nat
  /-- window slots whose present value replaced one that no heddle had fetched (04 R99) -/
  winLost : SMap Bool
  /-- beam-receive slots: key 256 * hn + slot (04 R105) -/
  brx : SMap Bool
  /-- next pull: key hn (04 R105) -/
  pulls : SMap Nat
  /-- closed lanes: key (2048 * hn + pick) * 8 + lane, 1 + value (04 R100) -/
  lanes : SMap Nat
  /-- loom-receive bundles: key 32 * hn + bundle, 256 + value when written (04 R111) -/
  lrx : SMap Nat
  /-- weft-receive bundles: key 32 * hn + bundle (04 R118) -/
  wrx : SMap Nat
  /-- weft-receive staging: key 32 * hn + bundle, 256 + value when written (04 R117) -/
  wstage : SMap Nat
  /-- staging of the previous beat, taken at the release and not yet in the windows, in the same form (04 R117, 02 R33) -/
  wnext : SMap Nat
  /-- port-in windows: key 256 * hn + slot (02 R28) -/
  portIn : SMap Bool
  /-- injections made in this attempt: key 1024 * GB + entry (04 R110) -/
  injected : SMap Bool
  /-- bundle of each EXTRACT entry in the last committed beat: key 1024 * GB + entry (04 R115) -/
  lastExt : SMap Nat
  /-- bundles on the rings -/
  bundles : List Bundle
  /-- PUT staging: key 4096 * hn + slot, 1 + OR of the values written (03 R85) -/
  putStage : SMap Nat
  /-- committed PUT slots, by the same key (03 R85) -/
  puts : SMap Bool
  hazards : List Hazard
  merges : List MergeRec
  /-- LANE_MERGE writes that wait for the next commit: key hn, 1 + value (04 R101) -/
  mergeNext : SMap Nat
  /-- beam journals of the attempt, in order of arrival (05 R129) -/
  bj : List JEntry
  /-- deep journals of the attempt -/
  dj : List JEntry
  /-- committed deep-journal entries not yet handed over, in the order of R83 (05 R138), with their beat -/
  djOut : List (Nat × JEntry)
  /-- beams whose spilled beam-journal entries of the committed beat are not read back, once for each block of 32 (05 R130) -/
  readback : List Nat
  /-- journals whose spill of 32 entries is due: 2 * GB, plus 1 for the deep journal (05 R129) -/
  spillDue : List Nat
  /-- the journaled write of the harness has met a full journal at this pick: key hn, 1 + pick (03 R92, 0x224) -/
  journalMet : SMap Nat
  /-- beams that have spilled since the image load (05 R129) -/
  spilledOnce : SMap Bool
  /-- deep reads in flight, oldest first (05 R139) -/
  deepReads : List DeepRead
  /-- delayed deep reads: key (2048 * hn + pick) * 2 + beat parity; 2^32 + word when served, 2^33 + word when uncorrectable (03 R80) -/
  dly : SMap Nat
  /-- valid lines of the line buffers: key GB, block numbers addr / 256, most recent first (05 R135) -/
  lines : SMap (List Nat)
  /-- invalidations not yet arrived: (GB, block) (05 R136) -/
  stale : List (Nat × Nat)
  /-- uncorrectable memory words met by the attempt: beam, event code, its data (05 R151) -/
  memFault : Option MemFault
  /-- tap FIFOs, oldest first (03 R69) -/
  taps : List TapBit
  /-- tapped bits drained into the staging of the capture units (11 R328) -/
  tapStage : List TapBit
  /-- fail-record staging of the panels, oldest first (03 R88) -/
  failStage : List FailRec
  /-- fail records of the attempt in the hub's held area (11 R345) -/
  failHeld : List FailRec
  /-- deep windows: key GB (05 R131) -/
  dwin : SMap Word64
  /-- loom-side BUSY bits of the mailbox banks: as frozen, met by committed work since the last release, met by the
  attempt (05 R145), as 32-bit masks -/
  busyL : Nat
  busyAcc : Nat
  busyAtt : Nat
  /-- accesses of the last two bank cycles, oldest first: key bank (05 R143) -/
  mbx : SMap MbxBank
  /-- banks that have had a collision since the image load (05 R145) -/
  mbxColl : SMap Bool
  /-- HBM accesses of the interval in progress: key pseudo-channel (05 R149) -/
  occ : SMap Nat
  /-- accesses of the last completed interval: key pseudo-channel (05 R154) -/
  occLast : SMap Nat
  /-- mapping mode and hash seed in effect since the last image load (05 R148) -/
  hashMode : Nat
  hashSeed : Nat
  /-- consecutive intervals over THRESH (05 R150) -/
  occRun : Nat
  /-- critical path C, C_ring and E for A1 and for B0 (07 R200) -/
  pathA : Nat × Nat × Nat
  pathB : Nat × Nat × Nat
  /-- bay of each beam: key GB, bay + 1 (07 R205) -/
  bay : SMap Nat
  /-- bays that rejoin in the beat in progress, as a mask (08 R245) -/
  rejoin : Nat
  /-- what has changed since the last commit and is not shown yet -/
  since : SinceCommit
  /-- writes that take effect at the next commit: register key and value, in order (01 R14) -/
  atCommit : List (Nat × Word)
  deriving DecidableEq, Repr

/-- The loom with no image. -/
def Loom.empty : Loom :=
  { beat := 0, phase := .none, solo := false, fault := none, haltReq := none, brk := false, frozen := false,
    jac := [], jacFlip := [], cacheBad := [], tabFlip := [], shedFlip := [], checkFlip := [], initShed := [], slots := [], need := [], hmap := [], repl := [],
    spare := [], savedMaps := none, savedFlip := [], bmap := [], shed := [], done := [], fetched := [], held := [], waited := [],
    operands := [], closed := [], win := [], winSt := [], winLost := [], brx := [], pulls := [], lanes := [],
    lrx := [], wrx := [], wstage := [], wnext := [], portIn := [], injected := [], lastExt := [], bundles := [],
    putStage := [], puts := [], hazards := [], merges := [], mergeNext := [], bj := [], dj := [], djOut := [],
    readback := [], spillDue := [], journalMet := [], spilledOnce := [], deepReads := [], dly := [], lines := [], stale := [], memFault := none,
    taps := [], tapStage := [], failStage := [], failHeld := [], dwin := [], busyL := 0, busyAcc := 0, busyAtt := 0,
    mbx := [], mbxColl := [], occ := [], occLast := [], hashMode := 0, hashSeed := 0, occRun := 0, pathA := (0, 0, 0), pathB := (0, 0, 0),
    bay := [], rejoin := 0, since := ⟨0, none⟩, atCommit := [] }

/-- The treadle (06), beside its registers. -/
structure Treadle where
  /-- the START in progress came from HALTED (R158) -/
  fromHalted : Bool
  /-- T of R164 -/
  tStart : Word
  /-- the START in progress waits for its time (R164) -/
  timed : Bool
  /-- the automatic start waits for DELAY (08 R234) -/
  autoWait : Bool
  /-- the slot grid runs (R160) -/
  gridOn : Bool
  /-- next slot start (R160) -/
  nextSlot : Word
  /-- a slot start has been reached and no beat released at it -/
  slotReached : Bool
  /-- slot start at which the last beat was released, plus one period: the end of its slot (R161) -/
  slotEnd : Word
  /-- TB at which conditions 1 to 6 of R159 were first all met, when known (R160) -/
  tReady : Option Word
  /-- slots skipped since the last release (R161) -/
  skipped : Nat
  /-- the beat in progress or last committed was released at a slot -/
  inSlot : Bool
  /-- least slack of the window in progress, and beats in it (R162) -/
  winMin : Option Int
  winBeats : Nat
  /-- TB at the release of the last beat (R186) -/
  relTb : Word
  /-- HALT_N is low (R172) -/
  haltLow : Bool
  /-- the watch unit holds the halt input low (15 R461) -/
  parkLow : Bool
  /-- a STOP waits for its halt (R171) -/
  stopPend : Bool
  /-- a START accepted in HALTED resumes a weave: 1 until its first beat is released (R188) -/
  recovery : Nat
  /-- a SOLO beat is ordered and not yet released (R188) -/
  soloDue : Bool
  /-- a START that waits for a panel to wake: timed, and the peer request it answers (15 R449) -/
  startOwed : Option (Bool × Option (Nat × Nat × Word))
  /-- NEED and whether the condition held, as last computed, on A1 and on B0 (R165) -/
  armA : Nat × Bool
  armB : Nat × Bool
  deriving DecidableEq, Repr

/-- The treadle at reset. -/
def Treadle.empty : Treadle :=
  { fromHalted := false, tStart := 0, timed := false, autoWait := false, gridOn := false, nextSlot := 0,
    slotReached := false, slotEnd := 0, tReady := none, skipped := 0, inSlot := false, winMin := none, winBeats := 0,
    relTb := 0, haltLow := false, parkLow := false, stopPend := false, recovery := 0, soloDue := false, startOwed := none, armA := (0, false),
    armB := (0, false) }

/-- The time base and its servo (06 R174 to R182). -/
structure TimeBase where
  tb : Word
  /-- fraction of a ns, 32 bits (R174) -/
  frac : Nat
  integ : Int
  rate : Int
  /-- consecutive samples within LOCK_NS (R180) -/
  lockRun : Nat
  /-- transmit time-stamp FIFOs of the two ports, oldest first: sequenceId and TB (R178) -/
  txts0 : List (Nat × Word)
  txts1 : List (Nat × Word)
  /-- level of TSYNC, and the TB at which the output falls (R181) -/
  tsync : Bool
  tsyncEnd : Word
  deriving DecidableEq, Repr

/-- The time base at reset. -/
def TimeBase.empty : TimeBase :=
  { tb := 0, frac := 0, integ := 0, rate := 0, lockRun := 0, txts0 := [], txts1 := [], tsync := false, tsyncEnd := 0 }

end Sys2Proof.Machine
end

