-- ==== Sys2Proof/Machine/StCmd.lean ====
section
/-!
DEFINITION. What some commands carry: the order of two mailbox accesses, what scrub finds, a hub request, an Ethernet frame.
-/

namespace Sys2Proof.Machine

/-- When an access arrives relative to the last access on the bank's other port (05 R143). -/
inductive MbxRel where
  /-- more than one bank cycle apart, or the other port came later -/
  | apart
  /-- in the same bank cycle -/
  | same
  /-- in the bank cycle after it -/
  | next
  deriving DecidableEq, Repr

/-- The fields of a TRAIN block but LANE (09 R255). -/
structure Train where
  phase : Nat
  req : Nat
  resp : Nat
  pre : Nat
  post : Nat
  main : Nat
  rate : Nat
  deriving DecidableEq, Repr

/-- The fields are in their ranges. -/
def Train.wf (t : Train) : Bool :=
  decide (t.phase < 3) && decide (t.req < 128) && decide (t.resp < 32) && decide (t.pre < 64) && decide (t.post < 64) &&
    decide (t.main ≤ 64) && decide (t.rate < 2)

/-- A request frame as it reaches the management port (10 R316, R317). -/
structure MgtFrame where
  /-- transport: 0 SPI, 1 I2C, 2 UART -/
  via : Nat
  /-- the 7-bit address of an I2C transaction -/
  addr7 : Nat
  /-- the frame spells a request of R317, and a UART frame's CRC-32C is right -/
  intact : Bool
  /-- the transport's previous request is still running -/
  running : Bool
  deriving DecidableEq, Repr

/-- The frame's numbers are in their ranges. -/
def MgtFrame.wf (f : MgtFrame) : Bool := decide (f.via < 3) && decide (f.addr7 < 128)

/-- A STATUS request of the management port: its frame, N and ADDR (10 R317, R318). -/
structure MgtStatusReq where
  frame : MgtFrame
  n : Nat
  addr : Nat
  deriving DecidableEq, Repr

/-- A fault that the loom finds, and the stored bits that have flipped (02 R38). -/
structure FaultIn where
  fault : FaultRec
  hits : List Hit
  deriving DecidableEq, Repr

/-- An eMMC command that failed (08 R230): the card's status, and whether the same command had failed before. -/
structure EmmcEnd where
  status : Nat
  again : Bool
  deriving DecidableEq, Repr

/-- A response for a bobbin channel (13 R400, R401): its channel, and whether a write is answered. -/
structure BobAnswer where
  chan : Nat
  write : Bool
  deriving DecidableEq, Repr

/-- What a word that scrub reads turns out to be. -/
inductive Upset where
  /-- as the model's state has it -/
  | none
  /-- one stored bit has flipped since it was written -/
  | single
  /-- more than one has -/
  | many
  deriving DecidableEq, Repr

/-- A word that scrub reads (R418). -/
inductive ScrubWord where
  | jacquard (hn stream pick : Nat)
  | slotEntry (gb entry : Nat)
  | descriptor (gb : Nat)
  | memory (addr : Nat)
  deriving DecidableEq, Repr

/-- The word's numbers are in their ranges. -/
def ScrubWord.wf : ScrubWord → Bool
  | .jacquard hn stream pick => decide (hn < 8192) && decide (stream < 33) && decide (pick < 2048)
  | .slotEntry gb entry => decide (gb < 128) && decide (entry < 1024)
  | .descriptor gb => decide (gb < 128)
  | .memory addr => decide (addr < 2 ^ 48)

/-- A request on its way to its target. -/
structure HubReq where
  /-- requesting stop (R383) -/
  src : Nat
  mid : Nat
  addr : Nat
  tag : Nat
  /-- cycles that the request waited before it was served: at a bank of a FULL cluster, at a tablet (12 R357, R369) -/
  waited : Nat
  /-- gatekeeper entry, 64 * table + entry, that the check found uncorrectable (14 R417) -/
  lost : Option Nat
  deriving DecidableEq, Repr

/-- A master sends from its own stop (13 R383, R389): a deep port and the journal agent from a panel bridge. -/
def midStopOk (mid stop : Nat) : Bool :=
  if mid < 0x80 then stop == mid / 8
  else if 0x100 ≤ mid ∧ mid < 0x120 then stop == 28
  else if (0x200 ≤ mid ∧ mid < 0x280) ∨ mid = 0x360 then 24 ≤ stop && stop < 28
  else if 0x320 ≤ mid ∧ mid ≤ 0x330 then stop == 29
  else stop == 30

/-- The request's numbers are in their ranges, and it comes from its master's stop (13 R383, R384, R389). -/
def HubReq.wf (q : HubReq) : Bool :=
  decide (q.src < 32) && midStopOk q.mid q.src && decide (q.mid < 4096) && decide (q.addr < 2 ^ 48) && decide (q.tag < 32) &&
    q.lost.all (fun e => decide (e < 384))

/-- A frame that is neither a loom control datagram nor a PTP message. -/
inductive EthFrame where
  /-- an ARP request: sender's MAC and IPv4 address, address asked for -/
  | arp (mac ip target : Nat)
  /-- an ICMP echo request: source, destination, the ICMP message -/
  | echo (ip dest : Nat) (msg : List Byte)
  /-- IEEE 802.3x PAUSE, in quanta of 512 bit times -/
  | pause (quanta : Nat)
  /-- anything else -/
  | other
  deriving DecidableEq, Repr

end Sys2Proof.Machine
end

