-- ==== Sys2Proof/Syntax.lean ====
section
/-!
DEFINITION. The commands: one constructor for each row of spec/opcode_table.json, in its order.
-/

namespace Sys2Proof

/-- A command to the block, with its operands. Every row of the table is one constructor. -/
inductive Instr where
  /-- BEAT_RELEASE (R159): The treadle issues the release of the next beat, or of a rerun, in the first TIME cycle in which every release condition holds. -/
  | beatRelease
  /-- RELEASE_REACHES_HEDDLES (R33): The release reaches every mapped heddle, and BANK, port-in and weft receive are frozen for the attempt. -/
  | releaseReachesHeddles (gpio : Nat)
  /-- PLAIN_PICK (R67): A heddle evaluates a four-input truth-table pick once all four operand reads are satisfied, and delivers its result. -/
  | plainPick (gb h k : Nat)
  /-- MRD (R77): A harness-wide pick reads one committed 32-bit beam-memory word. -/
  | mrd (gb h : Nat)
  /-- MWR (R78): A harness-wide pick journals a 32-bit beam-memory write that is applied at commit. -/
  | mwr (gb h : Nat)
  /-- DRD (R80): A harness-wide pick makes a stalling or delayed deep read through the beam's deep window. -/
  | drd (gb h : Nat)
  /-- DWR (R82): A harness-wide pick journals a deep write into the hub's deep journal. -/
  | dwr (gb h : Nat)
  /-- PUT (R84): A pick ORs one value into a PUT slot of its harness for the beat in progress. -/
  | put (gb h k : Nat)
  /-- EDGE (R86): A pick detects a rising edge of a shed entry and checks sub-beat samples in HAZARD checking. -/
  | edge (gb h k : Nat)
  /-- FAIL (R88): A harness-wide pick stages one fail record for a fail map. -/
  | fail (gb h : Nat)
  /-- BRK (R89): A pick copies its operand and, in HAZARD checking, flags a break when it is 1. -/
  | brk (gb h k : Nat)
  /-- RESERVED_ENCODING (R90): A reserved special pick reads nothing and delivers 0. -/
  | reservedEncoding (gb h k : Nat)
  /-- HARNESS_HANDSHAKE_CLOSE (R75): The last heddle of a harness fetches the fields of a harness-wide pick and the operation runs once for the harness. -/
  | harnessHandshakeClose (gb h : Nat)
  /-- WINDOW_DELIVERY (R97): A result lands in the harness window once every heddle in the reader mask has fetched the operands of that pick. -/
  | windowDelivery (gb h k : Nat)
  /-- BEAM_OUT_LANE_CLOSE (R100): A beam-out lane closes when its four heddles have completed the pick, merging drivers under LANE_MERGE. -/
  | beamOutLaneClose (gb h j pick : Nat)
  /-- PULL (R105): A harness applies a route word and writes eight beam-receive slots once the selected lanes have closed. -/
  | pull (gb h : Nat)
  /-- RING_INJECT (R110): A beam stop injects a harness's bundle onto a loom ring once all eight lanes have closed the drive pick. -/
  | ringInject (gb entry : Nat)
  /-- RING_HOP (R108): A bundle moves across one ring link to the next stop. -/
  | ringHop (i : Nat)
  /-- RING_EXTRACT (R111): An EXTRACT entry copies a passing local bundle into a loom-receive bundle. -/
  | ringExtract (gb entry : Nat)
  /-- WEFT_GATEWAY_HANDOFF (R117): The ring gateway removes a weft bundle and hands it to a weft link with its flow and beat number. -/
  | weftGatewayHandoff (i : Nat)
  /-- TAP_FIFO_DRAIN (R328): A tap FIFO entry drains into the staging of the capture units that name it, or is discarded. -/
  | tapFifoDrain (gb : Nat)
  /-- FAIL_STAGING_DRAIN (R345): Fail records leave panel staging for the held area in the hub when it has room. -/
  | failStagingDrain (gb : Nat)
  /-- REED_COMPLETE (R33): The reed reports the attempt complete when every item of R34 is done. -/
  | reedComplete
  /-- COMMIT (R35): The beat commits: banks exchange, the count rises and every held effect is released as one step. -/
  | commit
  /-- FAULT_FLAG (R41): A fault of R38 is flagged for the attempt and the treadle starts to abort it. -/
  | faultFlag (f : Machine.FaultIn)
  /-- ATTEMPT_ABORT (R41): Every heddle has stopped at a pick boundary and the attempt's held effects are discarded. -/
  | attemptAbort
  /-- FIX_COMPLETE (R38): The refetch or shed-group rebuild of a fault completes, or fails. -/
  | fixComplete
  /-- REPAIR_STEP_COMPLETE (R42): A heddle repair or harness migration completes, or fails as a capacity fault. -/
  | repairStepComplete
  /-- STALL_WATCHDOG_EXPIRY (R49): No heddle completes a pick for LIMIT microseconds and a stall is flagged. -/
  | stallWatchdogExpiry
  /-- JOURNAL_SPILL (R129): A full beam or deep journal copies its 32 oldest entries to its HBM spill area. -/
  | journalSpill (gb h : Nat)
  /-- SPILL_READBACK (R130): After commit a beam reads back the beam-journal entries it spilled in that beat. -/
  | spillReadback (gb : Nat)
  /-- DEEP_JOURNAL_HANDOFF (R138): Once every deep read of the beat is served, the hub hands the deep-journal entries to the HBM controllers in order. -/
  | deepJournalHandoff
  /-- LINE_INVALIDATE (R136): After commit the hub sends each beam the blocks that deep writes changed and the beam marks those lines stale. -/
  | lineInvalidate (gb : Nat)
  /-- DEEP_READ_RETURN (R140): A deep read is served from the line buffer, from HBM or from a mailbox bank. -/
  | deepReadReturn (gb h pick : Nat)
  /-- MAILBOX_PORT_L_SERVE (R141): Port L of a mailbox bank serves one loom read or committed write per bank cycle. -/
  | mailboxPortLServe (bank : Nat) (deep : Option (Nat × Nat × Nat)) (rel : Machine.MbxRel)
  /-- MAILBOX_PORT_S_ACCESS (R141): Port S of a mailbox bank serves a shuttle or hub-side access. -/
  | mailboxPortSAccess (mid bank word : Nat) (wr : Option Word) (rel : Machine.MbxRel)
  /-- HBM_OCC_INTERVAL_END (R149): An occupancy interval ends and the busiest pseudo-channel and RATIO are recorded. -/
  | hbmOccIntervalEnd
  /-- START (R171): A START command moves the treadle from ARMED or HALTED to STARTING, after arming and weave checks. -/
  | start (timed : Bool)
  /-- STOP (R171): A STOP command halts at commit, or returns STARTING to its earlier state. -/
  | stop
  /-- CANCEL (R171): A CANCEL command returns STARTING to its earlier state and aborts the START. -/
  | cancel
  /-- HALT_N_LOW (R172): A low level on HALT_N of at least 20 ns is recognised and requests a halt. -/
  | haltNLow
  /-- SLOT_START (R160): The time base reaches a PACED slot start. -/
  | slotStart
  /-- PIN_RESPONSE_TIMEOUT (R168): The release waits on lock-set responses longer than TIMEOUT, PIN_TO is set and ALERT_N asserted. -/
  | pinResponseTimeout
  /-- TIMED_LAUNCH (R175): The time base reaches the time of a timed START or timed warp frame. -/
  | timedLaunch (e : Option Nat)
  /-- PTP_OFFSET_SAMPLE (R179): An offset sample runs the servo, or refuses a jump beyond the limit. -/
  | ptpOffsetSample (e : Word)
  /-- TSYNC_INPUT_EDGE (R176): A rising TSYNC edge is captured and forms an offset sample. -/
  | tsyncInputEdge
  /-- TSYNC_OUTPUT_EDGE (R181): TB reaches PTP_PPS_NEXT, TSYNC rises and PPS_NEXT advances by one second. -/
  | tsyncOutputEdge
  /-- JUMP_ACCEPT (R182): The pending step is applied to TB in one TIME cycle. -/
  | jumpAccept
  /-- JUMP_CLEAR (R182): The pending step is discarded and the servo resumes. -/
  | jumpClear
  /-- HOLDOVER_TIMEOUT (R180): No sample arrives for HOLDOVER seconds and the servo enters holdover. -/
  | holdoverTimeout
  /-- PTP_RX_MESSAGE (R178): A PTP event message is received, time-stamped and placed in a receive descriptor. -/
  | ptpRxMessage (port : Nat) (event : Bool) (frame : List Byte)
  /-- PTP_TX_DESCRIPTOR (R178): A PTP message is transmitted with one-step correction or a two-step stamp. -/
  | ptpTxDescriptor (port : Nat)
  /-- TXTS_POP (R195): A read of PTP_TXTSn_ID takes the oldest transmit time stamp from the FIFO. -/
  | txtsPop (port : Nat)
  /-- QUERY (R302): A peer QUERY from the leader is answered with the requested item. -/
  | query (src tag item : Nat)
  /-- PEER_START (R302): A peer START from the leader starts the member, anchoring its grid on the leader's T. -/
  | peerStart (src tag : Nat) (timed : Bool) (t : Word)
  /-- REFUSE (R302): A peer REFUSE ends a pending START as REFUSED with the leader's reason. -/
  | refuse (reason : Nat)
  /-- HALT_NOTE (R187): A halt notice of another member makes this device halt after its beat in progress. -/
  | haltNote
  /-- SOLO (R188): A SOLO order makes a member run its catch-up beat alone and return to HALTED. -/
  | solo (beat : Nat)
  /-- PEER_REPLY (R479): A member's reply to a peer command reaches the leader, which completes or refuses the weave START. -/
  | peerReply (src cmd tag args : Nat)
  /-- VDD_AON_UP (R437): VDD_AON comes within range, the error log reads 0 and crystal detection starts. -/
  | vddAonUp
  /-- CRYSTAL_DETECT_END (R19): Crystal detection ends, the chosen source takes AON, the AON PLL starts and the tick starts. -/
  | crystalDetectEnd (present : Bool)
  /-- PLL_LOCK (R20): A PLL locks and its domains run. -/
  | pllLock (dom : Nat)
  /-- PLL_LOCK_TIMEOUT (R20): A PLL has not locked within 1 ms, boot event 0x021 is written and bypass or a hold follows. -/
  | pllLockTimeout (dom : Nat)
  /-- PORST_N_FALL (R9): PORST_N falls and the device returns to reset values, pins as R236. -/
  | porstNFall
  /-- PORST_N_RISE (R210): PORST_N rises and the start-up sequence begins. -/
  | porstNRise (straps : Nat)
  /-- CHARTER_READ (R214): The charter copies are read and checked and the valid one is applied. -/
  | charterRead
  /-- REPAIR_APPLY (R428): Hard fuses, field fuse words and shadow entries are applied. -/
  | repairApply
  /-- STARTUP_BIST_COMPLETE (R422): The start-up BIST flow ends and soft repairs are set. -/
  | startupBistComplete (found : List Word)
  /-- HBM_TRAINED (R210): HBM training and clearing end, or a stack fails with event 0x010. -/
  | hbmTrained (failed : Nat)
  /-- WRST_N_FALL (R211): WRST_N falls: GPIO take SAFE, transmitters idle, DONE low, any attempt or load discarded. -/
  | wrstNFall (test : Option (Nat × Nat))
  /-- WRST_N_RISE (R211): WRST_N rises and start-up events 3 to 14 run. -/
  | wrstNRise
  /-- LOAD (R221): A LOAD command starts an image load from a catalogue slot. -/
  | load (slot : Nat)
  /-- ABORT (R239): An ABORT command ends a load ABORTED. -/
  | abort
  /-- LOAD_ENTRY_ATTEMPT (R230): The loader tries one catalogue entry through header, table, sections, footer, relocation and checks. -/
  | loadEntryAttempt (medium : List Byte)
  /-- EMMC_RETRY (R230): An eMMC command fails with a CRC error or timeout and is retried, or fails the entry. -/
  | emmcRetry (r : Machine.EmmcEnd)
  /-- LOAD_COMPLETE (R230): The write step ends, the image is marked valid, the treadle enters ARMED and DONE is released. -/
  | loadComplete (cacheBad : Bool)
  /-- DONE_SEEN_HIGH (R233): DONE is seen high from its configured sources. -/
  | doneSeenHigh
  /-- AUTO_START (R234): After DELAY or at TRD_START_AT, a single device or leader issues a START as OWNER. -/
  | autoStart
  /-- DONE_TIMEOUT (R235): DONE is not seen high within TIMEOUT, event 0x115 is written and ALERT_N asserted. -/
  | doneTimeout
  /-- DONE_FALL (R235): DONE stays low for 1 µs after release, halting a running weave with event 0x116. -/
  | doneFall
  /-- RELOAD_BAY (R241): A RELOAD_BAY command starts the reload of one bay from the image cache or a bay image. -/
  | reloadBay (bay : Nat) (slot : Option Nat)
  /-- ABORT_BAY (R246): An ABORT_BAY command ends a reload before its leave point. -/
  | abortBay
  /-- BAY_STAGED (R243): The bay source is staged and checked, or the reload fails with event 0x122. -/
  | bayStaged (medium : List Byte)
  /-- BAY_WRITE_DONE (R243): The bay's content is copied into the image cache and its loom state and tables written. -/
  | bayWriteDone
  /-- FLASH_READ (R249): A flash READ command returns one word into CHR_FL_DATA. -/
  | flashRead (mid : Nat)
  /-- FLASH_PROGRAM (R249): A flash PROGRAM command programs one word. -/
  | flashProgram (mid : Nat)
  /-- FLASH_ERASE (R249): A flash ERASE command erases one 4 KiB sector. -/
  | flashErase (mid : Nat)
  /-- FLASH_CMD_COMPLETE (R249): A flash command ends, BUSY clears and a failed verify sets ERROR. -/
  | flashCmdComplete (verified : Bool)
  /-- BLOCK_LOCK_GAINED (R252): A receiver gains block lock after 64 valid sync headers. -/
  | blockLockGained (ph : Nat)
  /-- BLOCK_LOCK_LOST (R252): A receiver loses block lock and a fast retrain starts. -/
  | blockLockLost (ph : Nat)
  /-- IDLE_BLOCK_RX (R253): An IDLE control block carries ACK, NAK, status and RX_READY. -/
  | idleBlockRx (ph ack status : Nat) (nak rxReady : Bool)
  /-- TRAIN_BLOCK_RX (R255): A TRAIN block advances the training phases. -/
  | trainBlockRx (ph : Nat) (t : Machine.Train) (lane : Nat) (eye : Bool) (ask : Nat)
  /-- PWR_BLOCK_RX (R253): A PWR control block announces the far end's sleep or asks for a wake. -/
  | pwrBlockRx (ph code : Nat)
  /-- LOOP_BLOCK_RX (R281): A LOOP block asks this end to enter or leave far-end loopback. -/
  | loopBlockRx (lane : Nat) (enter : Bool)
  /-- RESERVED_CTYPE_RX (R253): A reserved control block is ignored and counted as a protocol error. -/
  | reservedCtypeRx (lane : Nat)
  /-- LANE_TRAINING_TIMEOUT (R257): A lane is not UP 30 ms after training starts and goes DOWN. -/
  | laneTrainingTimeout (ph : Nat)
  /-- TRAINING_RETRY_TIMER (R257): Every 100 ms a DOWN lane starts training again. -/
  | trainingRetryTimer (ph : Nat)
  /-- FAST_RETRAIN_TIMEOUT (R258): A fast retrain not UP within 200 µs becomes a full training. -/
  | fastRetrainTimeout (ph : Nat)
  /-- RESP_RX (R274): A RESP frame is accepted and paired with the oldest unanswered DATA frame, or voids frames. -/
  | respRx (lane seq ack status beat bm1 ns : Nat) (nak : Bool) (compare : Nat) (samples : List Word)
  /-- MSG_RX (R284): A received MSG frame enters the receive queue or is dropped when full. -/
  | msgRx (lane seq ack status : Nat) (nak : Bool) (ws : List Word)
  /-- FRAME_CRC_FAIL (R267): A received frame fails its CRC or sequence check and is discarded with NAK. -/
  | frameCrcFail (ph : Nat) (isFrame badCrc : Bool)
  /-- RESEND_TIMEOUT (R269): The oldest unacknowledged frame exceeds TIMEOUT and frames are resent. -/
  | resendTimeout (lane : Nat)
  /-- HOLD_FRAME_PERIOD (R272): A HOLD_PERIOD elapses while no beat runs and a HOLD frame is generated. -/
  | holdFramePeriod
  /-- LANE_POWER_REQUEST (R283): A write of WRP_LANE_PWR.REQ requests a lane power state, or is refused. -/
  | lanePowerRequest (lane req : Nat)
  /-- LOOPBACK_REQUEST (R281): A write of WRP_LANE_LB.MODE enters or leaves a loopback, or is refused. -/
  | loopbackRequest (lane mode : Nat) (prbs : Bool)
  /-- SEND (R284): A SEND queues a MSG frame on a lane, now or at a timed launch. -/
  | send (lane len : Nat) (timed : Bool)
  /-- MSG_ABORT (R284): An ABORT ends a queued message before its first bit, or is refused. -/
  | msgAbort
  /-- MSG_DATA_WRITE (R284): A write of WRP_MSG_DATA stores a payload word and advances the pointer. -/
  | msgDataWrite (w : Word)
  /-- POP (R290): A write of POP removes the oldest received message. -/
  | pop
  /-- RXMSG_DATA_READ (R290): A read of WRP_RXMSG_DATA returns the next payload word of the oldest message. -/
  | rxmsgDataRead
  /-- LINK_UP (R292): All four weft lanes are UP and aligned, and event 0x320 is written. -/
  | linkUp (link : Nat) (full : Bool)
  /-- LINK_DOWN (R292): A weft lane is not UP and the link goes DOWN with event 0x321. -/
  | linkDown (link : Nat)
  /-- ALIGN_BLOCK_RX (R292): An ALIGN block deskews the four lanes, and a loss of alignment starts a retrain. -/
  | alignBlockRx (link : Nat) (lost : Bool)
  /-- BUNDLE_FRAME_RX (R296): A BUNDLE frame's bundles are placed into weft-receive staging. -/
  | bundleFrameRx (link seq ack : Nat) (nak : Bool) (beat flow0 : Nat) (vals : List Nat)
  /-- MARK_FRAME_RX (R297): A MARK frame delivers a barrier, commit marker or token and is forwarded once. -/
  | markFrameRx (link seq ack : Nat) (nak barrier commitMark token : Bool) (origin beat : Nat) (tb : Word)
  /-- PEER_FRAME_RX (R303): A PEER frame is acted on when allowed, or forwarded and ignored with event 0x325. -/
  | peerFrameRx (link seq ack : Nat) (nak : Bool) (src dst : Nat) (bcast : Bool) (cmd tag args : Nat)
  /-- STATUS_FRAME_RX (R300): A STATUS frame puts the link in use or marks it MISMATCHED. -/
  | statusFrameRx (link seq ack : Nat) (nak : Bool) (sys pos role size topo far : Nat)
  /-- DONE_FRAME_RX (R301): A DONE frame updates the DONE mirror of its origin and is forwarded. -/
  | doneFrameRx (link seq ack : Nat) (nak : Bool) (origin : Nat) (released : Bool) (gen : Nat)
  /-- STATUS_SEND_TIMER (R300): Every 100 µs each end sends a STATUS frame. -/
  | statusSendTimer
  /-- DONE_REPEAT_TIMER (R301): Every 100 µs each device repeats its DONE frame. -/
  | doneRepeatTimer
  /-- WEFT_RESEND_TIMEOUT (R295): A weft frame is unacknowledged after TIMEOUT and is resent, or the link retrains. -/
  | weftResendTimeout (link : Nat)
  /-- LINK_LOST_TIMEOUT (R304): A required link is lost for LOST_TO while the treadle waits, and the device halts. -/
  | linkLostTimeout (link : Nat)
  /-- DATAGRAM_RX (R308): A loom control datagram is filtered, accepted into the queue or dropped. -/
  | datagramRx (port ip udp destIp destUdp : Nat) (sumOk : Bool) (data : List Byte)
  /-- INFO (R311): An INFO request returns identity and state. -/
  | info (port : Nat)
  /-- REG_READ (R311): A REG_READ request returns register values. -/
  | regRead (port : Nat)
  /-- REG_WRITE (R312): A REG_WRITE request executes register writes by right until the first refusal. -/
  | regWrite (port : Nat)
  /-- MEM_READ (R311): A MEM_READ request returns memory through the Ethernet agent. -/
  | memRead (port : Nat)
  /-- MEM_WRITE (R311): A MEM_WRITE request writes memory through the Ethernet agent. -/
  | memWrite (port : Nat)
  /-- LOG_READ (R311): A LOG_READ request returns error-log entries. -/
  | logRead (port : Nat)
  /-- SUBSCRIBE (R314): A SUBSCRIBE request sets or cancels an event subscription. -/
  | subscribe (port : Nat)
  /-- MGT_READ (R317): A management-port READ returns words as OWNER. -/
  | mgtRead (f : Machine.MgtFrame) (addr n : Nat)
  /-- MGT_WRITE (R317): A management-port WRITE writes words as OWNER. -/
  | mgtWrite (f : Machine.MgtFrame) (addr : Nat) (ws : List Word)
  /-- MGT_STATUS (R318): A management-port STATUS returns the always-on status words. -/
  | mgtStatus (q : Machine.MgtStatusReq)
  /-- UNLOCK_SET (R319): A write of MGT_LOCK.UNLOCK by the management port or JTAG opens RWL fields. -/
  | unlockSet (jtag : Bool) (timeout : Nat)
  /-- UNLOCK_TIMEOUT (R319): No OWNER request for TIMEOUT seconds clears UNLOCK with event 0x841. -/
  | unlockTimeout
  /-- ARM (R332): An ARM command arms a capture unit. -/
  | arm (u : Nat)
  /-- CAP_STOP (R340): A STOP command ends a capture DONE or ABORTED. -/
  | capStop (u : Nat)
  /-- TRIGGER (R334): A TRIGGER command marks a HOST trigger candidate. -/
  | trigger (u : Nat)
  /-- RECORD_COMPLETE (R329): A capture record is complete after its commit and responses, and enters the write queue. -/
  | recordComplete (u : Nat)
  /-- CAPTURE_RSP_TIMEOUT (R329): A response is missing RSP_TO after commit and the record completes with MISSING. -/
  | captureRspTimeout (u : Nat)
  /-- RECORD_WRITTEN (R331): Every write response of a record arrives and CAP_WPTR advances, possibly ending the capture. -/
  | recordWritten (u : Nat)
  /-- OVERFLOW_MARK (R341): The write queue has drained and an OVERFLOW MARK record is written. -/
  | overflowMark (u : Nat)
  /-- FAIL_MAP_OR (R344): An applying fail record is ORed into its map word by one read-modify-write. -/
  | failMapOr
  /-- CLEAR (R346): A fail-map CLEAR takes effect at the next commit and empties the map. -/
  | clear (mid : Nat)
  /-- CLEAR_COMPLETE (R346): The map clear ends, counters restart and event 0x613 is written. -/
  | clearComplete (map : Nat)
  /-- APPLIED_READ (R351): A read of FMP_APPLIED_LO latches FMP_APPLIED_HI. -/
  | appliedRead
  /-- BEAT_COUNT_READ (R59): A read of LOM_BEAT_LO latches LOM_BEAT_HI. -/
  | beatCountRead
  /-- SUM (R356): gD = gA + gB. -/
  | sum (s : Nat)
  /-- DIF (R356): gD = gA − gB. -/
  | dif (s : Nat)
  /-- CONJ (R356): gD = gA AND gB. -/
  | conj (s : Nat)
  /-- DISJ (R356): gD = gA OR gB. -/
  | disj (s : Nat)
  /-- EXCL (R356): gD = gA XOR gB. -/
  | excl (s : Nat)
  /-- SHL (R356): gD = gA shifted left by gB[5:0]. -/
  | shl (s : Nat)
  /-- SHR (R356): gD = gA shifted right logically by gB[5:0]. -/
  | shr (s : Nat)
  /-- SHA (R356): gD = gA shifted right arithmetically by gB[5:0]. -/
  | sha (s : Nat)
  /-- LESS (R356): gD = 1 if gA < gB signed. -/
  | less (s : Nat)
  /-- LESSU (R356): gD = 1 if gA < gB unsigned. -/
  | lessu (s : Nat)
  /-- PROD (R356): gD = low 64 bits of gA × gB. -/
  | prod (s : Nat)
  /-- PRODHS (R356): gD = high 64 bits of the signed product. -/
  | prodhs (s : Nat)
  /-- PRODHU (R356): gD = high 64 bits of the unsigned product. -/
  | prodhu (s : Nat)
  /-- SUMK (R356): gD = gA + K. -/
  | sumk (s : Nat)
  /-- CONJK (R356): gD = gA AND zero-extended K. -/
  | conjk (s : Nat)
  /-- DISJK (R356): gD = gA OR zero-extended K. -/
  | disjk (s : Nat)
  /-- EXCLK (R356): gD = gA XOR zero-extended K. -/
  | exclk (s : Nat)
  /-- LESSK (R356): gD = 1 if gA < K signed. -/
  | lessk (s : Nat)
  /-- TOPK (R356): gD = K << 17. -/
  | topk (s : Nat)
  /-- GET (R356): A shuttle loads memory into a register. -/
  | get (s : Nat)
  /-- STO (R356): A shuttle stores the low bytes of a register to memory. -/
  | sto (s : Nat)
  /-- IF_EQ (R356): Branch if gA = gB. -/
  | ifeq (s : Nat)
  /-- IF_NE (R356): Branch if gA ≠ gB. -/
  | ifne (s : Nat)
  /-- IF_LT (R356): Branch if gA < gB signed. -/
  | iflt (s : Nat)
  /-- IF_GE (R356): Branch if gA ≥ gB signed. -/
  | ifge (s : Nat)
  /-- IF_LO (R356): Branch if gA < gB unsigned. -/
  | iflo (s : Nat)
  /-- IF_HS (R356): Branch if gA ≥ gB unsigned. -/
  | ifhs (s : Nat)
  /-- LEAP (R356): PC-relative jump with optional link. -/
  | leap (s : Nat)
  /-- VIA (R356): Indirect jump to gA + K with link. -/
  | via (s : Nat)
  /-- MACD (R359): Dual 16-bit multiply-accumulate of two tablet words into one accumulator. -/
  | macd (s : Nat)
  /-- MACP (R359): Dual multiply-accumulate into an accumulator pair. -/
  | macp (s : Nat)
  /-- EXT (R360): Round, shift and narrow an accumulator into a register. -/
  | ext (s : Nat)
  /-- CLRA (R356): Clear an accumulator. -/
  | clra (s : Nat)
  /-- MVA (R356): Move an accumulator to a register. -/
  | mva (s : Nat)
  /-- MVTA (R356): Move a register to an accumulator. -/
  | mvta (s : Nat)
  /-- LDO (R356): Load an offset register. -/
  | ldo (s : Nat)
  /-- RDCW (R358): Read a control word. -/
  | rdcw (s : Nat)
  /-- WRCW (R358): Write a control word, trapping PRIV in KERNEL except MST. -/
  | wrcw (s : Nat)
  /-- FENCE (R361): Drain the write buffer and write back dirty lines. -/
  | fence (s : Nat)
  /-- CLEAN (R361): Write back dirty lines of a range. -/
  | clean (s : Nat)
  /-- INVAL (R361): Clean and discard data-cache lines of a range. -/
  | inval (s : Nat)
  /-- IINV (R361): Discard instruction-cache lines of a range. -/
  | iinv (s : Nat)
  /-- POST (R371): A shuttle posts a work-item descriptor to the store. -/
  | post (s : Nat)
  /-- DONE (R373): A shuttle completes its item: visibility, counter, notify, chain, free. -/
  | done (s : Nat)
  /-- WAIT (R361): A shuttle sleeps until its event flag or a time. -/
  | wait (s : Nat)
  /-- TRAP (R362): The TRAP instruction takes a trap with cause 7. -/
  | trap (s : Nat)
  /-- UNTRAP (R362): Return from a trap to EPC with the prior privilege. -/
  | untrap (s : Nat)
  /-- WAIT_WAKE (R361): A WAITing shuttle wakes on its event flag or the time base. -/
  | waitWake (s : Nat)
  /-- ITEM_DISPATCH (R372): The scheduler dispatches a queued item to a free shuttle. -/
  | itemDispatch
  /-- AFFINITY_AGE_EXPIRY (R372): An affine item waits AGE ns and may go to any eligible free shuttle. -/
  | affinityAgeExpiry (level : Nat)
  /-- RUN_LIMIT (R371): A running item exceeds RUN_LIMIT and traps with event 0x704. -/
  | runLimit (s : Nat)
  /-- TRIGGER_FIRING (R374): A trigger-table source fires, posting its template or adding to FIRINGS. -/
  | triggerFiring
  /-- HELD_POST (R373): A store entry frees and a held chain or pending firings are posted. -/
  | heldPost
  /-- WSC_CANCEL (R375): CANCEL removes every queued item of one CLASS. -/
  | wscCancel (cls : Nat)
  /-- WSC_POST (R371): A write of WSC_POST_CMD posts the descriptor written to WSC_POST_DATA. -/
  | wscPost (mid : Nat)
  /-- WSC_POST_DATA_WRITE (R379): A write of WSC_POST_DATA stores the next descriptor word. -/
  | wscPostDataWrite (w : Word)
  /-- HANDOVER (R368): A write of CLM_BANK_OWNER hands a bank to a new owner, or is refused. -/
  | handover (mid bank : Nat) (v : Word)
  /-- READ (R385): A READ flit reaches its target, passes the gatekeeper and is served. -/
  | read (q : Machine.HubReq) (mask : BitVec 64)
  /-- WRITE_L (R385): A full-line write flit is checked and applied. -/
  | writeL (q : Machine.HubReq) (data : BitVec 512)
  /-- WRITE_M (R385): A masked half-line write flit is checked and applied. -/
  | writeM (q : Machine.HubReq) (half : Bool) (mask : BitVec 32) (data : BitVec 256)
  /-- OR (R385): An OR flit is checked and applied atomically to one word. -/
  | or (q : Machine.HubReq) (word : Nat) (bits : Word)
  /-- HUB_RESPONSE (R387): A response flit returns to its requester, freeing its credit. -/
  | hubResponse (ring src dst tag : Nat)
  /-- LINK_PARITY_RESEND (R407): A flit fails link parity and is resent from the link buffer. -/
  | linkParityResend (ring dir node : Nat) (again : Bool)
  /-- RING_LINK_FAIL (R407): A ring link fails one flit 8 times, the weave halts and the hub stops. -/
  | ringLinkFail (ring dir node : Nat)
  /-- GK_SEL_WRITE (R410): A write of GK_SEL loads the staging set from the selected entry. -/
  | gkSelWrite (mid : Nat) (v : Word)
  /-- GK_ENT0_WRITE (R410): A write of GK_ENT0 applies the entry with the staged words as one unit. -/
  | gkEnt0Write (mid : Nat) (v : Word)
  /-- GO (R394): A GO starts a bobbin channel at its first descriptor. -/
  | go (mid c : Nat)
  /-- BOBBIN_ABORT (R402): An ABORT stops a bobbin channel and ends it ABORTED. -/
  | bobbinAbort (c : Nat)
  /-- DESCRIPTOR_FETCH (R396): A bobbin descriptor arrives and is checked, or the channel halts with cause 3. -/
  | descriptorFetch (c : Nat)
  /-- BOBBIN_RESPONSE (R401): A bobbin access response arrives, advancing, retrying, halting or ending the chain DONE. -/
  | bobbinResponse (r : Machine.BobAnswer)
  /-- HBM_REFRESH (R405): A controller issues a per-bank refresh. -/
  | hbmRefresh (stack : Nat) (hot : Bool) (parityErrors : Nat)
  /-- HBM_SCRUB_READ (R406): Patrol scrub reads one HBM granule and writes back or logs it. -/
  | hbmScrubRead (addr : Nat) (u : Machine.Upset) (last : Bool)
  /-- ECC_SCRUB_READ (R418): Patrol scrub reads one on-chip word and corrects, rewrites or logs it. -/
  | eccScrubRead (w : Machine.ScrubWord) (u : Machine.Upset)
  /-- INJECT (R420): An INJECT flips stored bits of one jacquard word. -/
  | inject (mid : Nat)
  /-- RUN (R425): A BIST RUN starts on-demand self-test. -/
  | run (mid targets : Nat)
  /-- BIST_ABORT (R425): An ABORT ends an on-demand BIST run. -/
  | bistAbort
  /-- BIST_RUN_COMPLETE (R425): On-demand BIST ends and clears every memory it touched. -/
  | bistRunComplete (found : List Word)
  /-- BURN_DATA (R429): Burns FUS_DATA[30:0] into a field fuse word. -/
  | burnData (mid : Nat)
  /-- BURN_VALID (R429): Burns the VALID bit of a field fuse word. -/
  | burnValid (mid : Nat)
  /-- SHADOW_APPEND (R430): Writes FUS_DATA into the first free shadow entry. -/
  | shadowAppend (mid : Nat)
  /-- SHADOW_ERASE (R430): Erases the whole repair-fuse shadow. -/
  | shadowErase (mid : Nat)
  /-- FUSE_READ (R446): A READ returns a fuse word in FUS_READ. -/
  | fuseRead (mid : Nat)
  /-- FUSE_CMD_COMPLETE (R429): A fuse or shadow command ends, with event 0xB04 or 0xB05. -/
  | fuseCmdComplete (verified : Bool)
  /-- REPAIR_RECORD (R431): A new repair is appended to the shadow or burned in the background. -/
  | repairRecord (verified : Bool)
  /-- ROLL_PRELOAD_DONE (R432): A spare is loaded with the candidate's streams and the beam asks for a swap. -/
  | rollPreloadDone (pgb : Nat)
  /-- ROLL_SWAP_DONE (R432): Shed and check words are copied and the harness map points at the spare. -/
  | rollSwapDone (pgb : Nat)
  /-- ROLL_SLOT_TEST_DONE (R432): The retired slot's test ends and it becomes a spare or is marked bad. -/
  | rollSlotTestDone (pgb : Nat) (found : List Word)
  /-- TMT_REGION_TEST (R435): Transparent test saves, marches and restores one region. -/
  | tmtRegionTest (cls addr : Nat) (faulty : Bool)
  /-- REPLACE_END (R436): The re-place after a capacity fault ends restarted, waiting or with no fit. -/
  | replaceEnd (hits : List Machine.Hit)
  /-- LOG_ENTRY_WRITE (R439): The log writes one queued entry into its next slot and sends event messages. -/
  | logEntryWrite
  /-- LOG_CLEAR (R440): A CLEAR empties the log slots and counters. -/
  | logClear (mid : Nat)
  /-- DEV_LOW_REQUEST (R453): PWR_DEV_REQ = LOW starts entry to device LOW. -/
  | devLowRequest (mid : Nat)
  /-- LOW_ENTRY_DONE (R453): HBM enters self-refresh and DEV = LOW. -/
  | lowEntryDone
  /-- DEV_RUN_REQUEST (R454): PWR_DEV_REQ = RUN starts exit from LOW. -/
  | devRunRequest (mid : Nat)
  /-- LOW_EXIT_DONE (R454): Exit from LOW ends and DEV = RUN. -/
  | lowExitDone
  /-- DEV_OFF_REQUEST (R455): PWR_DEV_REQ = OFF puts the device in OFF. -/
  | devOffRequest (mid : Nat)
  /-- PANEL_SLEEP_REQUEST (R449): PWR_PANEL_REQ asks a panel for SLEEP. -/
  | panelSleepRequest (mid : Nat)
  /-- PANEL_OFF_REQUEST (R449): PWR_PANEL_REQ asks a panel for OFF. -/
  | panelOffRequest (mid : Nat)
  /-- PANEL_ACTIVE_REQUEST (R449): PWR_PANEL_REQ returns a panel to RUN and IDLE, waking it. -/
  | panelActiveRequest (mid : Nat) (idle : Bool)
  /-- PANEL_SLEEP_ENTERED (R451): The panel's committed state is saved and its logic switched off. -/
  | panelSleepEntered (panel : Nat)
  /-- PANEL_WAKE_DONE (R451): The panel wakes and its state is restored, or the image is dropped. -/
  | panelWakeDone (panel : Nat) (cacheBad : Bool)
  /-- PANEL_WAKE_TIMEOUT (R449): VDD_PANEL is not in range 10 ms after a wake and the panel's slots are unusable. -/
  | panelWakeTimeout (panel : Nat)
  /-- ADAPT_TICK (R456): Every 10 µs a panel measures its tp and steps its voltage code. -/
  | adaptTick (panel tp : Nat)
  /-- WATCH_SAMPLE (R459): Every 1 ms the watch unit samples sources, updates filters and evaluates rules. -/
  | watchSample (xs : List Nat)
  /-- UNPARK (R461): WCH_CMD.UNPARK ends a PARK. -/
  | unpark (mid : Nat)
  /-- WCH_RULE_HI_WRITE (R461): A write of WCH_RULE_HI applies both rule words, clearing a fired rule. -/
  | wchRuleHiWrite (mid : Nat) (v : Word)
  /-- TRACE_PACKET (R465): A shuttle or cluster event emits a trace packet into its cluster FIFO. -/
  | tracePacket
  /-- TRACE_SINK_WRITE (R467): Trace packets drain to the HBM buffer or an Ethernet datagram. -/
  | traceSinkWrite (cs : List Nat)
  /-- REGISTER_WRITE (R6): A register write with no behaviour of its own is applied under its access code, or refused. -/
  | registerWrite (mid offset : Nat) (v : Word)
  /-- HALT_N_HIGH (R172): HALT_N returns high, so the treadle may release beats again and a START is no longer refused with reason 5. -/
  | haltNHigh
  /-- VDD_AON_DOWN (R437): VDD_AON leaves its range, the error log and always-on state are lost and the AON domain stops. -/
  | vddAonDown
  /-- ETH_LINK_STATE_CHANGE (R306): An Ethernet port's link comes up or goes down after auto-negotiation and training, changing ETH_PORT_STATUS.UP. -/
  | ethLinkStateChange (port : Nat) (up : Bool) (fec : Nat)
  /-- ETHERNET_FRAME_RX (R306): An Ethernet frame that is neither a loom control datagram nor a PTP message arrives: ARP and ICMP echo are answered in hardware, PAUSE is obeyed, others are dropped and counted. -/
  | ethernetFrameRx (port : Nat) (f : Machine.EthFrame)
  /-- JTAG_ACCESS (R320): A request arrives through the JTAG TAP and is accepted as an OWNER command when JTAG holds OWNER authority. -/
  | jtagAccess (op addr n : Nat) (ws : List Word)
  /-- ILLEGAL_INSTRUCTION (R355): A shuttle executes a word with a reserved major code, sub-code or field, or a non-zero bit marked 0, and traps with cause ILLEGAL. -/
  | illegalInstruction (s : Nat)
  /-- CLM_STARVE_LIMIT (R369): A non-shuttle request to a FULL cluster's bank waits more than CLM_STARVE_CFG.LIMIT cycles and event 0x707 is written once. -/
  | clmStarveLimit (cl bank : Nat)
  /-- HUB_MON_INTERVAL_END (R409): An interval of 65,536 HUB cycles ends and HUB_MON_CNT takes the flit count of the selected link. -/
  | hubMonIntervalEnd (flits : Nat)
  deriving DecidableEq, Repr

end Sys2Proof
end

