-- ==== Sys2Proof/Decode.lean ====
section
/-!
DEFINITION. The command that a word spells by the table's bits. The table gives no row bits: commands are operations of the
block's ports, pins and engines, and no word spells one.
-/

namespace Sys2Proof

/-- No row of spec/opcode_table.json has bits. -/
def decodeTableWord (_nbits _w : Nat) : Option Instr := none

end Sys2Proof
end

