-- ==== Sys2Proof/Config.lean ====
section
/-!
DEFINITION. What one module fixes and the spec leaves open, as constants with no body: nothing proved here can
depend on their values (assumption log 2).
-/

namespace Sys2Proof

/-- 14 R442: STEP_ID.STEP is 0 for A1; any other value of this constant stands for B0 (1). -/
opaque Config.stepRaw : Nat

/-- 14 R442: FUS_UID_HI:FUS_UID_LO, fused at manufacture. -/
opaque Config.uid : BitVec 64

/-- 15 R459: the panel whose temperature thermal sensor i measures, 0 to 3; any other value: none. The spec gives no
assignment. -/
opaque Config.sensorPanel : Nat → Nat

/-- Free bits: the choice of old or new byte that 05 R143, 13 R397 and 14 R435 leave open. -/
opaque Config.freeBit : Nat → Bool

/-- Free words: a value the spec leaves open and bounds only by R3 (00 R3). -/
opaque Config.freeWord : Nat → BitVec 32

/-- 14 R442: the stepping present, 0 A1, 1 B0. -/
def Config.step : Nat := if Config.stepRaw = 0 then 0 else 1

end Sys2Proof
end

