-- ==== Sys2Proof/Machine/StCap.lean ====
section
/-!
DEFINITION. The state of the acquisition units and of the fail-map unit (11), as far as no register holds it.
-/

namespace Sys2Proof.Machine

/-- A measurement sample taken by a stream, after deskew (11 R337). -/
structure Sample where
  stream : Nat
  cycle : Nat
  kind : Nat
  ovr : Bool
  /-- 16 bits -/
  val : Nat
  deriving DecidableEq, Repr

/-- A record of a committed beat that is not complete (11 R329). -/
structure CapRec where
  beat : Nat
  /-- TB at the commit (11 R330) -/
  tb : Word
  /-- probe bits -/
  bits : Nat
  /-- physical lanes whose response is awaited -/
  waits : List Nat
  missing : Bool
  /-- the first lane of a missing or void response (11 R348) -/
  missLane : Nat
  bayout : Bool
  samples : List Sample
  deriving DecidableEq, Repr

/-- The values of one stream in an interval (11 R338). -/
structure MinMax where
  mn : Nat
  mx : Nat
  cnt : Nat
  deriving DecidableEq, Repr

/-- An acquisition unit (11). Its configuration, state and status are in its registers. -/
structure CapUnit where
  /-- records not complete, oldest first -/
  pend : List CapRec
  /-- the write queue: beat and bytes of each record, oldest first (11 R341) -/
  queue : List (Nat × List Byte)
  /-- bytes of the records made since the arm (11 R333) -/
  made : Nat
  /-- records made since the arm (11 R330) -/
  seq : Nat
  /-- probe window of the previous record (11 R334) -/
  prev : Option Nat
  /-- candidates that met the condition (11 R334) -/
  hits : Nat
  /-- a TRIGGER command was accepted since the previous candidate (11 R334) -/
  host : Bool
  /-- bytes of the records after the trigger record (11 R336) -/
  post : Nat
  /-- the record that ends the capture is in the write queue (11 R336) -/
  closing : Bool
  /-- an OVERFLOW MARK is owed: first beat not recorded, records lost (11 R341) -/
  mark : Option (Nat × Nat)
  /-- event 0x605 has been written in this arm (11 R329) -/
  missed : Bool
  /-- first beat after the arm (11 R338) -/
  first : Option Nat
  /-- the interval in progress: values by stream, flags MISSING, BAYOUT, OVR (11 R338) -/
  red : SMap MinMax
  redMissing : Bool
  redBayout : Bool
  redOvr : Bool
  deriving DecidableEq, Repr

/-- A unit not armed. -/
def CapUnit.empty : CapUnit :=
  { pend := [], queue := [], made := 0, seq := 0, prev := none, hits := 0, host := false, post := 0, closing := false,
    mark := none, missed := false, first := none, red := [], redMissing := false, redBayout := false, redOvr := false }

/-- The acquisition units and the fail-map unit. -/
structure Cap where
  units : SMap CapUnit
  /-- probe entries of the image (11 R327) -/
  probes : List Word64
  /-- deskew table: key 32 * physical lane + channel, 16 bits (11 R339) -/
  deskew : SMap Nat
  /-- committed fail records whose OR has not completed, in the order of 11 R345 -/
  applying : List FailRec
  /-- maps whose CLEAR waits for the next commit (11 R346) -/
  clearPend : List Nat
  /-- maps being cleared: key map, 1 + first beat whose records wait (11 R346) -/
  clearing : SMap Nat
  /-- maps that have written event 0x612 since the load (11 R343) -/
  ranged : SMap Bool
  /-- since an entry to device LOW no beat has committed: no record is made or written (16 R476) -/
  quiet : Bool
  deriving DecidableEq, Repr

/-- The capture side at reset. -/
def Cap.empty : Cap :=
  { units := [], probes := [], deskew := [], applying := [], clearPend := [], clearing := [], ranged := [], quiet := false }

end Sys2Proof.Machine
end

