-- ==== Sys2Proof/Machine/StHub.lean ====
section
/-!
DEFINITION. The state of the hub die (12, 13): shuttles, work scheduler, hub rings, gatekeepers, bobbin channels; and of
trace (15 R463 to R467), as far as no register holds it.
-/

namespace Sys2Proof.Machine

/-- A work item (12 R370), queued or running. -/
structure Item where
  /-- index in the descriptor store -/
  idx : Nat
  /-- the 32 bytes of its descriptor, little-endian -/
  desc : BitVec 256
  /-- firings of its trigger entry (R374) -/
  firings : Nat
  /-- trigger entry that posted it -/
  trig : Option Nat
  /-- it has waited AGE for its affine shuttle (R372) -/
  aged : Bool
  deriving DecidableEq, Repr

/-- A line of a shuttle's cache (12 R363): 64 bytes as a little-endian number, and its dirty bytes. -/
structure CLine where
  line : Nat
  data : BitVec 512
  dirty : BitVec 64
  /-- instruction cache: it holds an uncorrectable word (12 R366) -/
  bad : Bool
  deriving DecidableEq, Repr

/-- An entry of a shuttle's write buffer (12 R363): up to 64 bytes of one line by rising address. -/
structure WbEnt where
  /-- first address of the store or write-back -/
  addr : Nat
  bytes : List (Nat × Byte)
  /-- the store presented FIRMWARE (R353) -/
  fw : Bool
  deriving DecidableEq, Repr

/-- A shuttle (12 R352, R358, R363). Its counters and last trap are in its registers. -/
structure Shuttle where
  /-- g1 to g31 -/
  g : SMap (BitVec 64)
  pc : BitVec 64
  /-- A0 to A3, O0 to O7 -/
  acc : SMap (BitVec 40)
  ofs : SMap (BitVec 18)
  /-- FIRMWARE; and PRIOR (CW 0) -/
  priv : Bool
  prior : Bool
  /-- CW 1 to CW 4 -/
  tvec : BitVec 64
  epc : BitVec 64
  cause : BitVec 64
  tval : BitVec 64
  /-- CW 5 and CW 6 -/
  cwItem : BitVec 64
  cwClass : BitVec 64
  /-- CW 7 counts from here: the cycle count at the dispatch, less what a write has put into it (R358) -/
  cyc0 : BitVec 64
  /-- CW 8, 10 are computed; CW 9: OVF bits; CW 11: the event flag -/
  ovf : BitVec 4
  evt : Bool
  /-- the running item -/
  item : Option Item
  /-- a trap has been taken whose handler has executed no instruction (R362) -/
  fresh : Bool
  /-- in a handler (R379 STATE 4) -/
  inTrap : Bool
  /-- WAIT sleeps with this operand: until that time unless it is 0 (R361) -/
  wait : Option (BitVec 64)
  /-- the SLEEP packet of the sleep is emitted (15 R466) -/
  slept : Bool
  /-- trace hides the shuttle (15 R464) -/
  hidden : Bool
  /-- cached lines in order of filling; data cache and instruction cache (R363) -/
  dcache : List CLine
  icache : List CLine
  /-- the write buffer, oldest entry first: at most 8 (R363) -/
  wbuf : List WbEnt
  deriving DecidableEq, Repr

/-- A shuttle at reset: free, KERNEL. -/
def Shuttle.empty : Shuttle :=
  { g := [], pc := 0, acc := [], ofs := [], priv := false, prior := false, tvec := 0, epc := 0, cause := 0, tval := 0,
    cwItem := 0, cwClass := 0, cyc0 := 0, ovf := 0, evt := false, item := none, fresh := false, inTrap := false, wait := none, slept := false, hidden := false,
    dcache := [], icache := [], wbuf := [] }

/-- The work scheduler (12 R370 to R375). -/
structure Sched where
  /-- queued items in order of posting -/
  store : List Item
  /-- chains that found the store full (R373) -/
  held : List (BitVec 256)
  /-- templates: key 0 to 255 -/
  templates : SMap (BitVec 256)
  /-- words written to WSC_POST_DATA since the last WSC_POST_CMD (R379) -/
  post : List Word
  /-- shuttle that last completed an item of a class, plus 1 (R372) -/
  affine : SMap Nat
  /-- trigger entries whose sources have fired and that have not been acted on, oldest first (R374) -/
  fired : List Nat
  deriving DecidableEq, Repr

/-- An empty scheduler. -/
def Sched.empty : Sched := { store := [], held := [], templates := [], post := [], affine := [], fired := [] }

/-- A response on its way (13 R384, R385). -/
structure HubRsp where
  ring : Nat
  /-- requesting stop -/
  src : Nat
  /-- target stop -/
  dst : Nat
  tag : Nat
  typ : Nat
  status : Nat
  urg : Nat
  payload : BitVec 512
  deriving DecidableEq, Repr

/-- Flits that the links moved in the last completed interval (13 R409): those of the link then selected, counted, and those of the others,
free values taken from the free counter on. -/
structure LinkMon where
  link : Nat
  flits : Nat
  ctr : Nat
  deriving DecidableEq, Repr

/-- The hub rings and gatekeepers (13 R383 to R392). -/
structure Hub where
  /-- responses not yet taken by their requesters: each holds a credit and a response slot (R387) -/
  rsps : List HubRsp
  /-- flits that failed on a link in a row: key (2 * ring + direction) * 32 + stop (R407) -/
  fails : SMap Nat
  /-- a link has failed: no stop injects (R407) -/
  stopped : Bool
  /-- staging set of the GK_ block: words 1 to 3 (R410) -/
  stage1 : Word
  stage2 : Word
  stage3 : Word
  /-- gatekeeper entries found uncorrectable: 64 * table + entry (14 R417) -/
  gkBad : List Nat
  /-- flipped stored bits of gatekeeper words: key 4 * (64 * table + entry) + word (14 R417) -/
  gkFlip : SMap (BitVec 39)
  /-- time in ns of the last log entry, plus 1: key (4096 * stop + MID) * 8 + table (R392) -/
  logged : SMap Nat
  /-- starvation event 0x707 has been written since CLM_STARVE_CNT was cleared (12 R369) -/
  starved : Bool
  /-- none: no interval has ended (R409) -/
  mon : Option LinkMon
  deriving DecidableEq, Repr

/-- The hub at reset. -/
def Hub.empty : Hub :=
  { rsps := [], fails := [], stopped := false, stage1 := 0, stage2 := 0xFFFFFFFF, stage3 := 0xF0, gkBad := [], gkFlip := [], logged := [], starved := false,
    mon := none }

/-- A failure for which a channel halts: cause, STATUS and address (13 R401). -/
structure BobFail where
  cause : Nat
  status : Nat
  addr : Nat
  deriving DecidableEq, Repr

/-- A bobbin channel (13 R394 to R402). Its state and status are in its registers. -/
structure Bob where
  /-- address of the descriptor being fetched or run -/
  addr : Nat
  /-- its 64 bytes -/
  desc : BitVec 512
  /-- the channel presents FIRMWARE -/
  priv : Bool
  /-- source stream read so far -/
  inp : List Byte
  /-- destination stream bytes whose writes are acknowledged -/
  outPos : Nat
  /-- retries of the present read or fetch, and of the present write -/
  retries : Nat
  wretries : Nat
  /-- tokens left in the channel's bucket, at most 4,096 (R399) -/
  tokens : Nat
  /-- the failure for which a channel in DRAIN halts; none: it drains for an ABORT (R401, R402) -/
  halt : Option BobFail
  deriving DecidableEq, Repr

/-- An idle channel. -/
def Bob.empty : Bob := { addr := 0, desc := 0, priv := false, inp := [], outPos := 0, retries := 0, wretries := 0, tokens := 0, halt := none }

/-- Trace (15 R463 to R467). A packet is held as its 16 bytes, little-endian, with SEQ 0. -/
structure Trc where
  /-- packets of events that have happened and are not in their FIFO: cluster, main path, packet -/
  owed : List (Nat × Bool × BitVec 128)
  /-- cluster FIFOs -/
  fifo : SMap (List (BitVec 128))
  /-- packets lost since the cluster's last OVERFLOW -/
  lost : SMap Nat
  /-- SEQ of the HBM sink and of the Ethernet sink, SEQ of the datagrams -/
  seqHbm : Nat
  seqEth : Nat
  seqGram : Nat
  deriving DecidableEq, Repr

/-- No trace. -/
def Trc.empty : Trc := { owed := [], fifo := [], lost := [], seqHbm := 0, seqEth := 0, seqGram := 0 }

/-- The hub die. -/
structure HubDie where
  shuttles : SMap Shuttle
  sched : Sched
  hub : Hub
  bobs : SMap Bob
  trc : Trc
  deriving DecidableEq, Repr

/-- The hub die at reset. -/
def HubDie.empty : HubDie := { shuttles := [], sched := Sched.empty, hub := Hub.empty, bobs := [], trc := Trc.empty }

end Sys2Proof.Machine
end

