-- ==== Sys2Proof/Machine/StLink.lean ====
section
/-!
DEFINITION. The state of the warp lanes and messages (09), and of the port map, as far as no register holds it.
-/

namespace Sys2Proof.Machine

/-- A frame in a lane's transmit queue: not yet sent, or sent and not yet acknowledged (09 R259, R270). -/
structure WFrame where
  /-- 1 DATA, 2 HOLD, 3 MSG -/
  kind : Nat
  seq : Nat
  /-- BEAT field -/
  beat : Nat
  bm1 : Nat
  /-- STATUS field when the frame was made -/
  status : Nat
  /-- DATA: the body of 128 * B bits, bit b of R260 at bit b. MSG: the payload. -/
  body : Nat
  /-- MSG: the message entry, plus 1; 0 otherwise -/
  msg : Nat
  /-- its first bit has been on the wire (R284) -/
  sent : Bool
  deriving DecidableEq, Repr

/-- A delivered response (09 R273 to R275). -/
structure Resp where
  /-- 16-bit BEAT -/
  beat : Nat
  void : Bool
  /-- compare bits, bit r of R278 at bit r -/
  compare : Nat
  /-- sample words in order (R265) -/
  samples : List Word
  /-- delivered before the previous release (R278 FRESH) -/
  seen : Bool := false
  /-- frozen into port-in, or passed over by a later one that was (R289 RSP) -/
  used : Bool := false
  deriving DecidableEq, Repr

/-- A warp lane (09). Its STATE, PWR, taps, counters and flags are in its registers. -/
structure Lane where
  /-- the receiver holds block lock (R252) -/
  lock : Bool
  /-- PHASE this end sends (R255) -/
  phase : Nat
  /-- consecutive PHASE 2 blocks received (R257) -/
  phase2 : Nat
  /-- a request of the far end is being answered: RESP is not 0 (R256) -/
  resp : Nat
  /-- REQ this end sends: the tap request it holds, 0 for none (R256) -/
  req : Nat
  /-- RESP, PRE, POST, MAIN and LANE that the far end sends (R255) -/
  farResp : Nat
  farPre : Nat
  farPost : Nat
  farMain : Nat
  farLane : Nat
  /-- RATE since the present training began, as a TRAIN block codes it (R255, R288) -/
  rate : Nat
  /-- event 8 of 08 R210 waits for this lane -/
  boot : Bool
  /-- event 0x501 has been written for the present failure to train (R257) -/
  failLogged : Bool
  /-- the lane is in a loopback for the far end (R281) -/
  remoteLoop : Bool
  txq : List WFrame
  /-- next SEQ of this end, last accepted SEQ of the far end, and NAK to be sent (R267) -/
  nextSeq : Nat
  lastAcc : Nat
  nak : Bool
  /-- resend episodes without a new ACK (R269) -/
  episodes : Nat
  /-- RX_READY of the far end (R253) -/
  rxReady : Bool
  /-- the far end's transmitter, receiver sleep (R253 PWR) -/
  farTxSleep : Bool
  farRxSleep : Bool
  /-- power state waited for until the queue is empty and acknowledged (R282), plus 1; 0: none -/
  pwrPend : Nat
  /-- power state before device LOW, plus 1; 0: not in LOW (R282) -/
  pwrSaved : Nat
  /-- the transmitter is on again and waits for RX_READY before frames resume (R282) -/
  txWaits : Bool
  /-- the receiver is on again and waits for block lock (R282) -/
  rxWaits : Bool
  /-- byte 4 of the last PWR block this end sent; 0: none (R253, R282) -/
  pwrSent : Nat
  /-- unanswered DATA frames, oldest first: BEAT and BM1 (R275) -/
  unanswered : List (Nat × Nat)
  /-- the last four responses delivered, oldest first (06 R166) -/
  resps : List Resp
  /-- the response frozen into port-in, and whether it was delivered since the previous release (R278) -/
  frozen : Option Resp
  fresh : Bool
  deriving DecidableEq, Repr

/-- A lane at reset. -/
def Lane.empty : Lane :=
  { lock := false, phase := 0, phase2 := 0, resp := 0, req := 0, farResp := 0, farPre := 0, farPost := 0, farMain := 0, farLane := 0,
    rate := 0, boot := false, failLogged := false, remoteLoop := false, txq := [], nextSeq := 0,
    lastAcc := 255, nak := false, episodes := 0, rxReady := false, farTxSleep := false, farRxSleep := false, pwrPend := 0,
    pwrSaved := 0, txWaits := false, rxWaits := false, pwrSent := 0, unanswered := [], resps := [], frozen := none, fresh := false }

/-- A message entry (09 R284); its launch time and status are in its registers. -/
structure MsgEntry where
  words : List Word
  lane : Nat
  len : Nat
  /-- waits for its launch time -/
  wait : Bool
  /-- launched, and waits for room in the lane's transmit queue (R270) -/
  due : Bool
  deriving DecidableEq, Repr

/-- An empty message entry. -/
def MsgEntry.empty : MsgEntry := { words := [], lane := 0, len := 0, wait := false, due := false }

/-- The warp side: lanes by physical number, message entries, received messages, the port map. -/
structure Warp where
  lanes : SMap Lane
  msgs : SMap MsgEntry
  /-- word pointer of WRP_MSG_DATA (R284) -/
  msgPtr : Nat
  /-- received messages, oldest first: logical lane and payload (R284) -/
  rx : List (Nat × List Word)
  /-- next payload word of the oldest message to be read (R290) -/
  rxPtr : Nat
  /-- a received message was dropped (R284: MSG_OVF) -/
  msgOvf : Bool
  /-- a port map has been written; its entries in the order of the section (R277) -/
  mapped : Bool
  ports : List Word64
  deriving DecidableEq, Repr

/-- The warp side at reset. -/
def Warp.empty : Warp := { lanes := [], msgs := [], msgPtr := 0, rx := [], rxPtr := 0, msgOvf := false, mapped := false, ports := [] }

end Sys2Proof.Machine
end

