-- ==== Sys2Proof/Machine/StPlat.lean ====
section
/-!
DEFINITION. The state of the platform: pins, clocks and supplies (01, 17), the charter in force (08 R213 to R219), the
loader (08).
-/

namespace Sys2Proof.Machine

/-- One GPIO entry of the charter (08 R218). -/
structure GpioCfg where
  load : Nat
  safe : Nat
  user : Nat
  cell : Nat
  deriving DecidableEq, Repr

/-- A host filter of the AUTHORITY record (10 R307). -/
structure HostFilter where
  ip : Nat
  prefixLen : Nat
  ports : Nat
  rights : Nat
  deriving DecidableEq, Repr

/-- One Ethernet port's part of the AUTHORITY record (10 R307). -/
structure EthCfg where
  mac : Nat
  vid : Nat
  tagged : Bool
  ip : Nat
  mask : Nat
  gateway : Nat
  mode : Nat
  fec : Nat
  deriving DecidableEq, Repr

/-- The AUTHORITY record (10 R307). -/
structure Authority where
  jtagOwner : Bool
  opRights : Nat
  udpPort : Nat
  mtu : Nat
  ports : List EthCfg
  filters : List HostFilter
  deriving DecidableEq, Repr

/-- A catalogue entry (08 R219). -/
structure CatEntry where
  valid : Bool
  part : Nat
  lba : Nat
  sectors : Nat
  catVersion : Nat
  imageId : Nat
  deriving DecidableEq, Repr

/-- The charter in force (08 R215). -/
structure Charter where
  /-- sequence number of the copy (08 R213) -/
  seq : Nat
  systemId : Nat
  site : Nat
  name : List Byte
  role : Nat
  position : Nat
  size : Nat
  /-- physical weft link of each logical link -/
  linkMap : List Nat
  /-- physical lane of each logical lane, 0xFF for none; empty: each its own -/
  laneMap : List Nat
  gpio : List GpioCfg
  /-- catalogue entries: slot s at 2s (primary) and 2s + 1 (fallback) -/
  catalogue : List CatEntry
  authority : Option Authority
  /-- pairs of the REGS records, in order: register-space offset and value (08 R216) -/
  writes : List (Nat × Word)
  /-- filter words and rules of the WATCH record (15 R462); empty without it -/
  filters : List Word
  rules : List Word64
  deriving DecidableEq, Repr

/-- A section of an image: its type, scope, and raw content after inflation and relocation (08 R223). -/
structure Section where
  typ : Nat
  flags : Nat
  scope : Nat
  raw : List Byte
  deriving DecidableEq, Repr

/-- An image as the image cache holds it (08 R222, R229). -/
structure Image where
  /-- the 256 header bytes -/
  header : List Byte
  sections : List Section
  deriving DecidableEq, Repr

/-- The load in progress (08 R230). -/
structure LoadSt where
  /-- true: the load at event 9 of R210 -/
  boot : Bool
  slot : Nat
  /-- 0 primary, 1 fallback -/
  entry : Nat
  /-- step of R230 reached, 1 to 4 (R239) -/
  step : Nat
  /-- eMMC retries of the present command -/
  retries : Nat
  /-- the entry has passed its checks: the image to be written -/
  ready : Option Image
  /-- model base of the load: LDR_MODEL_BASE × 256 at its start (08 R248) -/
  base : Nat
  /-- the write step has ended; event 12 of R210 waits for event 8 -/
  written : Bool
  deriving DecidableEq, Repr

/-- A bay reload in progress (08 R243). -/
structure BaySt where
  bay : Nat
  /-- none: the image cache; some s: slot s -/
  slot : Option Nat
  /-- 1 staging, 2 staged and waiting for the leave point, 3 out, being written, 4 written, waiting for the rejoin -/
  phase : Nat
  /-- the staged sections -/
  staged : List Section
  /-- eMMC retries of the present command -/
  retries : Nat
  /-- catalogue entry of a slot: 0 primary, 1 fallback (08 R240) -/
  entry : Nat
  deriving DecidableEq, Repr

/-- The loader. -/
structure Loader where
  load : Option LoadSt
  /-- the image cache, and the image it holds valid -/
  cache : Option Image
  /-- the model base of the loaded image (08 R248) -/
  base : Nat
  bay : Option BaySt
  /-- flash command in progress: 1 READ, 2 PROGRAM, 3 ERASE; 0 none (08 R249) -/
  flashCmd : Nat
  /-- event 12 of R210 has been passed with this device's release (08 R234: DONE not yet seen since the load) -/
  doneNew : Bool
  /-- shuttle code has started since the last load began (08 R236) -/
  code : Bool
  /-- a START accepted during a re-place waits (14 R436) -/
  replace : Option (Bool × Nat)
  deriving DecidableEq, Repr

/-- The loader at reset. -/
def Loader.empty : Loader := { load := none, cache := none, base := 0, bay := none, flashCmd := 0, doneNew := false, code := false, replace := none }

/-- The watch unit (15 R459 to R461), beside its registers; WCH_SRC_VAL has one word per source. -/
structure Watch where
  /-- rules in force -/
  rules : SMap Word64
  /-- filters that have taken a sample since EN became 1, as a mask -/
  primed : Nat
  /-- consecutive samples for which a rule's condition has held -/
  runs : SMap Nat
  /-- consecutive samples for which a thermal sensor has been above 105 °C (R457) -/
  hot : SMap Nat
  /-- samples since each action 1 of R457, up to 1,000 -/
  hotAges : List Nat
  deriving DecidableEq, Repr

/-- No rule. -/
def Watch.empty : Watch := { rules := [], primed := 0, runs := [], hot := [], hotAges := [] }

/-- What the save area holds of a beam beside its shed and beam memory (15 R450): the free counter from which the bytes of its maps were
taken, and DRW_HCFG of its 64 harnesses. The maps stand in the loom's own record, which nothing changes while the panel sleeps. -/
structure SavedBeam where
  ctr : Nat
  hcfg : List Word
  deriving DecidableEq, Repr

/-- Pins, clocks, supplies and resets (01 R18 to R22, 08 R210, R236, 17). -/
structure Plat where
  /-- VDD_AON is within range (01 R22) -/
  aonUp : Bool
  /-- crystal detection has ended (01 R19) -/
  crystalDone : Bool
  /-- a crystal runs the AON domain; false: the internal oscillator -/
  crystal : Bool
  /-- AON PLL: 0 not started, 1 started, 2 locked, 3 bypass (01 R20) -/
  aonPll : Nat
  /-- domains 3 to 16 whose PLL has locked, as a mask by domain number (01 R18) -/
  pllUp : Nat
  /-- domains whose PLL has failed to lock -/
  pllBad : Nat
  /-- the PLLs of the second group have been started -/
  pllStarted : Bool
  /-- event of R210 in progress, 0 to 14 (08 R210) -/
  stage : Nat
  /-- the start-up in progress follows WRST_N (14 R422) -/
  warm : Bool
  /-- levels of PORST_N and WRST_N -/
  porst : Bool
  wrst : Bool
  /-- GPIO input levels as a 48-bit mask (17) -/
  gpioIn : Nat
  /-- this device holds DONE low, another device holds it low (08 R232) -/
  doneLow : Bool
  doneOther : Bool
  /-- GPIO (08 R236): 0 weak pull-down, 1 SAFE while WRST_N is low or the device is OFF, 2 the row of R236 that the loader and
  the treadle are in -/
  gpioStage : Nat
  /-- warp and weft transmitters in electrical idle (08 R236) -/
  txIdle : Bool
  /-- safe states of the charter in force before WRST_N, kept by the AON domain (08 R211) -/
  safeCopy : List Nat
  /-- straps, as IOC_STRAP shows them, present at the lands (17 R496): MADR, JTAG_OWNER -/
  strapPins : Nat
  /-- the watch unit has parked the pins (15 R461) -/
  parked : Bool
  /-- HBM is trained and initialised: its bytes can be read and written (08 R210 event 7) -/
  hbmReady : Bool
  /-- panels whose wake is under way, as a mask (15 R449, R451) -/
  waking : Nat
  /-- panels whose supply did not come up in time: their slots are unusable (15 R449) -/
  panelBad : Nat
  /-- panels whose entry to SLEEP is under way, as a mask (15 R451) -/
  sleeping : Nat
  /-- cause of the panel's change under way, as 0xA01 codes it (15 R470): key panel -/
  panelCause : SMap Nat
  /-- device transition: 0 none, 1 into LOW, 2 out of LOW, 3 into LOW with events 3 to 5 over and lanes still busy (15 R453, R454); and
  the cause of the exit -/
  trans : Nat
  transCause : Nat
  /-- requests accepted during a transition: REQ of PWR_DEV_REQ and cause (15 R454) -/
  devOwed : List (Nat × Nat)
  /-- SLEEP actions that wait for the halt: rule and panel mask (15 R461) -/
  sleepOwed : List (Nat × Nat)
  /-- panels whose PEN is low while WRST_N is low, as a mask: those that were OFF (17 R497) -/
  penLow : Nat
  /-- beams saved in the save area: key logical GB (15 R450) -/
  saved : SMap SavedBeam
  watch : Watch
  deriving DecidableEq, Repr

/-- The platform before power. -/
def Plat.empty : Plat :=
  { aonUp := false, crystalDone := false, crystal := false, aonPll := 0, pllUp := 0, pllBad := 0, pllStarted := false,
    stage := 0, warm := false, porst := false, wrst := true, gpioIn := 0, doneLow := true, doneOther := false, gpioStage := 0,
    txIdle := true, safeCopy := [], strapPins := 0, parked := false, hbmReady := false, waking := 0, panelBad := 0,
    sleeping := 0, panelCause := [], trans := 0, transCause := 0, devOwed := [], sleepOwed := [], penLow := 0, saved := [],
    watch := Watch.empty }

/-- A loom control request in a port's queue (10 R308, R310, R313). -/
structure EthReq where
  /-- source address and UDP port -/
  ip : Nat
  udp : Nat
  /-- OP_RIGHTS AND the rights of the matched filter entry -/
  rights : Nat
  /-- the datagram, header and body -/
  data : List Byte
  deriving DecidableEq, Repr

/-- A source whose non-read requests are kept (10 R313): SEQ and reply status, oldest first. -/
structure EthSrc where
  ip : Nat
  udp : Nat
  kept : List (Nat × Nat)
  deriving DecidableEq, Repr

/-- A subscriber (10 R314). -/
structure EthSub where
  port : Nat
  ip : Nat
  udp : Nat
  mask : Nat
  sev : Nat
  seq : Nat
  deriving DecidableEq, Repr

/-- A message that leaves the device (10 R306, R310, R314, R317; 15 R467): iface 0, 1 the Ethernet ports; 2, 3, 4 SPI, I2C and UART of
the management port; 5 JTAG. A UDP message has its destination and its source port. -/
structure OutMsg where
  iface : Nat
  /-- VID of the IEEE 802.1Q tag that the MAC puts in, if any (10 R306, R307) -/
  vlan : Option Nat
  ip : Nat
  udp : Nat
  src : Nat
  data : List Byte
  deriving DecidableEq, Repr

/-- The Ethernet ports and what the device last sent (10). -/
structure Eth where
  queue0 : List EthReq
  queue1 : List EthReq
  srcs : List EthSrc
  subs : List EthSub
  /-- next descriptor of the PTP rings: receive 0, transmit 0, receive 1, transmit 1 (R315) -/
  rings : SMap Nat
  /-- a port's transmission is paused for this many hundredths of a nanosecond (R306) -/
  paused : SMap Nat
  /-- messages that a pause holds, oldest first (R306) -/
  held : List OutMsg
  /-- what the device last sent: the model's own record of an output (assumption log 6) -/
  sent : List OutMsg
  deriving DecidableEq, Repr

/-- The Ethernet side at reset. -/
def Eth.empty : Eth := { queue0 := [], queue1 := [], srcs := [], subs := [], rings := [], paused := [], held := [], sent := [] }

end Sys2Proof.Machine
end

