-- ==== Sys2Proof/Machine/StRel.lean ====
section
/-!
DEFINITION. The state of self-test, repair and rolling test (14), as far as no register holds it.
-/

namespace Sys2Proof.Machine

/-- Rolling test of one physical beam (14 R432). -/
structure Roll where
  /-- 0 none; 1 the spare is being loaded; 2 the beam asks for a swap; 3 the swap is granted; 5 the retired slot waits for the
  panel's turn; 6 it is tested -/
  phase : Nat
  /-- candidate: logical harness -/
  cand : Nat
  /-- spare being loaded; after the swap, the retired slot -/
  ph : Nat
  /-- last candidate swapped, plus 1 -/
  last : Nat
  deriving DecidableEq, Repr

/-- No rolling test yet. -/
def Roll.empty : Roll := { phase := 0, cand := 0, ph := 0, last := 0 }

/-- Repairs and self-test. Slots are physical. -/
structure Rel where
  /-- hard repair fuse words, written at manufacture (14 R428) -/
  hard : List Word
  /-- bad heddle slots: (66 * PGB + PH) * 33 + PK -/
  badHeddle : List Nat
  /-- bad harness slots: 66 * PGB + PH -/
  badHarness : List Nat
  /-- shuttles gated for good -/
  badShuttle : List Nat
  /-- clusters gated for good -/
  badCluster : List Nat
  /-- repair words of rows and columns replaced by spares -/
  rowCols : List Nat
  /-- field fuse words: key 0 to 127 (14 R426) -/
  fuses : SMap Word
  /-- the fuse or shadow command that runs, its word and its data: 1 BURN_DATA, 2 BURN_VALID, 3 SHADOW_APPEND,
  4 SHADOW_ERASE, 5 READ; 0 none (14 R446) -/
  fuseCmd : Nat
  fuseWord : Nat
  fuseData : Word
  /-- repairs waiting to be recorded, oldest first (14 R431) -/
  toRecord : List Word
  /-- event 0xB06 has been written for the bank, for the shadow -/
  fullBank : Bool
  fullShadow : Bool
  roll : SMap Roll
  /-- the physical beam whose retired slot a panel has tested last, plus 1: key panel (14 R432) -/
  turn : SMap Nat
  /-- physical beam whose swap is granted at this boundary, plus 1 (06 R170) -/
  grant : Nat
  /-- a repair word of the repair step of the beat in progress, not yet permanent (02 R42) -/
  stepWord : Option Word
  /-- the on-demand BIST that runs: its TARGETS (14 R425) -/
  bistRun : Option Nat
  deriving DecidableEq, Repr

/-- No repairs. -/
def Rel.empty : Rel :=
  { hard := [], badHeddle := [], badHarness := [], badShuttle := [], badCluster := [], rowCols := [], fuses := [], fuseCmd := 0, fuseWord := 0, fuseData := 0,
    toRecord := [], fullBank := false, fullShadow := false, roll := [], turn := [], grant := 0, stepWord := none, bistRun := none }

end Sys2Proof.Machine
end

