-- ==== Sys2Proof/Machine/StWeft.lean ====
section
/-!
DEFINITION. The state of the weft links and of the weave (10, 06 R183 to R188), as far as no register holds it. Links
are numbered physically; positions are those of the weave.
-/

namespace Sys2Proof.Machine

/-- A weft frame in a link's retry buffer (10 R293 to R295). -/
structure FFrame where
  /-- 1 BUNDLE, 2 MARK, 3 PEER, 4 STATUS, 5 DONE -/
  typ : Nat
  seq : Nat
  /-- header bits [26:0] -/
  head : Nat
  /-- body as a little-endian number, and its length in bytes -/
  body : Nat
  len : Nat
  deriving DecidableEq, Repr

/-- A weft link. Its STATE and neighbour are in WFT_LINK_STATUS. -/
structure WLink where
  /-- the retry buffer: frames sent that no ACK covers yet (10 R295) -/
  txq : List FFrame
  /-- frames that wait for room in the retry buffer; their SEQ is given when they enter it (10 R295) -/
  due : List FFrame
  /-- bundles handed over and not yet in a frame: BEAT[3:0], flow, value (10 R296) -/
  sendq : List (Nat × Nat × Nat)
  nextSeq : Nat
  lastAcc : Nat
  nak : Bool
  /-- resend episodes without a new ACK (10 R295) -/
  episodes : Nat
  /-- STATE before the retrain that the link is in: 3, 4, 5 or 6; 0 where it has not been UP (10 R292) -/
  was : Nat
  /-- ROLE of the neighbour's last STATUS -/
  nbrRole : Nat
  /-- 1 + beat of the last barrier (04 R119) -/
  barrier : Nat
  /-- bundles received for a beat that this device has not released: BEAT[3:0], flow, value (04 R117) -/
  early : List (Nat × Nat × Nat)
  deriving DecidableEq, Repr

/-- A link at reset: 65,535 is the last accepted SEQ (10 R295). -/
def WLink.empty : WLink :=
  { txq := [], due := [], sendq := [], nextSeq := 0, lastAcc := 65535, nak := false, episodes := 0, was := 0, nbrRole := 0, barrier := 0, early := [] }

/-- A weave START at the leader (06 R183, R188; 16 R479). -/
inductive WStart where
  /-- none in progress -/
  | idle
  /-- settings are compared, and a member whose settings agree has its peer START: (position, item) still to be answered, positions still
  to answer the peer START, and the lowest position that refused with its reason -/
  | compare (left : List (Nat × Nat)) (accept : List Nat) (refused : Option (Nat × Nat))
  /-- the peer START is sent to all: positions still to answer, and the lowest position that refused with its reason -/
  | accept (left : List Nat) (refused : Option (Nat × Nat))
  /-- the committed counts are read: positions still to answer, counts by position -/
  | counts (left : List Nat) (got : List (Nat × Nat))
  /-- SOLO beats run: M and the positions whose SOLO beat has not committed -/
  | solo (m : Nat) (left : List Nat)
  /-- all members have accepted -/
  | ready
  deriving DecidableEq, Repr

/-- The weave side. -/
structure Weft where
  links : SMap WLink
  /-- commit markers: key position, 1 + highest beat (06 R184) -/
  marks : SMap Nat
  /-- tokens received: beat and the leader's TB, newest last (06 R185, R186) -/
  tokens : List (Nat × Word)
  /-- last forwarded MARK: key 2 * origin + kind (0 commit, 1 token), 1 + beat (10 R298) -/
  fwdMark : SMap Nat
  /-- last 64 forwarded PEER frames: SRC and TAG (10 R298) -/
  fwdPeer : List (Nat × Nat)
  /-- newest DONE report: key position, 1 + 2 * GEN + RELEASED (10 R301) -/
  done : SMap Nat
  /-- next TAG of this device's peer commands -/
  tag : Nat
  /-- requests of this device waiting for a reply: TAG, CMD, first argument byte, destination -/
  asked : List (Nat × Nat × Nat × Nat)
  start : WStart
  /-- a peer START accepted here waits for its reply until a panel wakes: (source, TAG) (16 R479) -/
  owed : Option (Nat × Nat)
  /-- T of the leader's START, and whether it is timed -/
  startT : Word
  startTimed : Bool
  deriving DecidableEq, Repr

/-- The weave side at reset. -/
def Weft.empty : Weft :=
  { links := [], marks := [], tokens := [], fwdMark := [], fwdPeer := [], done := [], tag := 0, asked := [], start := .idle,
    owed := none, startT := 0, startTimed := false }

end Sys2Proof.Machine
end

