-- ==== Sys2Proof/Machine/Dev.lean ====
section
/-!
DEFINITION. The device: every piece of state the spec gives the DF9120, but for the queue of waiting commands.
-/

namespace Sys2Proof.Machine

/-- The error log (14 R437 to R440): 4,096 slots and the input queue. -/
structure LogSt where
  slots : SMap LogWord
  queue : List LogWord
  /-- the entries of one HUB cycle are being collected -/
  burst : Bool
  deriving DecidableEq, Repr

/-- Device state. -/
structure Dev where
  /-- register words, by key (Registers.lean) -/
  regs : SMap Word
  /-- memory by device address (13 R380) -/
  mem : List Host.Cell
  /-- flipped check bits of stored memory words, by the address of the coded unit: the 32-byte granule of HBM, the word
  of a beam memory, the byte of a tablet or cluster memory (14 R413, R419) -/
  chk : SMap Nat
  /-- uncorrectable units whose data bits are wrong, by the same address (14 R421) -/
  bad : SMap Bool
  loom : Loom
  trd : Treadle
  tb : TimeBase
  log : LogSt
  warp : Warp
  cap : Cap
  weft : Weft
  rel : Rel
  plat : Plat
  hubd : HubDie
  /-- the charter in force (08 R214) -/
  charter : Option Charter
  ldr : Loader
  eth : Eth
  /-- internal flash, 1 MiB (08 R212); an unlisted byte is erased, 0xFF -/
  flash : SMap Byte
  /-- always-on tick of 40 ns (14 R437), and ns since it -/
  tick : Nat
  tickNs : Nat
  /-- what asserts ALERT_N, as a mask (assumption log 7) -/
  alerts : Nat
  /-- the model's own counter that the free values are read with (assumption log 2) -/
  freeCtr : Nat
  deriving DecidableEq, Repr

end Sys2Proof.Machine
end

