-- ==== Sys2Proof/Machine/Ops.lean ====
section
/-!
DEFINITION. The named operations every meaning is written over: registers and their fields, memory, the error log,
ALERT_N, the treadle's state.
-/

namespace Sys2Proof.Machine

/-- A register's word; an unlisted one is at its reset value (00 R9). -/
def Dev.reg (d : Dev) (k : Nat) : Word := SMap.get (resetVal k) d.regs k

/-- A register's word set. -/
def Dev.setReg (d : Dev) (k : Nat) (v : Word) : Dev := { d with regs := SMap.put (resetVal k) d.regs k v }

/-- A field's value. -/
def Dev.fld (d : Dev) (f : Fld) : Nat := bitsN (d.reg f.reg).toNat f.hi f.lo

/-- Bits [hi:lo] of a word replaced by v. -/
def setBits (w : Word) (hi lo v : Nat) : Word :=
  BitVec.ofNat 32 (w.toNat - bitsN w.toNat hi lo * 2 ^ lo + v % 2 ^ (hi - lo + 1) * 2 ^ lo)

/-- A field set; the register's other fields keep their values. -/
def Dev.setFld (d : Dev) (f : Fld) (v : Nat) : Dev := d.setReg f.reg (setBits (d.reg f.reg) f.hi f.lo v)

/-- A counter field raised by n, saturating at its width. -/
def Dev.addFld (d : Dev) (f : Fld) (n : Nat) : Dev := d.setFld f (satAdd (f.hi - f.lo + 1) (d.fld f) n)

/-- Every register of a list at its reset value again. -/
def Dev.resetRegs (d : Dev) (ks : List Nat) : Dev := { d with regs := ks.foldl SMap.del d.regs }

/-! ### Memory (13 R380; 00 R4) -/

/-- What an unlisted byte reads as: memory is cleared to 0 before any master can read it (15 R455, 08 R229). -/
def memDefault : Byte := 0

/-- The canonical form of memory: addresses strictly rising, no entry equal to what an unlisted address reads as. -/
abbrev Memory.wf (m : List Host.Cell) : Prop := SMap.wf memDefault m = true

/-- One byte of memory. -/
def Dev.byte (d : Dev) (a : Nat) : Byte := SMap.get memDefault d.mem a

/-- One byte of memory written. -/
def Dev.setByte (d : Dev) (a : Nat) (b : Byte) : Dev := { d with mem := SMap.put memDefault d.mem a b }

/-- n bytes of memory, lowest address first. -/
def Dev.bytes (d : Dev) (a n : Nat) : List Byte := (List.range n).map (fun i => d.byte (a + i))

/-- Bytes written at rising addresses. -/
def Dev.setBytes (d : Dev) (a : Nat) : List Byte → Dev
  | [] => d
  | b :: t => Dev.setBytes (d.setByte a b) (a + 1) t

/-- An aligned or unaligned 32-bit word, little-endian. -/
def Dev.word (d : Dev) (a : Nat) : Word := BitVec.ofNat 32 (leNat (d.bytes a 4))

/-- A 32-bit word written, little-endian. -/
def Dev.setWord (d : Dev) (a : Nat) (w : Word) : Dev := d.setBytes a (leBytes 4 w.toNat)

/-- Memory from a to b - 1 cleared to 0 (08 R229). -/
def Dev.clearMem (d : Dev) (a b : Nat) : Dev := { d with mem := d.mem.filter (fun c => !(a ≤ c.1 && c.1 < b)) }

/-- First address above HBM, 192 GiB (05 R133). -/
def hbmEnd : Nat := 0x3000000000
/-- Beam memories, 1 MiB each (05 R125). -/
def beamMemBase : Nat := 0x5000000000
/-- Cluster memories, 4 MiB each (05 R141). -/
def clusterBase : Nat := 0x6000000000
/-- Nanoseconds of the always-on tick. -/
def Dev.nowNs (d : Dev) : Nat := d.tick * 40 + d.tickNs

/-- Spill region (05 R128, 08 R229). -/
def spillBase : Nat := 0x2FE0000000

/-- The address of word w of beam memory gb (05 R125). -/
def beamMemAddr (gb w : Nat) : Nat := beamMemBase + gb * 0x100000 + 4 * (w % 0x40000)

/-- The address of word w of mailbox bank 0 to 31 (05 R141). -/
def mailboxAddr (bank w : Nat) : Nat :=
  clusterBase + bank / 2 * 0x400000 + (30 + bank % 2) * 0x20000 + 4 * (w % 0x8000)

/-! ### The error log (14 R437 to R441) -/

/-- Severity of an event code (14 R441). -/
def sevOf (code : Nat) : Nat :=
  if code ∈ [0x001, 0x111, 0x320, 0x502, 0x504, 0x602, 0x603, 0x613, 0x903, 0xA01, 0xB01, 0xB07] then 0
  else if code ∈ [0x004, 0x113, 0x120, 0x121, 0x123, 0x401, 0x420, 0x440, 0x606, 0x840, 0x841, 0x902, 0xA02, 0xA04,
      0xB04, 0xB0C, 0xC01, 0xC02, 0xC03, 0xC04] then 1
  else if code ∈ [0x003, 0x010, 0x021, 0x112, 0x210, 0x211, 0x213, 0x214, 0x232, 0x311, 0x324, 0x410, 0x411, 0x412,
      0x821, 0xA07, 0xA08] then 4
  else if code / 0x10 = 0x10 ∨ code ∈ [0x110, 0x115, 0x116, 0x122, 0x233, 0x235, 0x236, 0x323, 0x404, 0x406, 0x413,
      0x414, 0x501, 0x604, 0x611, 0x701, 0x702, 0x703, 0x704, 0x810, 0x811, 0x812, 0xA05, 0xA06, 0xB03, 0xB05, 0xB09,
      0xB0A] ∨ (0x131 ≤ code ∧ code ≤ 0x13F) then 3
  else 2

/-- A log entry (14 R438). -/
def logEntry (tick blk inst code data : Nat) : LogWord :=
  BitVec.ofNat 128 (tick % 2 ^ 56 * 2 ^ 72 + blk % 32 * 2 ^ 67 + inst % 128 * 2 ^ 60 + code % 0x1000 * 2 ^ 48 +
    sevOf code % 16 * 2 ^ 44 + data % 2 ^ 44)

/-- Register blocks (13 R382), as the SRC_BLOCK field names them. -/
def blkOf (key : Nat) : Nat := key % 0x1000000 / 0x10000

/-- An event: it enters the input queue of 64, or is counted in LOG_LOST when the queue is full (14 R439). SRC_INST is
0 where it does not fit (R438). -/
def Dev.event (d : Dev) (blk inst code data : Nat) : Dev :=
  if d.log.burst ∨ d.log.queue.length < 64 then
    { d with log := { d.log with queue :=
        d.log.queue ++ [logEntry d.tick blk (if inst < 128 then inst else 0) code data] } }
  else d.addFld F.LOG_LOST_COUNT 1

/-- What happens in one HUB cycle: its entries go by block, then by instance, each unit's in their order, before a full queue drops any
(14 R439). -/
def Dev.oneHubCycle (d : Dev) (f : Dev → Dev) : Dev :=
  if d.log.burst then f d
  else
    let e := f { d with log := { d.log with queue := [], burst := true } }
    let room := 64 - d.log.queue.length
    let new := sortBy (fun (x : LogWord) => bitsN x.toNat 71 60) e.log.queue
    let e := { e with log := { e.log with queue := d.log.queue ++ new.take room, burst := false } }
    if new.length ≤ room then e else e.addFld F.LOG_LOST_COUNT (new.length - room)

/-- Block numbers used as SRC_BLOCK. -/
def bTRD : Nat := 0
def bLOM : Nat := 1
def bDRW : Nat := 2
def bLRG : Nat := 3
def bWRP : Nat := 4
def bWFT : Nat := 5
def bETH : Nat := 6
def bPTP : Nat := 7
def bLDR : Nat := 8
def bCHR : Nat := 9
def bCAP : Nat := 10
def bFMP : Nat := 11
def bSHT : Nat := 12
def bWSC : Nat := 13
def bCLM : Nat := 14
def bHUB : Nat := 15
def bGK : Nat := 16
def bBOB : Nat := 17
def bHBM : Nat := 18
def bECC : Nat := 19
def bBST : Nat := 20
def bFUS : Nat := 21
def bLOG : Nat := 22
def bWCH : Nat := 23
def bPWR : Nat := 24
def bIOC : Nat := 25
def bTMX : Nat := 26
def bTRC : Nat := 27
def bMGT : Nat := 28

/-- An access event about a register, for a sender's master ID (13 R393). `key`: its offset. -/
def Dev.access (d : Dev) (code mid key : Nat) : Dev := d.event (blkOf key) 0 code (mid % 2 ^ 12 * 2 ^ 32 + key % 2 ^ 28)

/-- A load event: LDR_STATUS.CODE names it (08 R240, R248). -/
def Dev.loadEvent (d : Dev) (code data : Nat) : Dev := (d.event bLDR 0 code data).setFld F.LDR_STATUS_CODE code

/-- The data field of a bay's events, DETAIL 0; SLOT is 0 for the image cache (08 R240). -/
def bayData (b : BaySt) : Nat := 2 ^ 14 + b.bay % 32 * 2 ^ 9 + b.entry % 2 * 2 ^ 8 + b.slot.getD 0 % 256

/-! ### ALERT_N (08 R236; assumption log 7) -/

/-- What asserts ALERT_N: a fault halt (02 R44). -/
def alHalt : Nat := 0
/-- A response timeout (06 R168). -/
def alPin : Nat := 1
/-- DONE not seen high (08 R235). -/
def alDone : Nat := 2
/-- A failed load, no charter, or a failed HBM training (08 R237, R238). -/
def alLoad : Nat := 3
/-- A PLL not locked (01 R20). -/
def alPll : Nat := 4
/-- An emergency shutdown (15 R458). -/
def alEmerg : Nat := 5
/-- A PARK holds (15 R469). -/
def alPark : Nat := 6
/-- Watch rule r asserts ALERT (15 R461): cause 8 + r. -/
def alRule (r : Nat) : Nat := 8 + r

/-- A cause asserted. -/
def Dev.alert (d : Dev) (c : Nat) : Dev := { d with alerts := if d.alerts.testBit c then d.alerts else d.alerts + 2 ^ c }
/-- A cause released. -/
def Dev.unalert (d : Dev) (c : Nat) : Dev := { d with alerts := if d.alerts.testBit c then d.alerts - 2 ^ c else d.alerts }

/-! ### Treadle state (06 R157) -/

/-- Treadle states as TRD_STATUS.STATE codes them (06 R157). -/
def tsIdle : Nat := 0
def tsArmed : Nat := 1
def tsStarting : Nat := 2
def tsBeat : Nat := 3
def tsWaiting : Nat := 4
def tsHalted : Nat := 5
def tsSolo : Nat := 6

/-- The treadle's state. -/
def Dev.ts (d : Dev) : Nat := d.fld F.TRD_STATUS_STATE

/-- LOM_STATUS.STATE that goes with a treadle state (06 R157). -/
def lomStateOf (ts : Nat) : Nat :=
  if ts = tsIdle then 0 else if ts = tsArmed ∨ ts = tsStarting then 1 else if ts = tsHalted then 5 else 2

/-- The treadle enters a state; LOM_STATUS.STATE follows (06 R157). -/
def Dev.setTs (d : Dev) (s : Nat) : Dev := (d.setFld F.TRD_STATUS_STATE s).setFld F.LOM_STATUS_STATE (lomStateOf s)

/-- A released beat has not committed: BEAT or SOLO (01 R14). -/
def Dev.inBeat (d : Dev) : Bool := d.ts == tsBeat || d.ts == tsSolo

/-- LOM_STATUS.STATE is 2, 3 or 4 (05 R127). -/
def Dev.running (d : Dev) : Bool := let s := d.fld F.LOM_STATUS_STATE; 2 ≤ s && s ≤ 4

/-- PLL that feeds a clock domain: 0 crystal or oscillator, 1 the AON PLL, 17 the TCK pin, else the lowest domain number of the
PLL (01 R18). -/
def pllOf (dom : Nat) : Nat :=
  if dom = 1 ∨ dom = 2 then 1
  else if dom ∈ [5, 6, 9, 10, 11, 12, 16] then 4
  else if dom = 8 then 7
  else dom

/-- The loom changed. -/
def Dev.onLoom (d : Dev) (f : Loom → Loom) : Dev := { d with loom := f d.loom }

/-- HAZARD checking is in effect (02 R54). -/
def Dev.hazard (d : Dev) : Bool := d.fld F.LOM_CTL_CHECK == 1

/-- A register takes a value at the next commit while a beat runs, and at once otherwise (01 R14). -/
def Dev.setRegAtCommit (d : Dev) (k : Nat) (v : Word) : Dev :=
  if d.inBeat then d.onLoom (fun l => { l with atCommit := l.atCommit ++ [(k, v)] }) else d.setReg k v

end Sys2Proof.Machine
end

