-- ==== Sys2Proof/Machine/Fire.lean ====
section
/-!
DEFINITION. What the hub side notes of the loom's and its own events: firings of the trigger table (12 R374) and trace
packets (15 R463 to R465). TRIGGER_FIRING and TRACE_PACKET act on what is noted.
-/

namespace Sys2Proof.Machine

/-- The hub die changed. -/
def Dev.onHubd (d : Dev) (f : HubDie → HubDie) : Dev := { d with hubd := f d.hubd }
/-- The scheduler changed. -/
def Dev.onSched (d : Dev) (f : Sched → Sched) : Dev := d.onHubd (fun h => { h with sched := f h.sched })
/-- Trace changed. -/
def Dev.onTrc (d : Dev) (f : Trc → Trc) : Dev := d.onHubd (fun h => { h with trc := f h.trc })
/-- A shuttle. -/
def Dev.sh (d : Dev) (s : Nat) : Shuttle := SMap.get Shuttle.empty d.hubd.shuttles s
/-- A shuttle changed. -/
def Dev.onSh (d : Dev) (s : Nat) (f : Shuttle → Shuttle) : Dev :=
  d.onHubd (fun h => { h with shuttles := SMap.put Shuttle.empty h.shuttles s (f (d.sh s)) })

/-! ### The trigger table (12 R374, R379) -/

def trBEAT : Nat := 1
def trBOBBIN : Nat := 2
def trCAPTURE : Nat := 3
def trHOST : Nat := 4
def trLOG : Nat := 5

/-- Entry e fires on its source. -/
def Dev.trigEn (d : Dev) (e kind : Nat) : Bool :=
  d.fld (F.WSC_TRIG_LO_EN.at e) == 1 && d.fld (F.WSC_TRIG_LO_KIND.at e) == kind
def Dev.trigSel (d : Dev) (e : Nat) : Nat := d.fld (F.WSC_TRIG_LO_SEL.at e)
def Dev.trigParam (d : Dev) (e : Nat) : Nat := d.fld (F.WSC_TRIG_HI_PARAM.at e)

/-- Every entry of a kind whose SEL and PARAM satisfy p has fired. -/
def Dev.fire (d : Dev) (kind : Nat) (p : Nat → Bool) : Dev :=
  let es := (List.range 64).filter (fun e => d.trigEn e kind && p e)
  if es.isEmpty then d else d.onSched (fun s => { s with fired := s.fired ++ es })

/-- Commit of beat n (KIND 1). -/
def Dev.fireBeat (d : Dev) (n : Nat) : Dev :=
  d.fire trBEAT (fun e => 1 ≤ d.trigParam e && d.trigParam e ≤ 65535 && (n + 1) % d.trigParam e == 0)

/-- Terminal status of a bobbin channel (KIND 2). -/
def Dev.fireBobbin (d : Dev) (c : Nat) : Dev := d.fire trBOBBIN (fun e => d.trigSel e == c)

/-- The trigger (bit 0) or the end (bit 1) of a capture unit (KIND 3). -/
def Dev.fireCapture (d : Dev) (u bit : Nat) : Dev :=
  d.fire trCAPTURE (fun e => d.trigSel e == u && (d.trigParam e).testBit bit)

/-- A MEM_WRITE that overlaps a 4 KiB page (KIND 4). -/
def Dev.fireHost (d : Dev) (a n : Nat) : Dev :=
  d.fire trHOST (fun e =>
    let page := (d.trigParam e + d.trigSel e % 16 * 2 ^ 32) * 4096
    decide (a < page + 4096 ∧ page < a + n))

/-- An entry of the error log (KIND 5). -/
def Dev.fireLog (d : Dev) (code sev : Nat) : Dev :=
  d.fire trLOG (fun e => d.trigSel e == code / 0x100 && d.fld (F.WSC_TRIG_LO_SEVERITY.at e) ≤ sev)

/-! ### Trace (15 R463 to R465) -/

/-- Packet types. -/
def tpDISPATCH : Nat := 1
def tpCOMPLETE : Nat := 2
def tpTRAP : Nat := 3
def tpUNTRAP : Nat := 4
def tpHANDOVER : Nat := 5
def tpSLEEP : Nat := 6
def tpWAKE : Nat := 7
def tpSYNC : Nat := 8
def tpOVERFLOW : Nat := 9
def tpHIDE : Nat := 10

/-- A packet: TB, type, shuttle (0xFF: none), payload; SEQ is set at the sink (R463). -/
def tracePacket (tb : Word) (typ sh payload : Nat) : BitVec 128 :=
  BitVec.ofNat 128 (tb.toNat + typ * 2 ^ 32 + sh % 256 * 2 ^ 40 + payload % 2 ^ 64 * 2 ^ 64)

/-- A cluster is traced: not while it is gated, in LOW or because of a bad bank (R466; 14 R424). -/
def Dev.traced (d : Dev) (c : Nat) : Bool :=
  d.fld F.TRC_CTL_EN == 1 && (d.fld F.TRC_CTL_CLUSTERS).testBit c && !d.rel.badCluster.contains c && d.fld F.PWR_STATUS_DEV == 0 &&
    d.plat.trans != 3

/-- An event of a cluster is noted for its packet. -/
def Dev.traceNote (d : Dev) (c : Nat) (main : Bool) (typ sh payload : Nat) : Dev :=
  if d.traced c then d.onTrc (fun t => { t with owed := t.owed ++ [(c, main, tracePacket d.tb.tb typ sh payload)] }) else d

/-- An event of a shuttle that trace does not hide (R464). -/
def Dev.traceSh (d : Dev) (s : Nat) (main : Bool) (typ payload : Nat) : Dev :=
  if (d.sh s).hidden then d else d.traceNote (s / 8) main typ s payload

/-- A cluster FIFO has no room for one more packet (R465). -/
def Dev.traceFull (d : Dev) (c : Nat) : Bool :=
  256 ≤ (SMap.get [] d.hubd.trc.fifo c).length + (d.hubd.trc.owed.filter (fun x => x.1 == c)).length

end Sys2Proof.Machine
end

