-- ==== Sys2Proof/Machine/Codec.lean ====
section
/-!
DEFINITION. The error-correcting codes (14 R413 to R416), CRC-32C (08 R226) and the inflate engine: a raw DEFLATE stream (08 R225;
RFC 1951).
-/

namespace Sys2Proof.Machine

/-! ### Error-correcting codes -/

/-- Number of ones in the low n bits. -/
def popcount : Nat → Nat → Nat
  | 0, _ => 0
  | n + 1, x => x % 2 + popcount n (x / 2)

/-- A number is a power of two. -/
def isPow2 (n : Nat) : Bool := (List.range 12).any (fun i => n == 2 ^ i)

/-- pos(j): the (j+1)-th integer, 3 or more, that is no power of two (14 R414). -/
def eccPos (j : Nat) : Nat :=
  ((List.range (j + 12)).filter (fun n => 3 ≤ n && !isPow2 n)).getD j 0

/-- Check bits of k data bits with r + 1 check bits (14 R414). -/
def eccCheck (k r d : Nat) : Nat :=
  let c := (List.range k).foldl (fun c j => if d.testBit j then c ^^^ eccPos j else c) 0
  c + 2 ^ r * (popcount (k + r) (d % 2 ^ k + 2 ^ k * c) % 2)

/-- What a reader finds (14 R415). `residue`: the data bits of what it takes for the word that differ from those written: none
while at most one stored bit is wrong. -/
inductive EccResult where
  | clean (residue : Nat)
  | corrected (residue : Nat)
  | uncorrectable
  deriving DecidableEq, Repr

/-- The wrong data bits of a word that a reader takes. -/
def EccResult.residue : EccResult → Nat
  | .clean r => r
  | .corrected r => r
  | .uncorrectable => 0

/-- The word is taken as corrected. -/
def EccResult.isCorrected : EccResult → Bool
  | .corrected _ => true
  | _ => false

/-- What a reader finds when the stored bits named in `flips` are flipped (14 R415); the codes are linear. -/
def eccRead (k r flips : Nat) : EccResult :=
  let s := (List.range k).foldl (fun s j => if flips.testBit j then s ^^^ eccPos j else s) (bitsN flips (k + r - 1) k)
  let p := popcount (k + r + 1) flips % 2
  let data := flips % 2 ^ k
  if p = 0 then (if s = 0 then .clean data else .uncorrectable)
  else if s = 0 ∨ isPow2 s then .corrected data
  else match (List.range k).find? (fun j => eccPos j == s) with
    | some j => .corrected (data ^^^ 2 ^ j)
    | none => .uncorrectable

/-- The flipped bits of a word that a reader has written back: the bits that it took wrong, with the check bits of a codeword
(14 R414, R418). -/
def eccWritten (k r residue : Nat) : Nat := residue + 2 ^ k * eccCheck k r residue

/-! ### CRC-32C -/

/-- One bit of the reflected CRC-32C. -/
def crcBit (c : Nat) : Nat := if c % 2 = 1 then (c / 2) ^^^ 0x82F63B78 else c / 2

/-- One byte of it. -/
def crcByte (c b : Nat) : Nat := crcBit (crcBit (crcBit (crcBit (crcBit (crcBit (crcBit (crcBit (c ^^^ b))))))))

/-- CRC-32C of a list of bytes: polynomial 0x1EDC_6F41, bit-reflected, initial value and final XOR 0xFFFF_FFFF (08
R226). -/
def crc32c (bs : List Byte) : Nat := bs.foldl (fun c b => crcByte c b.toNat) 0xFFFFFFFF ^^^ 0xFFFFFFFF

/-! ### DEFLATE -/

/-- The bits of a stored section in the order RFC 1951 packs them: each byte from its lowest bit. -/
def bitsOf (bs : List Byte) : List Bool := bs.flatMap (fun b => (List.range 8).map (fun i => b.toNat.testBit i))

/-- n bits, lowest first, and the rest. -/
def takeBits (n : Nat) (bs : List Bool) : Option (Nat × List Bool) :=
  if (bs.take n).length < n then none else some (ofBits (bs.take n), bs.drop n)

/-- A Huffman code: the number of codes of each length 0 to 15, and the symbols in the order of their codes. -/
structure Huff where
  counts : List Nat
  symbols : List Nat
  deriving DecidableEq, Repr

/-- Codes left over after every length; `none`: the lengths name more codes than there are. -/
def huffLeft (counts : List Nat) : Option Nat :=
  ((List.range 15).foldl (fun (s : Option Nat) i => match s with
    | none => none
    | some x => if 2 * x < counts.getD (i + 1) 0 then none else some (2 * x - counts.getD (i + 1) 0)) (some 1))

/-- The code that a list of code lengths names (RFC 1951, 3.2.2). -/
def huffOf (lens : List Nat) : Huff :=
  { counts := (List.range 16).map (fun n => (lens.filter (· == n)).length),
    symbols := (List.range 15).flatMap (fun n => (List.range lens.length).filter (fun i => lens.getD i 0 == n + 1)) }

/-- One symbol: `code`, `first` and `index` as they stand after the lengths before `len`. -/
def huffDecode (h : Huff) (code first index len : Nat) : Nat → List Bool → Option (Nat × List Bool)
  | 0, _ => none
  | _ + 1, [] => none
  | n + 1, b :: t =>
    let code := code + b2n b
    let c := h.counts.getD len 0
    if code < first + c then (h.symbols[index + (code - first)]?).map (fun s => (s, t))
    else huffDecode h (2 * code) (2 * (first + c)) (index + c) (len + 1) n t

def Huff.next (h : Huff) (bs : List Bool) : Option (Nat × List Bool) := huffDecode h 0 0 0 1 15 bs

/-- Base lengths and extra bits of the length symbols 257 to 285, of the distance symbols 0 to 29 (RFC 1951, 3.2.5). -/
def lenBase : List Nat :=
  [3, 4, 5, 6, 7, 8, 9, 10, 11, 13, 15, 17, 19, 23, 27, 31, 35, 43, 51, 59, 67, 83, 99, 115, 131, 163, 195, 227, 258]
def lenExtra : List Nat := [0, 0, 0, 0, 0, 0, 0, 0, 1, 1, 1, 1, 2, 2, 2, 2, 3, 3, 3, 3, 4, 4, 4, 4, 5, 5, 5, 5, 0]
def distBase : List Nat :=
  [1, 2, 3, 4, 5, 7, 9, 13, 17, 25, 33, 49, 65, 97, 129, 193, 257, 385, 513, 769, 1025, 1537, 2049, 3073, 4097, 6145,
    8193, 12289, 16385, 24577]
def distExtra : List Nat :=
  [0, 0, 0, 0, 1, 1, 2, 2, 3, 3, 4, 4, 5, 5, 6, 6, 7, 7, 8, 8, 9, 9, 10, 10, 11, 11, 12, 12, 13, 13]

/-- n bytes copied from a distance; the output is held newest first. -/
def copyBack (dist : Nat) : Nat → List Byte → List Byte
  | 0, out => out
  | n + 1, out => copyBack dist n (out.getD (dist - 1) 0 :: out)

/-- The symbols of one block up to its end code; the output is held newest first. -/
def inflateCodes (lit dist : Huff) : Nat → List Bool → List Byte → Option (List Bool × List Byte)
  | 0, _, _ => none
  | n + 1, bs, out =>
    match lit.next bs with
    | none => none
    | some (s, bs) =>
      if s < 256 then inflateCodes lit dist n bs (BitVec.ofNat 8 s :: out)
      else if s = 256 then some (bs, out)
      else if 285 < s then none
      else match takeBits (lenExtra.getD (s - 257) 0) bs with
        | none => none
        | some (x, bs) => match dist.next bs with
          | none => none
          | some (ds, bs) =>
            if 29 < ds then none
            else match takeBits (distExtra.getD ds 0) bs with
              | none => none
              | some (y, bs) =>
                let len := lenBase.getD (s - 257) 0 + x
                let back := distBase.getD ds 0 + y
                if out.length < back then none else inflateCodes lit dist n bs (copyBack back len out)

/-- The fixed codes (RFC 1951, 3.2.6). -/
def fixedLit : Huff :=
  huffOf (List.replicate 144 8 ++ List.replicate 112 9 ++ List.replicate 24 7 ++ List.replicate 8 8)
def fixedDist : Huff := huffOf (List.replicate 30 5)

/-- The order of the code-length code lengths (RFC 1951, 3.2.7). -/
def clOrder : List Nat := [16, 17, 18, 0, 8, 7, 9, 6, 10, 5, 11, 4, 12, 3, 13, 2, 14, 1, 15]

/-- n numbers of three bits. -/
def take3 : Nat → List Bool → Option (List Nat × List Bool)
  | 0, bs => some ([], bs)
  | n + 1, bs => match takeBits 3 bs with
    | none => none
    | some (x, bs) => (take3 n bs).map (fun r => (x :: r.1, r.2))

/-- The code lengths of a dynamic block, in order (held newest first), up to `want`. -/
def readLens (cl : Huff) (want : Nat) : Nat → List Bool → List Nat → Option (List Nat × List Bool)
  | 0, _, _ => none
  | n + 1, bs, lens =>
    if want ≤ lens.length then some (lens, bs)
    else match cl.next bs with
      | none => none
      | some (s, bs) =>
        if s < 16 then readLens cl want n bs (s :: lens)
        else
          let (width, base) := if s = 16 then (2, 3) else if s = 17 then (3, 3) else (7, 11)
          match takeBits width bs with
          | none => none
          | some (x, bs) =>
            if s = 16 ∧ lens.isEmpty then none
            else if want < lens.length + base + x then none
            else readLens cl want n bs (List.replicate (base + x) (if s = 16 then lens.headD 0 else 0) ++ lens)

/-- A code is complete, or is one code of length 1 (RFC 1951, 3.2.7). -/
def huffOk (lens : List Nat) (h : Huff) : Bool :=
  match huffLeft h.counts with
  | none => false
  | some 0 => true
  | some _ => lens.length == h.counts.getD 0 0 + h.counts.getD 1 0

/-- The codes of a dynamic block (RFC 1951, 3.2.7). -/
def dynamicCodes (bs : List Bool) : Option (Huff × Huff × List Bool) :=
  match takeBits 5 bs with
  | none => none
  | some (hl, bs) => match takeBits 5 bs with
    | none => none
    | some (hd, bs) => match takeBits 4 bs with
      | none => none
      | some (hc, bs) => match take3 (hc + 4) bs with
        | none => none
        | some (cls, bs) =>
          let clLens := (List.range 19).map (fun s =>
            match clOrder.idxOf? s with
            | some i => cls.getD i 0
            | none => 0)
          let cl := huffOf clLens
          let nlen := hl + 257
          let ndist := hd + 1
          if huffLeft cl.counts ≠ some 0 ∨ 286 < nlen then none
          else match readLens cl (nlen + ndist) (nlen + ndist + 1) bs [] with
            | none => none
            | some (rev, bs) =>
              let lens := rev.reverse
              let litL := lens.take nlen
              let distL := lens.drop nlen
              let lit := huffOf litL
              let dist := huffOf distL
              if litL.getD 256 0 = 0 ∨ !huffOk litL lit ∨ !huffOk distL dist then none else some (lit, dist, bs)

/-- Whole bytes taken from the bits. -/
def takeBytes : Nat → List Bool → List Byte → Option (List Bool × List Byte)
  | 0, bs, out => some (bs, out)
  | n + 1, bs, out => match takeBits 8 bs with
    | none => none
    | some (x, bs) => takeBytes n bs (BitVec.ofNat 8 x :: out)

/-- Blocks up to the final one; `none` on a stream error. The rest of the bits and the output, newest byte first. -/
def inflateBlocks : Nat → List Bool → List Byte → Option (List Bool × List Byte)
  | 0, _, _ => none
  | n + 1, bs, out =>
    match takeBits 1 bs with
    | none => none
    | some (final, bs) => match takeBits 2 bs with
      | none => none
      | some (typ, bs) =>
        let r :=
          if typ = 0 then
            let bs := bs.drop (bs.length % 8)
            match takeBits 16 bs with
            | none => none
            | some (len, bs) => match takeBits 16 bs with
              | none => none
              | some (nlen, bs) => if len + nlen ≠ 65535 then none else takeBytes len bs out
          else if typ = 1 then inflateCodes fixedLit fixedDist (bs.length + 1) bs out
          else if typ = 2 then
            match dynamicCodes bs with
            | none => none
            | some (lit, dist, bs) => inflateCodes lit dist (bs.length + 1) bs out
          else none
        match r with
        | none => none
        | some (bs, out) => if final = 1 then some (bs, out) else inflateBlocks n bs out

/-- The inflate engine: the stream ends within the last stored byte and gives exactly `raw` bytes (08 R225). -/
def inflate (stored : List Byte) (raw : Nat) : Option (List Byte) :=
  let bs := bitsOf stored
  match inflateBlocks (bs.length + 1) bs [] with
  | none => none
  | some (rest, out) => if 8 ≤ rest.length ∨ out.length ≠ raw then none else some out.reverse

end Sys2Proof.Machine
end

