-- ==== Sys2Proof/Machine/Operands.lean ====
section
/-!
DEFINITION. Pick words and route words, their fields, the kind of operation a heddle performs at a pick, and every
operand form: which slot an address names, which producer a read waits for, and what it returns (03 R63 to R76, R86,
R90; 04 R96, R103 to R106, R111, R118).
-/

namespace Sys2Proof.Machine

/-! ### Coordinates -/

/-- Harness number of a beam's harness. -/
def hnOf (gb h : Nat) : Nat := 64 * gb + h
/-- Heddle number of a harness's heddle. -/
def hkOf (hn k : Nat) : Nat := 32 * hn + k

/-- Beat depth D (02 R55). -/
def Dev.depth (d : Dev) : Nat := d.fld F.LOM_DEPTH_D

/-- The logical harnesses the image maps: 0 to U - 1 of each beam (07 R203). -/
def Loom.mapped (l : Loom) (hn : Nat) : Bool := hn % 64 < SMap.get 0 l.need (hn / 64)

/-- The beam lies in a bay between its leave point and its rejoin point (08 R244). -/
def Dev.beamOut (d : Dev) (gb : Nat) : Bool :=
  let b := SMap.get 0 d.loom.bay gb
  b != 0 && (d.reg R.LDR_BAY_STATUS).toNat.testBit (b - 1)

/-- The harness executes: it is mapped and its bay takes part (02 R24, 08 R244). -/
def Dev.active (d : Dev) (hn : Nat) : Bool := d.loom.mapped hn && !d.beamOut (hn / 64)

/-- The active harnesses, ascending. -/
def Dev.actives (d : Dev) : List Nat :=
  d.loom.need.flatMap (fun e => if d.beamOut e.1 then [] else (List.range (min e.2 64)).map (hnOf e.1))

/-! ### Pick words (03 R63, R64) -/

def PickW.tt (w : PickWord) : Nat := bitsN w.toNat 71 56
def PickW.op (w : PickWord) : Nat := bitsN w.toNat 71 64
def PickW.param (w : PickWord) : Nat := bitsN w.toNat 63 56
def PickW.xs (w : PickWord) : Nat := bitsN w.toNat 55 54
def PickW.tap (w : PickWord) : Bool := bitN w.toNat 53
def PickW.special (w : PickWord) : Bool := bitN w.toNat 52
/-- INV[i], with i = 0 for A to 3 for D. -/
def PickW.inv (w : PickWord) (i : Nat) : Bool := bitN w.toNat (48 + i)
/-- Operand field i: 0 A, 1 B, 2 C, 3 D. -/
def PickW.fieldOf (w : PickWord) (i : Nat) : Nat := bitsN w.toNat (47 - 12 * i) (36 - 12 * i)
/-- The result goes to the harness window (03 R69). -/
def PickW.toWin (w : PickWord) : Bool := bitN w.toNat 54
/-- The result drives a beam-out lane (03 R69). -/
def PickW.toLane (w : PickWord) : Bool := bitN w.toNat 55

/-- Opcodes (03 R74). -/
def opMRD : Nat := 1
def opMWR : Nat := 2
def opDRD : Nat := 3
def opDWR : Nat := 4
def opPUT : Nat := 5
def opEDGE : Nat := 6
def opFAIL : Nat := 8
def opBRK : Nat := 9

/-- Harness-wide opcodes (03 R74). -/
def hwOp (op : Nat) : Bool := op == opMRD || op == opMWR || op == opDRD || op == opDWR || op == opFAIL

/-- The PARAM bits that R74 names for an opcode, as compared by 03 R76. -/
def paramNamed (op param : Nat) : Nat := if op = opDRD then param % 2 else if op = opFAIL then param else 0

/-- What a heddle does at a pick, given the word of heddle 0 and its own (03 R67, R73, R76, R90). -/
inductive PickKind where
  | plain
  /-- joins the handshake of a harness-wide operation; `joined = false`: its word does not match -/
  | wide (joined : Bool)
  | put
  | edge
  | brk
  /-- a reserved encoding, with the reason of 03 R94 -/
  | reserved (reason : Nat)
  deriving DecidableEq, Repr

/-- A reserved encoding. -/
def PickKind.isReserved : PickKind → Bool
  | .reserved _ => true
  | _ => false

/-- The kind of a heddle's pick (03 R76, R84, R86, R90). A harness-wide opcode under a word of heddle 0 that is not
harness-wide raises hazard 0x225 with reason 3 and no 0x226, which R92 gives to harness-wide picks (DEDUCED, assumption
log 9). -/
def pickKind (w0 w : PickWord) : PickKind :=
  if PickW.special w0 && hwOp (PickW.op w0) then
    .wide (PickW.special w && PickW.op w == PickW.op w0 &&
      paramNamed (PickW.op w) (PickW.param w) == paramNamed (PickW.op w0) (PickW.param w0))
  else if !PickW.special w then .plain
  else if hwOp (PickW.op w) then .reserved 3
  else if PickW.op w = opPUT then (if PickW.fieldOf w 3 / 16 = 0 then .put else .reserved 1)
  else if PickW.op w = opEDGE then (if PickW.fieldOf w 0 < 0x800 then .edge else .reserved 2)
  else if PickW.op w = opBRK then .brk
  else .reserved 0

/-- The operand fields that heddle k reads at a pick of its kind (03 R68, R73, R74). -/
def fieldsRead (kd : PickKind) (op k : Nat) : List Nat :=
  match kd with
  | .plain => [0, 1, 2, 3]
  | .put => [0]
  | .edge => [0]
  | .brk => [0]
  | .reserved _ => []
  | .wide false => []
  | .wide true =>
    if op = opMRD then (if k < 18 then [0] else [])
    else if op = opMWR then (if k < 18 then [0] else []) ++ [1] ++ (if k = 0 then [2] else [])
    else if op = opDRD then [0]
    else [0, 1] ++ (if k = 0 then [2] else [])

/-! ### Stored words (03 R65, 14 R413, R420) -/

/-- Key of a stored word. -/
def jacKey (hn stream p : Nat) : Nat := (33 * hn + stream) * 2048 + p

/-- A pick word or route word as the loader has written it. -/
def Loom.stored (l : Loom) (hn stream p : Nat) : PickWord := SMap.get 0 l.jac (jacKey hn stream p)

/-- What a fetch of a jacquard word finds (14 R413: (80,72)). Unflipped words are clean. -/
def Loom.jacRead (l : Loom) (key : Nat) : EccResult :=
  let f := (SMap.get 0 l.jacFlip key).toNat
  if f = 0 then .clean 0 else eccRead 72 7 f

/-- A word as a fetch delivers it: corrected, or with what the code takes wrong (14 R415). -/
def Loom.fetched72 (l : Loom) (hn stream p : Nat) : PickWord :=
  l.stored hn stream p ^^^ BitVec.ofNat 72 (l.jacRead (jacKey hn stream p)).residue

/-- The pick word of heddle k at pick p. -/
def Loom.pick (l : Loom) (hn k p : Nat) : PickWord := l.fetched72 hn k p
/-- The route word of pick p (04 R103). -/
def Loom.route (l : Loom) (hn p : Nat) : PickWord := l.fetched72 hn 32 p

/-- Flipped bits of a stored word (14 R420). -/
def Loom.flips (l : Loom) (key : Nat) : Nat := popcount 80 (SMap.get 0 l.jacFlip key).toNat

/-- The lane selector of beam-in lane j: source harness and lane (04 R103). -/
def routeSel (w : PickWord) (j : Nat) : Nat × Nat := (bitsN w.toNat (9 * j + 8) (9 * j + 3), bitsN w.toNat (9 * j + 2) (9 * j))

/-! ### Slot-table entries (04 R109) -/

def Slot.valid (e : Word64) : Bool := bitN e.toNat 63
def Slot.kind (e : Word64) : Nat := bitsN e.toNat 62 61
def Slot.ring (e : Word64) : Nat := bitsN e.toNat 60 58
def Slot.pick (e : Word64) : Nat := bitsN e.toNat 57 47
def Slot.harness (e : Word64) : Nat := bitsN e.toNat 46 41
def Slot.bundle (e : Word64) : Nat := bitsN e.toNat 40 36
def Slot.link (e : Word64) : Nat := bitsN e.toNat 35 34
def Slot.flow (e : Word64) : Nat := bitsN e.toNat 33 22
def Slot.bmode (e : Word64) : Nat := bitsN e.toNat 21 21
def Slot.bdef (e : Word64) : Nat := bitsN e.toNat 20 13
def kINJECT : Nat := 0
def kEXTRACT : Nat := 1
def kWEFT_OUT : Nat := 2
def kWEFT_IN : Nat := 3

/-- Key of a slot-table entry, or without one of the beam's descriptor. -/
def tabKey (gb : Nat) (entry : Option Nat) : Nat :=
  match entry with
  | some e => 1024 * gb + e
  | none => 131072 + gb

/-- What a read of a table word finds (R413: (72,64)). -/
def Loom.tabRead (l : Loom) (key : Nat) : EccResult :=
  let f := (SMap.get 0 l.tabFlip key).toNat
  if f = 0 then .clean 0 else eccRead 64 7 f

/-- A slot-table entry as the loom reads it (14 R415). -/
def Loom.slotWord (l : Loom) (key : Nat) : Word64 := SMap.get 0 l.slots key ^^^ BitVec.ofNat 64 (l.tabRead key).residue

/-- The slot tables as the loom reads them. -/
def Loom.slotTables (l : Loom) : SMap Word64 :=
  l.tabFlip.foldl (fun m e => if e.1 < 131072 then SMap.put 0 m e.1 (l.slotWord e.1) else m) l.slots

/-- The valid slot-table entries of the device with their keys 1024 * GB + entry. -/
def Loom.entries (l : Loom) : SMap Word64 := l.slotTables.filter (fun e => Slot.valid e.2)
/-- The valid entries of one stop. -/
def Loom.entriesOf (l : Loom) (gb : Nat) : SMap Word64 := l.entries.filter (fun e => e.1 / 1024 == gb)

/-! ### Operand reads -/

/-- A read: what it waits on, as LOM_STALL_POS.WAIT codes it (02 R61; 0: nothing), and the value when it does not. -/
structure Rd where
  wait : Nat
  val : Bool
  deriving DecidableEq, Repr

/-- The producing pick of a harness-window read at pick q of row r, if there is one (04 R96). -/
def winProducer (q r : Nat) : Option Nat := if q ≤ r then none else some (r + 16 * ((q - 1 - r) / 16))
/-- The pull a beam-receive read at pick q of row r is assigned, if there is one (04 R106). -/
def brxPull (q r : Nat) : Option Nat := if q < r then none else some (r + 32 * ((q - r) / 32))

/-- Key of a shed entry. -/
def shedKey (hk bank i : Nat) : Nat := (2 * hk + bank) * 2048 + i

/-- BAY_FIRST of a beam (03 R71, 08 R245). -/
def Loom.bayFirst (l : Loom) (gb : Nat) : Bool :=
  l.beat == 0 || (let b := SMap.get 0 l.bay gb; b != 0 && l.rejoin.testBit (b - 1))

/-- The constants and beat-state window (03 R71, R72). -/
def Loom.constRead (l : Loom) (gb x : Nat) : Bool :=
  if x = 0xE01 then true
  else if x = 0xE02 then l.beat == 0
  else if x = 0xE03 then l.bayFirst gb
  else if 0xE40 ≤ x ∧ x < 0xE70 then l.beat.testBit (x - 0xE40)
  else false

/-- A reserved operand address (03 R72). -/
def reservedAddr (x : Nat) : Bool := (0xE04 ≤ x && x < 0xE40) || 0xE70 ≤ x

/-- The shed rule (02 R30): entry i read at pick p. -/
def Dev.shedRead (d : Dev) (hk p i : Nat) : Bool :=
  let cur := d.fld F.LOM_STATUS_BANK
  SMap.get false d.loom.shed (shedKey hk (if i < p then cur else 1 - cur) i)

/-- The read of operand address x by heddle k of harness hn at pick q (03 R70). -/
def Dev.readOp (d : Dev) (hn k q x : Nat) : Rd :=
  let l := d.loom
  if x < 0x800 then ⟨0, d.shedRead (hkOf hn k) q x⟩
  else if x < 0xA00 then
    let s := x - 0x800
    match winProducer q (s / 32) with
    | none => ⟨0, false⟩
    | some p =>
      if p < SMap.get 0 l.done (hkOf hn (s % 32)) then ⟨0, SMap.get false l.win (512 * hn + s)⟩ else ⟨1, false⟩
  else if x < 0xB00 then
    let s := x - 0xA00
    match brxPull q (s / 8) with
    | none => ⟨0, false⟩
    | some p => if p < SMap.get 0 l.pulls hn then ⟨0, SMap.get false l.brx (256 * hn + s)⟩ else ⟨2, false⟩
  else if x < 0xC00 then
    let b := (x - 0xB00) / 8
    let v := SMap.get 0 l.lrx (32 * hn + b)
    if 256 ≤ v then ⟨0, v.testBit (x % 8)⟩
    else if (l.entriesOf (hn / 64)).any (fun e => Slot.kind e.2 == kEXTRACT && Slot.harness e.2 == hn % 64 &&
        Slot.bundle e.2 == b) then ⟨3, false⟩
    else ⟨0, false⟩
  else if x < 0xD00 then ⟨0, SMap.get false l.portIn (256 * hn + (x - 0xC00))⟩
  else if x < 0xE00 then ⟨0, (SMap.get 0 l.wrx (32 * hn + (x - 0xD00) / 8)).testBit (x % 8)⟩
  else if x < 0xF00 then ⟨0, l.constRead (hn / 64) x⟩
  else ⟨0, false⟩

/-- The reads of a heddle's fields at a pick: the first wait met (0: none), and the inverted values as an index with
bit i for field i (03 R67, R73). -/
def Dev.readFields (d : Dev) (hn k q : Nat) (w : PickWord) : List Nat → Nat × Nat
  | [] => (0, 0)
  | i :: t =>
    let r := d.readOp hn k q (PickW.fieldOf w i)
    let (wt, v) := d.readFields hn k q w t
    (if r.wait ≠ 0 then r.wait else wt, v + b2n (r.val != PickW.inv w i) * 2 ^ i)

/-- The fields among `fs` whose loom-receive read waits, bit i for field i (03 R92, 0x223; 04 R111). -/
def Dev.loomWait (d : Dev) (hn k q : Nat) (w : PickWord) (fs : List Nat) : Nat :=
  fs.foldl (fun m i => if (d.readOp hn k q (PickW.fieldOf w i)).wait = 3 then m ||| 2 ^ i else m) 0

/-- Those fields are noted with the ones that waited before at this pick. -/
def Dev.noteWaits (d : Dev) (hn k q : Nat) (w : PickWord) (fs : List Nat) : Dev :=
  let m := d.loomWait hn k q w fs
  if m = 0 then d
  else d.onLoom (fun l => { l with waited := SMap.put 0 l.waited (hkOf hn k) (SMap.get 0 l.waited (hkOf hn k) ||| m) })

/-! ### Structures the loader builds from the streams (04 R97, R107; 08 R228) -/

/-- Heddle k reads, at some pick, an address in [lo, hi) that satisfies f: what its stream names (04 R97, R107). -/
def Dev.streamReads (d : Dev) (hn k lo hi : Nat) (f : Nat → Bool) : Bool :=
  (List.range d.depth).any (fun p =>
    let w := d.loom.stored hn k p
    let w0 := d.loom.stored hn 0 p
    (fieldsRead (pickKind w0 w) (PickW.op w0) k).any (fun i =>
      let x := PickW.fieldOf w i
      lo ≤ x && x < hi && f x))

/-- Reader mask: heddle k reads window column c (04 R97). -/
def Dev.readsColumn (d : Dev) (hn k c : Nat) : Bool := d.streamReads hn k 0x800 0xA00 (fun x => x % 32 == c)
/-- Heddle k reads the beam-receive window (04 R107 step 2). -/
def Dev.readsBrx (d : Dev) (hn k : Nat) : Bool := d.streamReads hn k 0xA00 0xB00 (fun _ => true)
/-- Puller set: harness r names harness h of its beam in a selector (04 R107 step 4). -/
def Dev.pullsFrom (d : Dev) (r h : Nat) : Bool :=
  (List.range d.depth).any (fun p => (List.range 8).any (fun j => (routeSel (d.loom.stored r 32 p) j).1 == h))

/-- Beam-switch latency L of a harness (04 R104). -/
def Dev.latOf (d : Dev) (hn : Nat) : Nat := d.fld (F.DRW_HCFG_LAT.at hn) + 2

end Sys2Proof.Machine
end

