-- ==== Sys2Proof/Machine/Ecc.lean ====
section
/-!
DEFINITION. What the readers of coded words find, and the counters of their corrections (14 R413 to R419; 02 R38, R40).
-/

namespace Sys2Proof.Machine

/-! ### Slot-table entries and deep window descriptors (R417) -/

/-- Key of the image cache's copy of a table word. -/
def tabCacheKey (key : Nat) : Nat := 2 ^ 30 + key

/-- The beam of a key of `cacheBad`. -/
def cacheBeam (key : Nat) : Nat :=
  let t := key - tabCacheKey 0
  if key < tabCacheKey 0 then key / 2048 / 33 / 64 else if t < 131072 then t / 1024 else t - 131072

/-- A table word is rewritten from the image cache, or stays where its copy is bad (R417, R418). -/
def Loom.tabRewrite (l : Loom) (key : Nat) : Loom :=
  if SMap.get false l.cacheBad (tabCacheKey key) then l else { l with tabFlip := SMap.del l.tabFlip key }

/-- Entry number of a table word, as ECC_CE_LAST gives it (R444; assumption log 31). -/
def tabPos (key : Nat) : Nat := key % 131072

/-! ### Shed parity and check words (02 R38, R40) -/

/-- Key of a shed group of a heddle's bank, and of a harness's check word of it. -/
def groupKey (owner bank g : Nat) : Nat := (2 * owner + bank) * 32 + g

/-- An odd number of the 64 bits is 1. -/
def oddBits (w : Word64) : Bool := popcount 64 w.toNat % 2 == 1

/-- The parity of a shed group is wrong. -/
def Loom.shedBad (l : Loom) (hn k bank g : Nat) : Bool := oddBits (SMap.get 0 l.shedFlip (groupKey (hkOf hn k) bank g))

/-- The check word's own parity is wrong. -/
def Loom.checkBad (l : Loom) (hn bank g : Nat) : Bool := oddBits (SMap.get 0 l.checkFlip (groupKey hn bank g))

/-- A heddle of the harness other than `k` has a parity error in the group; k = 32: any heddle. -/
def Loom.otherBad (l : Loom) (hn k bank g : Nat) : Bool := (List.range 32).any (fun j => j != k && l.shedBad hn j bank g)

/-- One bit of a 64-bit mask. -/
def bit64 (i : Nat) : Word64 := BitVec.ofNat 64 (2 ^ (i % 64))

/-- A stored bit of the loom flips. -/
def Loom.hit (l : Loom) : Hit → Loom
  | .word hn stream p flips =>
    let key := jacKey hn stream p
    { l with jacFlip := SMap.put 0 l.jacFlip key (SMap.get 0 l.jacFlip key ^^^ flips) }
  | .shed hn k bank i =>
    let key := groupKey (hkOf hn k) bank (i / 64)
    let e := shedKey (hkOf hn k) bank i
    { l with
      shed := SMap.put false l.shed e (!SMap.get false l.shed e)
      shedFlip := SMap.put 0 l.shedFlip key (SMap.get 0 l.shedFlip key ^^^ bit64 i) }
  | .check hn bank g i =>
    let key := groupKey hn bank g
    { l with checkFlip := SMap.put 0 l.checkFlip key (SMap.get 0 l.checkFlip key ^^^ bit64 i) }
  | .cache hn stream p => { l with cacheBad := SMap.put false l.cacheBad (jacKey hn stream p) true }
  | .slot gb entry flips =>
    let key := tabKey gb (some entry)
    { l with tabFlip := SMap.put 0 l.tabFlip key (SMap.get 0 l.tabFlip key ^^^ flips) }
  | .window gb flips =>
    let key := tabKey gb none
    { l with tabFlip := SMap.put 0 l.tabFlip key (SMap.get 0 l.tabFlip key ^^^ flips) }
  | .tableCache gb entry => { l with cacheBad := SMap.put false l.cacheBad (tabCacheKey (tabKey gb entry)) true }
  | .code _ _ => l
  | .gate _ _ _ => l

/-- A shed entry written: parity and check word take the new value. A check word with one wrong bit is corrected inline while
no group that it covers fails (02 R38; assumption log 9). -/
def Loom.writeShed (l : Loom) (hn k bank i : Nat) (v : Bool) : Loom :=
  let key := groupKey (hkOf hn k) bank (i / 64)
  let ck := groupKey hn bank (i / 64)
  let f := SMap.put 0 l.shedFlip key (SMap.get 0 l.shedFlip key &&& ~~~ bit64 i)
  { l with
    shed := SMap.put false l.shed (shedKey (hkOf hn k) bank i) v
    shedFlip := f
    checkFlip := if popcount 64 (SMap.get 0 l.checkFlip ck).toNat = 1 ∧ !({ l with shedFlip := f }).otherBad hn 32 bank (i / 64)
      then SMap.del l.checkFlip ck else l.checkFlip }

/-- A failed group is rebuilt from the check word and the other 31 heddles, unless the check word's parity is wrong or another
heddle's group fails too (02 R40). -/
def Loom.rebuild (l : Loom) (hn k bank g : Nat) : Option Loom :=
  if l.checkBad hn bank g || l.otherBad hn k bank g then none
  else
    let key := groupKey (hkOf hn k) bank g
    let now := SMap.get 0 l.shedFlip key
    let new := (List.range 32).foldl (fun x j =>
      if j = k then x else x ^^^ SMap.get 0 l.shedFlip (groupKey (hkOf hn j) bank g)) (SMap.get 0 l.checkFlip (groupKey hn bank g))
    some { l with
      shed := (List.range 64).foldl (fun m i =>
        let e := shedKey (hkOf hn k) bank (64 * g + i)
        if (now ^^^ new).toNat.testBit i then SMap.put false m e (!SMap.get false m e) else m) l.shed
      shedFlip := SMap.put 0 l.shedFlip key new }

/-- The failed groups of heddle k: bank and group (02 R42). -/
def Loom.failedGroups (l : Loom) (hn k : Nat) : List (Nat × Nat) :=
  if l.shedFlip.isEmpty then []
  else (List.range 64).filterMap (fun x => if l.shedBad hn k (x / 32) (x % 32) then some (x / 32, x % 32) else none)

/-- A corrected word of a class counted, with its position (14 R416). -/
def Dev.countCE (d : Dev) (cls pos : Nat) : Dev :=
  let f := F.ECC_CE_CNT_COUNT.at cls
  let n := satAdd 32 (d.fld f) 1
  let step := max 1 (d.fld F.ECC_CE_CFG_STEP)
  let d := (d.setFld f n).setReg (instKey R.ECC_CE_LAST cls) (BitVec.ofNat 32 pos)
  if n % step = 0 then d.event bECC 0 0x401 cls else d

/-- The position layout of 02 R46, bits [28:0]. -/
def posOf (gb h k p : Nat) : Nat := p * 2 ^ 18 + k % 32 * 2 ^ 13 + h * 2 ^ 7 + gb

/-- Code of a device address: the size k of its data, r, and the start of its coded unit (14 R413). -/
def eccUnit (a : Nat) : Nat × Nat × Nat :=
  if a < hbmEnd then (256, 9, a / 32 * 32)
  else if a < clusterBase then (32, 6, a / 4 * 4)
  else (8, 4, a)

/-- What a reader of the byte at an address finds; marks of `bad` are uncorrectable as they stand. -/
def Dev.memCheck (d : Dev) (a : Nat) : EccResult :=
  let (k, r, u) := eccUnit a
  if SMap.get false d.bad u then .uncorrectable
  else
    let m := SMap.get 0 d.chk u
    if m = 0 then .clean 0 else eccRead k r (m * 2 ^ k)

/-- n bytes hold an uncorrectable unit. -/
def Dev.memBad (d : Dev) (a n : Nat) : Bool := (List.range n).any (fun i => d.memCheck (a + i) == .uncorrectable)

/-- The coded units that n bytes at a touch, ascending. -/
def unitsAt (a n : Nat) : List Nat := ((List.range n).map (fun i => (eccUnit (a + i)).2.2)).eraseDups

/-- The coded units of n bytes at a written anew: their stored check bits are right again (14 R413). -/
def Dev.cleanUnits (d : Dev) (a n : Nat) : Dev :=
  (List.range n).foldl (fun d i =>
    let u := (eccUnit (a + i)).2.2
    { d with chk := SMap.del d.chk u, bad := SMap.del d.bad u }) d

/-! ### Check-bit test mode (R419) -/

/-- Class of ECC_TEST of an address. -/
def testClass (a : Nat) : Nat := if a < hbmEnd then 3 else if a < clusterBase then 0 else if a < clusterBase + 0x4000000 then 2 else 1

/-- The test mode acts on an access of a master that presents FIRMWARE. -/
def Dev.eccTest (d : Dev) (a : Nat) : Bool := d.fld F.ECC_TEST_EN == 1 && d.fld F.ECC_TEST_CLASS == testClass a

/-- Coded units written anew by a master that presents FIRMWARE: their check bits are right, or XORed with MASK in the test mode. -/
def Dev.encodeFw (d : Dev) (a n : Nat) : Dev :=
  let d := d.cleanUnits a n
  if d.eccTest a then
    { d with chk := ((List.range n).map (fun i => eccUnit (a + i))).foldl (fun m u =>
        SMap.put 0 m u.2.2 (d.fld F.ECC_TEST_MASK % 2 ^ (u.2.1 + 1))) d.chk }
  else d

/-- Coded units written anew by a master; `fw`: it presents FIRMWARE. -/
def Dev.encode (d : Dev) (fw : Bool) (a n : Nat) : Dev := if fw then d.encodeFw a n else d.cleanUnits a n

/-- Memory from a to b - 1 written anew by the loader or by the fail-map unit, which present FIRMWARE (R389): whole coded units. -/
def Dev.encodeRange (d : Dev) (a b : Nat) : Dev :=
  let d := { d with chk := d.chk.filter (fun e => e.1 < a || b ≤ e.1), bad := d.bad.filter (fun e => e.1 < a || b ≤ e.1) }
  let (k, r, _) := eccUnit a
  let m := d.fld F.ECC_TEST_MASK % 2 ^ (r + 1)
  if d.eccTest a ∧ m ≠ 0 then
    { d with chk := d.chk.filter (fun e => e.1 < a) ++
        (List.range ((b - a) / (k / 8))).map (fun i => (a + k / 8 * i, m)) ++ d.chk.filter (fun e => b ≤ e.1) }
  else d

/-- The check bits of the word that such a master reads are latched in the test mode. -/
def Dev.latchFw (d : Dev) (a : Nat) : Dev :=
  if d.eccTest a then
    let (k, r, u) := eccUnit a
    d.setFld F.ECC_TEST_RAW_CHK (eccCheck k r (leNat (d.bytes u (k / 8))) ^^^ SMap.get 0 d.chk u)
  else d

/-- The ECC class of a device address (14 R413). -/
def eccClass (a : Nat) : Nat := if a < clusterBase then 3 else if a < clusterBase + 0x4000000 then 5 else 4

/-- An uncorrectable granule counted, with its address (13 R406, R412). -/
def Dev.hbmUe (d : Dev) (a : Nat) : Dev :=
  ((d.addFld F.HBM_UE_CNT_COUNT 1).setReg R.HBM_ERR_ADDR_LO (BitVec.ofNat 32 (a / 32))).setFld F.HBM_ERR_ADDR_HI_ADDR_HI (a / 2 ^ 37)

/-- An uncorrectable word of a class counted (14 R444). -/
def Dev.countClassUe (d : Dev) (cls : Nat) : Dev := d.addFld (F.ECC_UE_CNT_COUNT.at cls) 1

/-- An uncorrectable word of memory that a reader meets is counted (14 R444; 13 R412). -/
def Dev.countUe (d : Dev) (a : Nat) : Dev := if a < hbmEnd then d.hbmUe a else d.countClassUe (eccClass a)

/-- Every uncorrectable unit of n bytes that a reader meets is counted. -/
def Dev.countUes (d : Dev) (a n : Nat) : Dev :=
  ((unitsAt a n).filter (fun u => d.memCheck u == .uncorrectable)).foldl Dev.countUe d

end Sys2Proof.Machine
end

