-- ==== Sys2Proof/Machine/Flags.lean ====
section
/-!
DEFINITION. The hazard flags of HAZARD checking (03 R92 to R94, 04 R99, 02 R46): which a read, a delivery or an
operation raises, held with the attempt.
-/

namespace Sys2Proof.Machine

/-- A hazard held with the attempt, whatever the checking mode (03 R93). -/
def Dev.addHaz (d : Dev) (z : Hazard) : Dev := d.onLoom (fun l => { l with hazards := l.hazards ++ [z] })

/-- A hazard that only HAZARD checking reports (03 R92). -/
def Dev.haz (d : Dev) (z : Hazard) : Dev := if d.hazard then d.addHaz z else d

/-- The data field of a hazard entry (03 R94). -/
def hazData (z : Hazard) (more : Bool) : Nat :=
  z.operand % 4 * 2 ^ 42 + z.detail % 2 ^ 12 * 2 ^ 30 + b2n more * 2 ^ 29 + z.pick % 2048 * 2 ^ 18 +
    z.k % 32 * 2 ^ 13 + z.h % 64 * 2 ^ 7 + z.gb % 128

/-- The data field of a loom event (02 R46). -/
def faultData (kind attempt repaired group pick k h gb : Nat) : Nat :=
  kind % 16 * 2 ^ 40 + attempt % 4 * 2 ^ 38 + repaired % 2 * 2 ^ 37 + group % 32 * 2 ^ 32 + posOf gb h k pick

/-- Hazard 0x220 of a window read at pick q of slot s (04 R99). -/
def Dev.windowOverrun (d : Dev) (hn q s : Nat) : Bool :=
  match winProducer q (s / 32) with
  | none => true
  | some p =>
    !PickW.toWin (d.loom.pick hn (s % 32) p) || SMap.get false d.loom.winLost (512 * hn + s)

/-- The hazards that the reads of a heddle raise at a pick (03 R92: 0x220, 0x222, 0x223). -/
def Dev.readHaz (d : Dev) (hn k kPos q : Nat) (w : PickWord) (fs : List Nat) : Dev :=
  fs.foldl (fun d i =>
    let x := PickW.fieldOf w i
    let z (c : Nat) : Hazard := ⟨hn / 64, c, q, hn % 64, kPos, i, x⟩
    if 0x800 ≤ x ∧ x < 0xA00 ∧ d.windowOverrun hn q (x - 0x800) then d.haz (z 0x220)
    else if reservedAddr x then d.haz (z 0x222)
    else if 0xB00 ≤ x ∧ x < 0xC00 ∧ (SMap.get 0 d.loom.waited (hkOf hn k)).testBit i then d.haz (z 0x223)
    else d) d

/-- The fetch of a heddle's operands at pick q: the window values it took count as fetched, and so does the pick
(04 R97, R99). -/
def Dev.markFetched (d : Dev) (hn k q : Nat) (w : PickWord) (fs : List Nat) : Dev :=
  let d := fs.foldl (fun d i =>
    let x := PickW.fieldOf w i
    if 0x800 ≤ x ∧ x < 0xA00 ∧ SMap.get 0 d.loom.winSt (512 * hn + (x - 0x800)) = 1 then
      d.onLoom (fun l => { l with winSt := SMap.put 0 l.winSt (512 * hn + (x - 0x800)) 2 })
    else d) d
  d.onLoom (fun l => { l with
    fetched := SMap.put 0 l.fetched (hkOf hn k) (q + 1), waited := SMap.del l.waited (hkOf hn k) })

/-- The sequence of samples an EDGE checks has this many rising transitions (03 R86). -/
def rises : List Bool → Nat
  | a :: b :: t => b2n (b && !a) + rises (b :: t)
  | _ => 0

end Sys2Proof.Machine
end

