-- ==== Sys2Proof/Machine/Loom.lean ====
section
/-!
DEFINITION. What happens inside an attempt of a beat: single-heddle picks, the harness handshake, lanes, pulls, the
loom rings (02 R25 to R39, 03 R67 to R90, 04 R96 to R118).
-/

namespace Sys2Proof.Machine

/-- A fault is flagged for the attempt in progress; the first one flagged counts (02 R38, R41, R60). -/
def Dev.flagFault (d : Dev) (f : FaultRec) : Dev :=
  if d.loom.phase = .running ∨ d.loom.phase = .complete then
    let d := d.onLoom (fun l => { l with phase := .faulted, fault := some f })
    let d := d.setReg R.LOM_LAST_FAULT (BitVec.ofNat 32 (posOf f.gb f.h f.k f.pick))
    let d := d.setReg R.LOM_LAST_FAULT_X (BitVec.ofNat 32 (d.loom.beat % 2 ^ 24 * 2 ^ 8 + f.kind % 16 * 2 ^ 4))
    d.setFld F.LOM_STATUS_STATE 3
  else d

/-- An uncorrectable memory word flags the attempt: the beam, the event code and its data (05 R151). -/
def Dev.flagMemory (d : Dev) (gb code data : Nat) : Dev :=
  if d.loom.phase = .running ∨ d.loom.phase = .complete then
    (d.onLoom (fun l => { l with phase := .faulted, memFault := some ⟨gb, code, data⟩ })).setFld F.LOM_STATUS_STATE 3
  else d

/-- The loom reads a slot-table entry or a descriptor for an access of a harness at a pick: a corrected one is counted; an
uncorrectable one is rewritten from the image cache while the access waits, or, where its copy is bad too, ends as a failed fix
(14 R413, R417; 02 R41). -/
def Dev.tabSeen (d : Dev) (key gb h p : Nat) : Dev :=
  match d.loom.tabRead key with
  | .clean _ => d
  | .corrected _ => d.countCE 2 (tabPos key)
  | .uncorrectable =>
    let d := d.countClassUe 2
    if SMap.get false d.loom.cacheBad (tabCacheKey key) then
      d.flagMemory gb 0x214 (faultData 7 (d.fld F.LOM_STATUS_ATTEMPT) (d.fld F.LOM_STATUS_REPAIRED) 0 p 0 h gb)
    else (d.onLoom (fun l => l.tabRewrite key)).event bLDR 0 0x402 0

/-! ### Delivery (03 R69, 04 R97, R107) -/

/-- All eight lanes of a harness have closed a pick (04 R110). -/
def Loom.lanesClosed (l : Loom) (hn p : Nat) : Bool :=
  (List.range 8).all (fun j => SMap.get 0 l.lanes ((2048 * hn + p) * 8 + j) != 0)

/-- An injection entry whose lanes have closed and whose bundle is not on the ring waits at its stop (04 R110). -/
def Loom.injWaits (l : Loom) (e : Nat × Word64) : Bool :=
  (Slot.kind e.2 == kINJECT || Slot.kind e.2 == kWEFT_OUT) && !SMap.get false l.injected e.1 &&
    l.lanesClosed (hnOf (e.1 / 1024) (Slot.harness e.2)) (Slot.pick e.2)

/-- Waiting injections of a stop on a ring (04 R110: at most 16 are queued). -/
def Loom.waiting (l : Loom) (gb ring : Nat) : Nat :=
  ((l.entriesOf gb).filter (fun e => Slot.ring e.2 == ring && l.injWaits e)).length

/-- The beam-out history of pick p0 of a harness has been taken by every pull and every injection (04 R107 step 4): the
injections are those of every PICK up to p0 (DEDUCED, assumption log 9), and one that waits in a queue that is full has not
taken it (R110). -/
def Dev.retired (d : Dev) (hn p0 : Nat) : Bool :=
  let l := d.loom
  let gb := hn / 64
  ((List.range (SMap.get 0 l.need gb)).all (fun h2 =>
    let r := hnOf gb h2
    !d.pullsFrom r (hn % 64) || p0 + d.latOf r < SMap.get 0 l.pulls r)) &&
  ((l.entriesOf gb).all (fun e =>
    !((Slot.kind e.2 == kINJECT || Slot.kind e.2 == kWEFT_OUT) && Slot.harness e.2 == hn % 64 && Slot.pick e.2 ≤ p0) ||
      SMap.get false l.injected e.1 || (l.lanesClosed hn (Slot.pick e.2) && l.waiting gb (Slot.ring e.2) < 16)))

/-- What a delivery of heddle k at pick p waits on, as LOM_STALL_POS.WAIT codes it; 0: nothing (03 R69, 04 R97, R107). -/
def Dev.deliverWait (d : Dev) (hn k p : Nat) (w : PickWord) : Nat :=
  if PickW.toWin w ∧ (List.range 32).any (fun k2 =>
      d.readsColumn hn k2 k && SMap.get 0 d.loom.fetched (hkOf hn k2) ≤ p) then 1
  else if PickW.toLane w ∧ 32 ≤ p ∧ !d.retired hn (p - 32) then 2
  else if PickW.tap w ∧ 64 ≤ (d.loom.taps.filter (fun t => t.gb == hn / 64)).length then 7
  else 0

/-- A result delivered: shed entry, harness window, tap FIFO; the pick is complete (03 R69, 02 R30, 04 R96). Lanes take
it when they close. -/
def Dev.deliverNow (d : Dev) (hn k p : Nat) (w : PickWord) (v : Bool) : Dev :=
  let hk := hkOf hn k
  let bank := d.fld F.LOM_STATUS_BANK
  let ws := 512 * hn + (p % 16 * 32 + k)
  d.onLoom (fun l => { l.writeShed hn k bank p v with
    win := if PickW.toWin w then SMap.put false l.win ws v else l.win
    winLost := if PickW.toWin w then SMap.put false l.winLost ws (SMap.get 0 l.winSt ws == 1) else l.winLost
    winSt := if PickW.toWin w then SMap.put 0 l.winSt ws 1 else l.winSt
    taps := if PickW.tap w then l.taps ++ [⟨hn / 64, hn % 64, k, p, v⟩] else l.taps
    held := SMap.del l.held hk
    done := SMap.put 0 l.done hk (p + 1) })

/-- A result delivered, or held while the delivery waits (04 R97, R107). -/
def Dev.deliver (d : Dev) (hn k p : Nat) (w : PickWord) (v : Bool) : Dev :=
  if d.deliverWait hn k p w = 0 then d.deliverNow hn k p w v
  else d.onLoom (fun l => { l with held := SMap.put 0 l.held (hkOf hn k) (1 + b2n v) })

/-- A held result delivered as soon as nothing holds it back (04 R97). -/
def Dev.deliverHeld (d : Dev) (gb h k : Nat) : Dev :=
  let hn := hnOf gb h
  let p := SMap.get 0 d.loom.done (hkOf hn k)
  let v := SMap.get 0 d.loom.held (hkOf hn k)
  if d.loom.phase = .running ∧ v ≠ 0 then d.deliver hn k p (d.loom.pick hn k p) (v == 2) else d

/-! ### Single-heddle picks -/

/-- A PUT (hazard 0x229 carries the slot in DETAIL and OPERAND 0: D is a literal and no operand is read from it; DEDUCED,
assumption log 9): the slot takes the OR of what is written; a second PUT raises 0x229 (03 R84, R85). -/
def Dev.putSlot (d : Dev) (hn k p : Nat) (w : PickWord) (v : Bool) : Dev :=
  let slot := PickW.fieldOf w 3 % 16 * 256 + PickW.param w
  let key := 4096 * hn + slot
  let old := SMap.get 0 d.loom.putStage key
  let d := d.onLoom (fun l => { l with putStage := SMap.put 0 l.putStage key (if v ∨ old = 2 then 2 else 1) })
  if old ≠ 0 then d.haz ⟨hn / 64, 0x229, p, hn % 64, k, 0, slot⟩ else d

/-- The hazard check of an EDGE at pick p on entry i (03 R86). -/
def Dev.edgeCheck (d : Dev) (hn k p : Nat) (w : PickWord) (res : Bool) : Dev :=
  let hk := hkOf hn k
  let i := PickW.fieldOf w 0 % 2048
  let cur := d.fld F.LOM_STATUS_BANK
  let inv := PickW.inv w 0
  let n := if i < p then min (PickW.param w % 16) i else 0
  let prev := SMap.get false d.loom.shed (shedKey hk (1 - cur) i) != inv
  let last := d.shedRead hk p i != inv
  let mid := (List.range n).map (fun j => SMap.get false d.loom.shed (shedKey hk cur (i - n + j)) != inv)
  let r := rises ([prev] ++ mid ++ [last])
  if p ≤ i ∨ r ≠ b2n res then d.haz ⟨hn / 64, 0x227, p, hn % 64, k, 0, r + (if p ≤ i then 32 else 0)⟩ else d

/-- The operation of a single-heddle pick on the values it read (index bit i for field i): its result and its effects
beside the delivery (03 R67, R84, R86, R89, R90). Hazard 0x225 carries OPERAND 0 for every reason (DEDUCED, assumption
log 9). -/
def Dev.evalSingle (d : Dev) (kd : PickKind) (hn k p : Nat) (w : PickWord) (idx : Nat) : Dev × Bool :=
  match kd with
  | .plain => (d, (PickW.tt w).testBit idx)
  | .put => (d.putSlot hn k p w (idx.testBit 0), idx.testBit 0)
  | .edge =>
    let cur := d.fld F.LOM_STATUS_BANK
    let prev := SMap.get false d.loom.shed (shedKey (hkOf hn k) (1 - cur) (PickW.fieldOf w 0)) != PickW.inv w 0
    let res := idx.testBit 0 && !prev
    (d.edgeCheck hn k p w res, res)
  | .brk =>
    let v := idx.testBit 0
    if d.hazard && v then
      ((d.onLoom (fun l => { l with brk := true })).addHaz ⟨hn / 64, 0x22A, p, hn % 64, k, 0, PickW.param w⟩, v)
    else (d, v)
  | .reserved reason => (d.haz ⟨hn / 64, 0x225, p, hn % 64, k, 0, PickW.op w * 16 + reason⟩, false)
  | .wide _ => (d, false)

/-- The heddle may work on its next pick: the attempt runs, the heddle is mapped and its bay takes part, and a pick is
left (02 R24, R25, R27). -/
def Dev.canPick (d : Dev) (gb h k : Nat) : Bool :=
  d.loom.phase == .running && h < 64 && k < 32 && gb < 128 && d.active (hnOf gb h) &&
    SMap.get 0 d.loom.done (hkOf (hnOf gb h) k) < d.depth

/-- The word of heddle k at pick p as the heddle fetches it: corrections are counted, an uncorrectable word is a pick
error of the attempt (02 R38, 14 R416, R421). `none`: the fault is flagged. -/
def Dev.fetchWord (d : Dev) (hn stream p : Nat) : Dev × Bool :=
  match d.loom.jacRead (jacKey hn stream p) with
  | .clean _ => (d, true)
  | .corrected _ => (d.countCE (if stream = 32 then 1 else 0) (posOf (hn / 64) (hn % 64) (stream % 32) p), true)
  | .uncorrectable =>
    ((d.countClassUe (if stream = 32 then 1 else 0)).flagFault ⟨if stream = 32 then 1 else 0, hn / 64, hn % 64, stream % 32, p, 0⟩, false)

/-- The entries of a group of CUR that stand: those the heddle has written in this attempt, and those at or above D. What an
attempt has still to rewrite takes no part in the parity (02 R38, R40). -/
def Dev.writtenIn (d : Dev) (hn k g : Nat) : Word64 :=
  BitVec.ofNat 64 (ofBits ((List.range 64).map (fun i =>
    decide (64 * g + i < SMap.get 0 d.loom.done (hkOf hn k)) || decide (d.depth ≤ 64 * g + i))))

/-- The shed groups that a pick reads, each with whether it lies in CUR: those of its shed operands; an EDGE whose entry has been written
in this beat also reads the entry in OTHER, and in HAZARD checking its samples in CUR (03 R73, R86). -/
def Dev.shedGroups (d : Dev) (hn p : Nat) (w : PickWord) (fs : List Nat) : List (Bool × Nat) :=
  let xs := (fs.map (PickW.fieldOf w)).filter (fun x => x < 0x800)
  xs.map (fun x => (decide (x < p), x / 64)) ++
    (if pickKind (d.loom.pick hn 0 p) w = .edge then
      (xs.filter (fun i => i < p)).flatMap (fun i =>
        let n := min (PickW.param w % 16) i
        (false, i / 64) :: (if d.hazard then (List.range n).map (fun j => (true, (i - n + j) / 64)) else []))
     else [])

/-- The first shed group that a pick reads whose parity is wrong: the fault it flags (02 R38). -/
def Dev.shedFault (d : Dev) (hn k p : Nat) (w : PickWord) (fs : List Nat) : Option FaultRec :=
  if d.loom.shedFlip.isEmpty then none
  else
    let cur := d.fld F.LOM_STATUS_BANK
    (d.shedGroups hn p w fs).findSome? (fun g =>
      if g.1 then (if oddBits (SMap.get 0 d.loom.shedFlip (groupKey (hkOf hn k) cur g.2) &&& d.writtenIn hn k g.2) then some ⟨2, hn / 64, hn % 64, k, p, g.2⟩ else none)
      else if d.loom.shedBad hn k (1 - cur) g.2 then some ⟨3, hn / 64, hn % 64, k, p, g.2⟩ else none)

/-- A single-heddle pick: fetch when every read is satisfied, evaluate, deliver (03 R67, R68, R73). A pick of a kind
that `want` does not name is not this step, and nothing happens. -/
def Dev.singlePick (d : Dev) (want : PickKind → Bool) (gb h k : Nat) : Dev :=
  let hn := hnOf gb h
  let hk := hkOf hn k
  let p := SMap.get 0 d.loom.done hk
  let w := d.loom.pick hn k p
  let kd := pickKind (d.loom.pick hn 0 p) w
  if !(d.canPick gb h k && want kd) then d
  else if SMap.get 0 d.loom.held hk ≠ 0 then d.deliverHeld gb h k
  else
    let fs := fieldsRead kd (PickW.op w) k
    let (wt, idx) := d.readFields hn k p w fs
    if wt ≠ 0 then d.noteWaits hn k p w fs
    else
      let (d, ok) := d.fetchWord hn k p
      if !ok then d
      else match d.shedFault hn k p w fs with
      | some f => d.flagFault f
      | none =>
        let d := (d.readHaz hn k k p w fs).markFetched hn k p w fs
        let (d, res) := d.evalSingle kd hn k p w idx
        d.deliver hn k p w res

/-- The kinds that are steps of their own. -/
def isReserved : PickKind → Bool
  | .reserved _ => true
  | _ => false

/-! ### The harness handshake (03 R75, R76) -/

/-- The harness-wide pick at which every heddle of a harness stands, if they all stand at one. -/
def Dev.widePick (d : Dev) (gb h : Nat) : Option Nat :=
  let hn := hnOf gb h
  let p := SMap.get 0 d.loom.done (hkOf hn 0)
  let w0 := d.loom.pick hn 0 p
  if d.canPick gb h 0 && PickW.special w0 && hwOp (PickW.op w0) && (List.range 32).all (fun k =>
      SMap.get 0 d.loom.done (hkOf hn k) == p && SMap.get 0 d.loom.held (hkOf hn k) == 0)
  then some p else none

/-- The fields heddle k reads at the harness-wide pick p. -/
def Dev.wideFields (d : Dev) (hn k p : Nat) : List Nat :=
  fieldsRead (pickKind (d.loom.pick hn 0 p) (d.loom.pick hn k p)) (PickW.op (d.loom.pick hn 0 p)) k

/-- The harness handshake closes once the last heddle has fetched the fields it reads; the values are latched for the
operation, which runs once for the harness (03 R75, R76). -/
def Dev.handshakeClose (d : Dev) (gb h : Nat) : Dev :=
  let hn := hnOf gb h
  match d.widePick gb h with
  | none => d
  | some p =>
    if SMap.get 0 d.loom.closed hn = p + 1 then d
    else if (List.range 32).any (fun k =>
        (d.readFields hn k p (d.loom.pick hn k p) (d.wideFields hn k p)).1 != 0) then
      (List.range 32).foldl (fun (e : Dev) k => e.noteWaits hn k p (d.loom.pick hn k p) (d.wideFields hn k p)) d
    else
      let d0 := d
      let (d, ok) := (List.range 32).foldl (fun (x : Dev × Bool) k =>
        if x.2 then x.1.fetchWord hn k p else x) (d, true)
      if !ok then d
      else match (List.range 32).findSome? (fun k => d.shedFault hn k p (d.loom.pick hn k p) (d.wideFields hn k p)) with
      | some f => d.flagFault f
      | none =>
        let d := (List.range 32).foldl (fun d k =>
          let w := d.loom.pick hn k p
          let fs := d.wideFields hn k p
          let v := (d0.readFields hn k p w fs).2
          let d := (d.readHaz hn k 0 p w fs).markFetched hn k p w fs
          d.onLoom (fun l => { l with operands := SMap.put 0 l.operands (hkOf hn k) (1 + v) })) d
        let d := d.onLoom (fun l => { l with closed := SMap.put 0 l.closed hn (p + 1) })
        match (List.range 32).find? (fun k =>
            pickKind (d.loom.pick hn 0 p) (d.loom.pick hn k p) == .wide false) with
        | some k => d.haz ⟨gb, 0x226, p, h, 0, 0, k⟩
        | none => d

/-- Operand bit i that heddle k brought to the handshake; a field it does not read contributes 0 (03 R76). -/
def Loom.latched (l : Loom) (hn k i : Nat) : Bool := (SMap.get 0 l.operands (hkOf hn k) - 1).testBit i

/-- The word whose bit k is operand bit i of heddle k, over n heddles. -/
def Loom.latchedWord (l : Loom) (hn i n : Nat) : Nat := ofBits ((List.range n).map (fun k => l.latched hn k i))

/-- The operation of the harness-wide pick is done: heddle k takes bit k of the word, or 0 when its word did not match,
and delivers it (03 R75, R76). -/
def Dev.wideDeliver (d : Dev) (hn p : Nat) (r : Nat) : Dev :=
  let d := d.onLoom (fun l => { l with closed := SMap.del l.closed hn })
  (List.range 32).foldl (fun d k =>
    let w := d.loom.pick hn k p
    d.deliver hn k p w (pickKind (d.loom.pick hn 0 p) w == .wide true && r.testBit k)) d

/-- The closed handshake of opcode `op` at a harness: its pick. -/
def Dev.closedPick (d : Dev) (gb h op : Nat) : Option Nat :=
  let c := SMap.get 0 d.loom.closed (hnOf gb h)
  if d.loom.phase = .running ∧ gb < 128 ∧ h < 64 ∧ c ≠ 0 ∧ PickW.op (d.loom.pick (hnOf gb h) 0 (c - 1)) = op then some (c - 1)
  else none

/-! ### Beam-out lanes and pulls (04 R100 to R107) -/

/-- The heddles that drive lane j of a harness at pick p. -/
def Loom.drivers (l : Loom) (hn j p : Nat) : List Nat :=
  [j, j + 8, j + 16, j + 24].filter (fun k => PickW.toLane (l.pick hn k p))

/-- Lane j closes pick p when its four heddles have completed it; two or more drivers merge (04 R100 to R102).
The HEDDLE of event 0x221 is the lowest driver, at a harness-wide pick too (DESIGN CHOICE, assumption log 9). -/
def Dev.laneClose (d : Dev) (gb h j p : Nat) : Dev :=
  let hn := hnOf gb h
  let key := (2048 * hn + p) * 8 + j
  if !(d.loom.phase == .running && gb < 128 && h < 64 && d.active hn && j < 8 && p < d.depth && SMap.get 0 d.loom.lanes key == 0 &&
      [j, j + 8, j + 16, j + 24].all (fun k => p < SMap.get 0 d.loom.done (hkOf hn k))) then d
  else
    let ks := d.loom.drivers hn j p
    let bank := d.fld F.LOM_STATUS_BANK
    let vs := ks.map (fun k => SMap.get false d.loom.shed (shedKey (hkOf hn k) bank p))
    let mode := d.fld (F.DRW_HCFG_LANE_MERGE.at hn)
    let v := if mode = 1 then (!ks.isEmpty) && vs.all id else vs.any id
    let d := d.onLoom (fun l => { l with lanes := SMap.put 0 l.lanes key (1 + b2n v) })
    if ks.length < 2 then d
    else
      let k0 := ks.headD 0
      let d := d.onLoom (fun l => { l with merges := l.merges ++ [⟨gb, h, p, j, k0⟩] })
      if mode = 0 ∨ mode = 1 then d.haz ⟨gb, 0x221, p, h, k0, 0, j⟩ else d.addHaz ⟨gb, 0x221, p, h, k0, 0, j⟩

/-- The pull of the next arrival pick q of a harness (04 R105, R107 steps 1 and 2). -/
def Dev.pull (d : Dev) (gb h : Nat) : Dev :=
  let hn := hnOf gb h
  let q := SMap.get 0 d.loom.pulls hn
  let lat := d.latOf hn
  let w := d.loom.route hn q
  let src (j : Nat) : Nat := (2048 * hnOf gb (routeSel w j).1 + (q - lat)) * 8 + (routeSel w j).2
  if !(d.loom.phase == .running && gb < 128 && h < 64 && d.active hn && q < d.depth) then d
  else if lat ≤ q ∧ (List.range 8).any (fun j => SMap.get 0 d.loom.lanes (src j) == 0) then d
  else if lat ≤ q ∧ (List.range 32).any (fun k => d.readsBrx hn k && SMap.get 0 d.loom.fetched (hkOf hn k) < q) then d
  else
    let (d, ok) := d.fetchWord hn 32 q
    if !ok then d
    else d.onLoom (fun l => { l with
      pulls := SMap.put 0 l.pulls hn (q + 1)
      brx := (List.range 8).foldl (fun m j =>
        SMap.put false m (256 * hn + (q % 32 * 8 + j)) (lat ≤ q && SMap.get 0 l.lanes (src j) == 2)) l.brx })

/-! ### Loom rings (04 R108 to R117) -/

/-- Physical stop of a logical beam (07 R204). -/
def Loom.pgb (l : Loom) (gb : Nat) : Nat := let v := SMap.get 0 l.bmap gb; if v = 0 then gb else v - 1

/-- Next stop of a ring (04 R108). -/
def ringNext (ring s : Nat) : Nat := if ring < 4 then (s + 1) % 128 else (s + 127) % 128

/-- The stop whose leaving link carries the gateway (04 R116, R117). -/
def gwStop (ring : Nat) : Nat := if ring < 4 then 127 else 0

/-- The bundle of a harness's eight lanes at a pick (04 R110). -/
def Loom.laneBundle (l : Loom) (hn p : Nat) : Nat :=
  ofBits ((List.range 8).map (fun j => SMap.get 0 l.lanes ((2048 * hn + p) * 8 + j) == 2))

/-- An INJECT or WEFT_OUT entry puts its bundle onto its ring once per attempt (04 R110, R117). -/
def Dev.ringInject (d : Dev) (gb e : Nat) : Dev :=
  let l := d.loom
  let s := l.slotWord (1024 * gb + e)
  if d.loom.phase == .running && gb < 128 && e < 1024 && Slot.valid s && d.active (hnOf gb (Slot.harness s)) &&
      l.injWaits (1024 * gb + e, s) then
    (d.tabSeen (1024 * gb + e) gb (Slot.harness s) (Slot.pick s)).onLoom (fun l => { l with
      injected := SMap.put false l.injected (1024 * gb + e) true
      bundles := l.bundles ++ [⟨Slot.ring s, Slot.kind s == kWEFT_OUT, if Slot.kind s = kWEFT_OUT then Slot.link s else 0,
        false, Slot.flow s, l.laneBundle (hnOf gb (Slot.harness s)) (Slot.pick s), l.pgb gb, l.pgb gb, []⟩] })
  else d

/-- An entry takes a bundle as it passes its stop: EXTRACT takes local bundles, WEFT_IN bundles of the gateway. -/
def takes (s : Word64) (b : Bundle) : Bool :=
  (Slot.kind s == kEXTRACT && !b.weft && Slot.ring s == b.ring && Slot.flow s == b.flow) ||
  (Slot.kind s == kWEFT_IN && b.fromGw && Slot.ring s == b.ring && Slot.flow s == b.flow && Slot.link s == b.link)

/-- An entry at the bundle's stop has still to copy it. -/
def Loom.untaken (l : Loom) (b : Bundle) : Bool :=
  l.entries.any (fun e => l.pgb (e.1 / 1024) == b.stop && takes e.2 b && !b.taken.contains e.1)

/-- A bundle moves one hop; a local bundle is removed where it was injected, a bundle of the gateway when it is back at
the gateway; a WEFT_OUT bundle waits at the gateway's stop (04 R110, R116, R117). -/
def Dev.hopBundle (d : Dev) (i : Nat) : Dev :=
  match d.loom.bundles[i]? with
  | none => d
  | some b =>
    if d.loom.untaken b && !d.beamOut ((List.range 128).findIdx (fun g => d.loom.pgb g == b.stop)) then d
    else if b.weft && !b.fromGw && b.stop == gwStop b.ring then d
    else
      let s := ringNext b.ring b.stop
      let gone := if b.fromGw then b.stop == gwStop b.ring else s == b.origin
      d.onLoom (fun l => { l with bundles :=
        if gone then l.bundles.eraseIdx i else l.bundles.set i { b with stop := s, taken := [] } })

/-- Heddles of a harness that stand at a pick whose loom-receive reads their bundles have not reached: those reads have waited (R111;
03 R92; assumption log 9). -/
def Dev.noteStanding (d : Dev) (hn : Nat) : Dev :=
  if d.loom.phase ≠ .running ∨ !d.active hn then d
  else (List.range 32).foldl (fun d k =>
    let p := SMap.get 0 d.loom.done (hkOf hn k)
    let w := d.loom.pick hn k p
    if d.depth ≤ p ∨ p < SMap.get 0 d.loom.fetched (hkOf hn k) then d
    else d.noteWaits hn k p w (fieldsRead (pickKind (d.loom.pick hn 0 p) w) (PickW.op (d.loom.pick hn 0 p)) k)) d

/-- An EXTRACT or WEFT_IN entry copies the bundle that stands at its stop (04 R111, R117). Bundles toward a bay that is
out are discarded there (R115). -/
def Dev.ringExtract (d : Dev) (gb e : Nat) : Dev :=
  let l := d.loom
  let key := 1024 * gb + e
  let s := l.slotWord key
  if !(gb < 128 && e < 1024 && Slot.valid s) then d
  else match l.bundles.findIdx? (fun b => b.stop == l.pgb gb && takes s b && !b.taken.contains key) with
  | none => d
  | some i =>
    let x := 32 * hnOf gb (Slot.harness s) + Slot.bundle s
    let d := if Slot.kind s = kEXTRACT then d.noteStanding (hnOf gb (Slot.harness s)) else d
    (d.tabSeen key gb (Slot.harness s) 0).onLoom (fun l =>
      let v := 256 + ((l.bundles[i]?).map Bundle.val).getD 0
      { l with
        bundles := l.bundles.modify i (fun b => { b with taken := key :: b.taken })
        lrx := if Slot.kind s = kEXTRACT ∧ !d.beamOut gb then SMap.put 0 l.lrx x v else l.lrx
        wstage := if Slot.kind s = kWEFT_IN ∧ !d.beamOut gb then SMap.put 0 l.wstage x v else l.wstage })

end Sys2Proof.Machine
end

