-- ==== Sys2Proof/Machine/Deep.lean ====
section
/-!
DEFINITION. Model memory: the harness-wide operations MRD, MWR, DRD, DWR and FAIL, the journals and their spill, deep
reads and line buffers, mailbox banks, the HBM hash and the occupancy monitors (03 R77 to R88, 05 R125 to R152).
-/

namespace Sys2Proof.Machine

/-! ### Reads through the codes -/

/-- A byte as a reader sees it: corrected where the code corrects it (14 R415). -/
def Dev.ebyte (d : Dev) (a : Nat) : Byte :=
  match d.memCheck a with
  | .corrected r => d.byte a ^^^ BitVec.ofNat 8 (r / 2 ^ (8 * (a - (eccUnit a).2.2)))
  | _ => d.byte a

/-- n bytes as a reader sees them. -/
def Dev.ebytes (d : Dev) (a n : Nat) : List Byte := (List.range n).map (fun i => d.ebyte (a + i))

/-- A 32-bit word as a reader sees it. -/
def Dev.eword (d : Dev) (a : Nat) : Word := BitVec.ofNat 32 (leNat (d.ebytes a 4))

/-- The byte's unit is corrected when read. -/
def Dev.memCorrected (d : Dev) (a : Nat) : Bool := (d.memCheck a).isCorrected

/-- A unit of n bytes is corrected when they are read. -/
def Dev.anyCorrected (d : Dev) (a n : Nat) : Bool := (List.range n).any (fun i => d.memCorrected (a + i))

/-- A corrected unit counted, with its position (14 R416, R444; HBM: 13 R404). -/
def Dev.countUnit (d : Dev) (u : Nat) : Dev :=
  if u < hbmEnd then d.addFld F.HBM_CE_CNT_COUNT 1 else d.countCE (eccClass u) (u / 4 % 2 ^ 32)

/-- A read of n bytes counts every unit that it corrects. -/
def Dev.countRead (d : Dev) (a n : Nat) : Dev :=
  if d.anyCorrected a n then ((unitsAt a n).filter d.memCorrected).foldl Dev.countUnit d else d

/-- A corrected unit written back: what a reader takes for its value stands, with its check bits (13 R404; 14 R418). -/
def Dev.settle (d : Dev) (u : Nat) : Dev := (d.setBytes u (d.ebytes u ((eccUnit u).1 / 8))).cleanUnits u 1

/-- Every corrected unit of n bytes written back; one that is uncorrectable stays as it is. -/
def Dev.settleAll (d : Dev) (a n : Nat) : Dev :=
  if d.anyCorrected a n then ((unitsAt a n).filter d.memCorrected).foldl Dev.settle d else d

/-! ### Deep windows (05 R131, R132) and the hash (05 R146, R147) -/

def Win.valid (w : Word64) : Bool := bitN w.toNat 63
def Win.mailbox (w : Word64) : Bool := bitN w.toNat 62
/-- Index width W. -/
def Win.width (w : Word64) : Nat := bitsN w.toNat 61 57 + 1
/-- Mailbox bank 0 to 31 of a TARGET = 1 window (05 R141). -/
def Win.bank (w : Word64) : Nat := 2 * bitsN w.toNat 56 53 + bitsN w.toNat 52 52
def Win.base (w : Word64) : Nat := bitsN w.toNat 29 0
/-- The device address of a window's word (05 R132). -/
def Win.addr (w : Word64) (idx : Nat) : Nat :=
  if Win.mailbox w then mailboxAddr (Win.bank w) (idx % 2 ^ Win.width w)
  else Win.base w * 256 + 4 * (idx % 2 ^ Win.width w)
/-- First device address of a TARGET = 0 window, and the first after it. -/
def Win.lo (w : Word64) : Nat := Win.base w * 256
def Win.hi (w : Word64) : Nat := Win.base w * 256 + 4 * 2 ^ Win.width w

/-- The deep window of a beam, as the loom reads its descriptor (14 R415). -/
def Loom.win64 (l : Loom) (gb : Nat) : Word64 := SMap.get 0 l.dwin gb ^^^ BitVec.ofNat 64 (l.tabRead (tabKey gb none)).residue

/-- The pseudo-channel of a device address below HBM's end (05 R146, R147). -/
def Loom.hbmPc (l : Loom) (a : Nat) : Nat :=
  if l.hashMode = 0 then
    let x := (a / 256 % 2 ^ 32) ^^^ l.hashSeed
    (bitsN x 7 0) ^^^ (bitsN x 15 8) ^^^ (bitsN x 23 16) ^^^ (bitsN x 31 24)
  else a / 0x600000000 % 8 * 32 + a % 0x600000000 / 256 % 32

/-- The stack of a device address below HBM's end. -/
def Dev.hbmStack (d : Dev) (a : Nat) : Nat := d.loom.hbmPc a / 32

/-- k accesses counted on a pseudo-channel (05 R149). -/
def Dev.occCount (d : Dev) (pc k : Nat) : Dev := d.onLoom (fun l => { l with occ := SMap.put 0 l.occ pc (SMap.get 0 l.occ pc + k) })

/-- An access of one 256-byte block or part of it counted on its pseudo-channel (05 R149). -/
def Dev.occAccess (d : Dev) (a : Nat) : Dev := if a < hbmEnd then d.occCount (d.loom.hbmPc a) 1 else d

/-- The blocks of aligned groups of 256 blocks: HASHED puts one of a group on each pseudo-channel, LINEAR eight on each of the 32
of the group's stack, which holds 393,216 groups (05 R146, R147). -/
def Dev.occGroups (d : Dev) (g0 g1 : Nat) : Dev :=
  if g1 ≤ g0 then d
  else if d.loom.hashMode = 0 then (List.range 256).foldl (fun (d : Dev) pc => d.occCount pc (g1 - g0)) d
  else (List.range 256).foldl (fun (d : Dev) pc =>
    let n := min g1 ((pc / 32 + 1) * 393216) - max g0 (pc / 32 * 393216)
    if n = 0 then d else d.occCount pc (8 * n)) d

/-- An access of n bytes counts one for each 256-byte block that it touches (05 R149). -/
def Dev.occRange (d : Dev) (a n : Nat) : Dev :=
  let b0 := a / 256
  let b1 := if n = 0 then b0 else (a + n - 1) / 256 + 1
  let m0 := min b1 ((b0 + 255) / 256 * 256)
  let m1 := max m0 (b1 / 256 * 256)
  let each := fun (d : Dev) b k => (List.range k).foldl (fun (d : Dev) i => d.occAccess ((b + i) * 256)) d
  each ((each d b0 (m0 - b0)).occGroups (m0 / 256) (m1 / 256)) m1 (b1 - m1)

/-! ### Beam memory (03 R77, R78; 05 R126) -/

/-- MRD: one word of the beam memory as committed before the beat in progress (03 R77). -/
def Dev.mrd (d : Dev) (gb h : Nat) : Dev :=
  match d.closedPick gb h opMRD with
  | none => d
  | some p =>
    let addr := d.loom.latchedWord (hnOf gb h) 0 18
    let a := beamMemAddr gb addr
    if d.memBad a 1 then
      (d.countUe a).flagMemory gb 0x410 (p * 2 ^ 31 + h * 2 ^ 25 + gb * 2 ^ 18 + addr)
    else (d.countRead a 1).wideDeliver (hnOf gb h) p (d.eword a).toNat

/-- Entries of a journal that are on chip. -/
def onChip (j : List JEntry) (gb : Nat) : Nat := (j.filter (fun e => e.gb == gb && !e.spilled)).length

/-- Deep-journal entries of a beam in the hub: of the attempt, and committed ones no controller has taken (05 R138). -/
def Loom.deepOnChip (l : Loom) (gb : Nat) : Nat := onChip l.dj gb + onChip (l.djOut.map Prod.snd) gb

/-- A journal of a beam is full: a write waits (05 R129). -/
def Dev.journalHeld (d : Dev) (gb : Nat) (deep : Bool) : Bool :=
  if deep then 64 ≤ d.loom.deepOnChip gb else 256 ≤ onChip d.loom.bj gb

/-- A write that arrives at a full journal: the spill of 32 entries is due from now on, and hazard 0x224 is raised once for the
pick (05 R129; 03 R92, R94). -/
def Dev.journalFull (d : Dev) (gb h p : Nat) (deep : Bool) : Dev :=
  let hn := hnOf gb h
  let met := SMap.get 0 d.loom.journalMet hn == p + 1
  let d := d.onLoom (fun l => { l with
    journalMet := SMap.put 0 l.journalMet hn (p + 1)
    spillDue := if l.spillDue.contains (2 * gb + b2n deep) then l.spillDue else l.spillDue ++ [2 * gb + b2n deep] })
  if met then d else d.haz ⟨gb, 0x224, p, h, 0, 0, b2n deep⟩

/-- MWR: a journaled write; while the journal is full the pick waits for a spill (03 R78, 05 R129). -/
def Dev.mwr (d : Dev) (gb h : Nat) : Dev :=
  match d.closedPick gb h opMWR with
  | none => d
  | some p =>
    let hn := hnOf gb h
    let data := d.loom.latchedWord hn 1 32
    if !d.loom.latched hn 0 2 then d.wideDeliver hn p data
    else if d.journalHeld gb false then d.journalFull gb h p false
    else
      let e : JEntry := ⟨gb, h, p, d.loom.latchedWord hn 0 18, BitVec.ofNat 32 data, false⟩
      (d.onLoom (fun l => { l with bj := l.bj ++ [e] })).wideDeliver hn p data

/-! ### Deep reads and writes (03 R80 to R82; 05 R132 to R142) -/

/-- Hazard 0x228: an index bit at or above the window's size is 1 (03 R92, R94). -/
def Dev.rangeHaz (d : Dev) (gb h p idx : Nat) : Dev :=
  if 2 ^ Win.width (d.loom.win64 gb) ≤ idx then d.haz ⟨gb, 0x228, p, h, 0, 0, Nat.log2 idx⟩ else d

/-- The word at a device address as a deep read of a beat sees it: what is committed before that beat, entries not yet
handed over included (03 R81, 05 R138). -/
def Dev.deepValue (d : Dev) (a beat : Nat) : Word :=
  d.loom.djOut.foldl (fun v x =>
    if x.1 < beat ∧ Win.addr (d.loom.win64 x.2.gb) x.2.addr = a then x.2.data else v) (d.eword a)

/-- A delayed read's word kept for the next beat (03 R80). -/
def Dev.keepDelayed (d : Dev) (r : DeepRead) (v : Nat) : Dev :=
  d.onLoom (fun l => { l with dly := SMap.put 0 l.dly ((2048 * hnOf r.gb r.h + r.pick) * 2 + r.beat % 2) v })

/-- A deep read is served with a word: a stalling one delivers, a delayed one is kept (03 R80). What returns for an aborted
attempt is discarded (02 R41). -/
def Dev.serve (d : Dev) (r : DeepRead) (w : Word) : Dev :=
  if r.aborted then d
  else if r.delayed then d.keepDelayed r (2 ^ 32 + w.toNat)
  else if d.loom.phase = .running then d.wideDeliver (hnOf r.gb r.h) r.pick w.toNat else d

/-- A deep read meets an uncorrectable word: it flags the attempt that would deliver it (05 R151). `mbx` selects event
0x412. -/
def Dev.serveBad (d : Dev) (r : DeepRead) (mbx : Bool) (data : Nat) : Dev :=
  if r.aborted then d
  else if r.delayed then d.keepDelayed r (2 ^ 33 + b2n mbx * 2 ^ 34 + data * 2 ^ 36)
  else d.flagMemory r.gb (if mbx then 0x412 else 0x411) data

/-- The block of an address is in the beam's line buffer and not stale (05 R135, R136). -/
def Loom.lineHit (l : Loom) (gb a : Nat) : Bool :=
  (SMap.get [] l.lines gb).contains (a / 256) && !l.stale.contains (gb, a / 256)

/-- A line used: it becomes the most recent of at most 256 (05 R135). An invalidation that has not arrived still waits for it
(R136). -/
def Dev.useLine (d : Dev) (gb a : Nat) : Dev :=
  d.onLoom (fun l => { l with
    lines := SMap.put [] l.lines gb ((a / 256 :: (SMap.get [] l.lines gb).filter (· != a / 256)).take 256) })

/-- Deep reads of a beam in flight, those of aborted attempts included (05 R139). -/
def Loom.inFlight (l : Loom) (gb : Nat) : Nat := (l.deepReads.filter (fun r => r.gb == gb)).length

/-- A deep read is issued: a line-buffer hit is served at once (05 R135), another read is in flight until it is served. -/
def Dev.issueRead (d : Dev) (r : DeepRead) : Dev :=
  let w := d.loom.win64 r.gb
  let a := Win.addr w r.idx
  let d := d.tabSeen (tabKey r.gb none) r.gb r.h r.pick
  let d := if r.delayed then d.keepDelayed r 0 else d
  if !Win.mailbox w ∧ d.loom.lineHit r.gb a then (d.useLine r.gb a).serve r (d.deepValue a r.beat)
  else d.onLoom (fun l => { l with deepReads := l.deepReads ++ [r] })

/-- DRD, stalling or delayed (03 R80). A read beyond 64 in flight waits (05 R139). -/
def Dev.drd (d : Dev) (gb h : Nat) : Dev :=
  match d.closedPick gb h opDRD with
  | none => d
  | some p =>
    let hn := hnOf gb h
    let idx := d.loom.latchedWord hn 0 32
    let dl := (PickW.param (d.loom.pick hn 0 p)).testBit 0
    let r : DeepRead := ⟨gb, h, p, idx, dl, d.loom.beat, false⟩
    if !Win.valid (d.loom.win64 gb) || d.loom.deepReads.contains r || 64 ≤ d.loom.inFlight gb then d
    else if !dl then (d.rangeHaz gb h p idx).issueRead r
    else
      let old := SMap.get 0 d.loom.dly ((2048 * hn + p) * 2 + (d.loom.beat + 1) % 2)
      let first := d.loom.bayFirst gb
      if first then
        let v := ofBits ((List.range 32).map (fun k => SMap.get false d.loom.initShed (hkOf hn k * 2048 + p)))
        ((d.rangeHaz gb h p idx).issueRead r).wideDeliver hn p v
      else if old = 0 then d
      else if old.testBit 33 then
        d.flagMemory gb (if old.testBit 34 then 0x412 else 0x411) (old / 2 ^ 36)
      else ((d.rangeHaz gb h p idx).issueRead r).wideDeliver hn p (old % 2 ^ 32)

/-- DWR: a journaled deep write; while the 64 entries are taken the pick waits for a spill (03 R82, 05 R129). -/
def Dev.dwr (d : Dev) (gb h : Nat) : Dev :=
  match d.closedPick gb h opDWR with
  | none => d
  | some p =>
    let hn := hnOf gb h
    let idx := d.loom.latchedWord hn 0 32
    let data := d.loom.latchedWord hn 1 32
    if !Win.valid (d.loom.win64 gb) then d
    else if !d.loom.latched hn 0 2 then (d.rangeHaz gb h p idx).wideDeliver hn p data
    else if d.journalHeld gb true then d.journalFull gb h p true
    else
      let e : JEntry := ⟨gb, h, p, idx, BitVec.ofNat 32 data, false⟩
      (((d.tabSeen (tabKey gb none) gb h p).rangeHaz gb h p idx).onLoom (fun l => { l with dj := l.dj ++ [e] })).wideDeliver hn p data

/-- FAIL: a record staged when enabled and not empty; while the beam's 32 staging places are full the pick waits
(03 R88, 11 R345). -/
def Dev.fail (d : Dev) (gb h : Nat) : Dev :=
  match d.closedPick gb h opFAIL with
  | none => d
  | some p =>
    let hn := hnOf gb h
    let addr := d.loom.latchedWord hn 0 32
    let bits := d.loom.latchedWord hn 1 32
    if !(d.loom.latched hn 0 2 && bits != 0) then d.wideDeliver hn p bits
    else if 32 ≤ (d.loom.failStage.filter (fun r => r.gb == gb)).length then d
    else
      let r : FailRec := ⟨PickW.param (d.loom.pick hn 0 p), addr, BitVec.ofNat 32 bits, d.loom.beat, p, gb, h⟩
      (d.onLoom (fun l => { l with failStage := l.failStage ++ [r] })).wideDeliver hn p bits

/-! ### Journals (05 R129, R130, R136 to R138) -/

/-- The first n on-chip entries of a beam marked as spilled. -/
def spillFirst : Nat → Nat → List JEntry → List JEntry
  | _, _, [] => []
  | n, gb, e :: t =>
    if n ≠ 0 ∧ e.gb = gb ∧ !e.spilled then { e with spilled := true } :: spillFirst (n - 1) gb t
    else e :: spillFirst n gb t

/-- The first spill of a beam after an image load writes event 0x420 (05 R129). -/
def Dev.firstSpill (d : Dev) (gb : Nat) (deep : Bool) : Dev :=
  if SMap.get false d.loom.spilledOnce gb then d
  else (d.onLoom (fun l => { l with spilledOnce := SMap.put false l.spilledOnce gb true })).event bHBM gb 0x420
    (gb + b2n deep * 128)

/-- The spill area of a beam's journal (05 R128). -/
def spillArea (gb : Nat) (deep : Bool) : Nat := spillBase + b2n deep * 0x10000000 + gb * 0x200000

/-- A spill that is due: the 32 oldest on-chip entries of the journal go to the spill area (05 R129), which
counts one access at its first block (DESIGN CHOICE, assumption log 9). -/
def Dev.spillBlock (d : Dev) (gb : Nat) (deep : Bool) : Dev :=
  if !d.loom.spillDue.contains (2 * gb + b2n deep) then d
  else
    let d := d.onLoom (fun l => { l with spillDue := l.spillDue.filter (· != 2 * gb + b2n deep) })
    let d := (d.occAccess (spillArea gb deep)).firstSpill gb deep
    if deep then
      let n := onChip (d.loom.djOut.map Prod.snd) gb
      (d.onLoom (fun l => { l with
        djOut := (l.djOut.map Prod.fst).zip (spillFirst 32 gb (l.djOut.map Prod.snd))
        dj := spillFirst (32 - n) gb l.dj })).addFld F.HBM_SPILL_CNT_DEEP 1
    else (d.onLoom (fun l => { l with bj := spillFirst 32 gb l.bj })).addFld F.HBM_SPILL_CNT_BEAM 1

/-- A journal that the waiting write of a harness has met full copies its 32 oldest entries to the spill area (05 R129). The
write that is at the journal meets it full now, if none has before. -/
def Dev.journalSpill (d : Dev) (gb h : Nat) : Dev :=
  let meet := fun (d : Dev) (p : Nat) (deep : Bool) =>
    if d.loom.latched (hnOf gb h) 0 2 ∧ d.journalHeld gb deep then (d.journalFull gb h p deep).spillBlock gb deep else d
  match d.closedPick gb h opMWR, d.closedPick gb h opDWR with
  | some p, _ => meet d p false
  | none, some p => meet d p true
  | none, none => d

/-- A beam has read back every entry it spilled in the committed beat (05 R130). -/
def Dev.readBack (d : Dev) (gb : Nat) : Dev :=
  if d.loom.readback.contains gb then
    (d.onLoom (fun l => { l with
      readback := l.readback.filter (· != gb) })).occCount (d.loom.hbmPc (spillArea gb false)) (d.loom.readback.count gb)
  else d

/-- Every deep read issued in any attempt of the beats up to b has been served (05 R137). -/
def Loom.readsServed (l : Loom) (b : Nat) : Bool := l.deepReads.all (fun r => b < r.beat)

/-- A word merged into its granule, which is corrected where it needs it (13 R404). -/
def Dev.mergeWord (d : Dev) (a : Nat) (w : Word) : Dev :=
  (if d.memCorrected a then d.setBytes (a / 32 * 32) (d.ebytes (a / 32 * 32) 32) else d).setWord a w

/-- The first committed deep write to HBM is taken by its controller, which merges it into its granule: a correctable granule
is counted, the write into one that is uncorrectable leaves it unchanged and writes event 0x414, whose row gives no data (05
R138; 13 R404, R412; 14 R421; assumption log 31). -/
def Dev.journalHandoff (d : Dev) : Dev :=
  match d.loom.djOut.findIdx? (fun x => !Win.mailbox (d.loom.win64 x.2.gb)) with
  | none => d
  | some i =>
    match d.loom.djOut[i]? with
    | none => d
    | some x =>
      if !d.loom.readsServed x.1 then d
      else
        let a := Win.addr (d.loom.win64 x.2.gb) x.2.addr
        let d := (d.onLoom (fun l => { l with djOut := l.djOut.eraseIdx i })).occAccess a
        if d.memBad a 1 then (d.countUe a).event bHBM (d.hbmStack a) 0x414 0
        else ((d.countRead a 1).mergeWord a x.2.data).encodeFw a 1

/-- The invalidations of a beam arrive: its stale lines are gone (05 R136). -/
def Dev.lineInvalidate (d : Dev) (gb : Nat) : Dev :=
  d.onLoom (fun l => { l with
    lines := SMap.put [] l.lines gb ((SMap.get [] l.lines gb).filter (fun b => !l.stale.contains (gb, b)))
    stale := l.stale.filter (fun x => x.1 != gb) })

/-- HBM returns a deep read: the line is filled and the read is served from it (05 R135, R140). -/
def Dev.deepReturn (d : Dev) (gb h p : Nat) : Dev :=
  match d.loom.deepReads.findIdx? (fun r => r.gb == gb && r.h == h && r.pick == p) with
  | none => d
  | some i =>
    match d.loom.deepReads[i]? with
    | none => d
    | some r =>
      let w := d.loom.win64 gb
      if Win.mailbox w then d
      else
        let a := Win.addr w r.idx
        let d := (d.onLoom (fun l => { l with deepReads := l.deepReads.eraseIdx i })).occAccess a
        if d.memBad a 1 then (d.countUe a).serveBad r false (gb * 2 ^ 33 + a / 32)
        else ((((d.countRead a 1).latchFw a).settleAll a 1).useLine gb a).serve r (d.deepValue a r.beat)

/-! ### Mailbox banks (05 R141 to R145) -/

/-- Each byte the old or the new one, as the free bits say (05 R143, UNDEF_BUSY). -/
def mixBytes (n : Nat) (old new : Word) : Word :=
  BitVec.ofNat 32 (leNat ((List.range 4).map (fun i =>
    if Config.freeBit (4 * n + i) then BitVec.ofNat 8 (new.toNat / 2 ^ (8 * i)) else BitVec.ofNat 8 (old.toNat / 2 ^ (8 * i)))))

/-- A collision counted; the first on the bank since the image load writes event 0x440 (05 R145). -/
def Dev.collision (d : Dev) (bank : Nat) : Dev :=
  let d := d.addFld F.CLM_MBX_COLL_COUNT 1
  if SMap.get false d.loom.mbxColl bank then d
  else (d.onLoom (fun l => { l with mbxColl := SMap.put false l.mbxColl bank true })).event bCLM 0 0x440 bank

/-- Port S BUSY of a bank (05 R145, R156). -/
def Dev.busyS (d : Dev) (bank : Nat) : Dev :=
  d.setReg R.CLM_MBX_BUSY (d.reg R.CLM_MBX_BUSY ||| BitVec.ofNat 32 (2 ^ bank))

/-- Loom-side BUSY of a bank: of the attempt in progress, or of committed work (05 R145). -/
def Dev.busyLoom (d : Dev) (bank : Nat) (committed : Bool) : Dev :=
  d.onLoom (fun l => { l with
    busyAtt := if committed then l.busyAtt else l.busyAtt ||| 2 ^ bank
    busyAcc := if committed then l.busyAcc ||| 2 ^ bank else l.busyAcc })

/-- The bank is in WRITE_FIRST mode (05 R143). -/
def Dev.writeFirst (d : Dev) (bank : Nat) : Bool := (d.reg R.CLM_MBX_MODE).toNat.testBit bank

/-- The accesses of a bank's last two cycles. -/
def Dev.mbxRecent (d : Dev) (bank : Nat) : List MbxAccess := (SMap.get MbxBank.empty d.loom.mbx bank).accs

/-- The bank's accesses replaced. -/
def Dev.setMbx (d : Dev) (bank : Nat) (x : MbxBank) : Dev := d.onLoom (fun l => { l with mbx := SMap.put MbxBank.empty l.mbx bank x })

/-- An access of the other port to a word, in the latest bank cycle or the one before (05 R143). -/
def Dev.mbxOther (d : Dev) (bank word : Nat) (portL write : Bool) : Option MbxAccess :=
  (d.mbxRecent bank).reverse.find? (fun x => x.portL != portL && x.word == word && x.write == write)

/-- An access arrives, so many bank cycles after the bank's last one: older accesses age. -/
def Dev.mbxArrive (d : Dev) (bank : Nat) (rel : MbxRel) : Dev :=
  match rel with
  | .same => d
  | .next =>
    let old := ((d.mbxRecent bank).filter (fun x => x.age == 0)).map (fun x => { x with age := 1 })
    d.setMbx bank { SMap.get MbxBank.empty d.loom.mbx bank with accs := old }
  | .apart => d.setMbx bank MbxBank.empty

/-- An access noted. -/
def Dev.mbxNote (d : Dev) (bank : Nat) (x : MbxAccess) : Dev := d.setMbx bank { accs := d.mbxRecent bank ++ [x], time := d.nowNs }

/-- The relation of a hub-side or shuttle access, whose command carries none: where the other port wrote the word within the
nanosecond, the time between the two is open and a free value says it; otherwise they are apart (assumption log 9). -/
def Dev.mbxFreeRel (d : Dev) (bank word : Nat) : Dev × MbxRel :=
  if (d.mbxRecent bank).any (fun x => x.portL && x.word == word) ∧ d.nowNs ≤ (SMap.get MbxBank.empty d.loom.mbx bank).time + 1 then
    ({ d with freeCtr := d.freeCtr + 2 },
      if Config.freeBit d.freeCtr then (if Config.freeBit (d.freeCtr + 1) then .same else .next) else .apart)
  else (d, .apart)

/-- BUSY of a collision in UNDEF_BUSY mode (05 R143, R145): on the reading port, and on both where the accesses fall into one cycle.
`readL`: port L reads; `dead`: for an attempt that was aborted, whose BUSY is discarded. -/
def Dev.mbxBusy (d : Dev) (bank : Nat) (readL dead both : Bool) : Dev :=
  let d := if readL then (if dead then d else d.busyLoom bank false) else if both then d.busyLoom bank true else d
  if !readL || both then d.busyS bank else d

/-- What a read of a word on one port returns (05 R143), with the collision's marks. In WRITE_FIRST mode it is the new word. `dead`: port L
reads for an attempt that was aborted. -/
def Dev.mbxRead (d : Dev) (bank word : Nat) (portL dead : Bool) (v : Word) : Dev × Word :=
  match d.mbxOther bank word portL true with
  | none => (d, v)
  | some x =>
    let d := d.collision bank
    if d.writeFirst bank then (d, x.new)
    else
      let d := d.mbxBusy bank portL dead (x.age == 0)
      ({ d with freeCtr := d.freeCtr + 1 }, mixBytes d.freeCtr x.old x.new)

/-- A write of a word meets a read of the word on the other port that was served in the same cycle: a collision whose read has
returned the old word (05 R143; assumption log 9). -/
def Dev.mbxMet (d : Dev) (bank word : Nat) (portL : Bool) : Dev :=
  match (d.mbxOther bank word portL false).filter (fun x => x.age == 0) with
  | none => d
  | some x =>
    let d := d.collision bank
    if d.writeFirst bank then d else d.mbxBusy bank x.portL x.aborted true

/-- The bytes of a word that a mask names, stored with their check bits. -/
def Dev.storeBytes (d : Dev) (fw : Bool) (a mask : Nat) (v : Word) : Dev :=
  if mask = 15 then (d.setWord a v).encode fw a 4
  else (List.range 4).foldl (fun d i =>
    if mask.testBit i then (d.setByte (a + i) (BitVec.ofNat 8 (v.toNat / 2 ^ (8 * i)))).encode fw (a + i) 1 else d) d

/-- A write of the bytes of a word that `mask` names, on one port: its data stands, but that of port L where both ports write the word
in one cycle (05 R144). `v`: the word after it; `fw`: the writer presents FIRMWARE. -/
def Dev.mbxWrite (d : Dev) (bank word : Nat) (portL fw : Bool) (mask : Nat) (v : Word) : Dev :=
  let a := mailboxAddr bank word
  let old := d.eword a
  match (d.mbxOther bank word portL true).filter (fun x => x.age == 0) with
  | none => ((d.mbxMet bank word portL).storeBytes fw a mask v).mbxNote bank ⟨portL, true, word, old, v, 0, false⟩
  | some x =>
    let d := (d.collision bank).busyS bank
    let stands := if portL then v else x.new
    let seen := (d.mbxRecent bank).map (fun y => if y.write ∧ y.word = word then { y with new := stands } else y)
    let d := d.setMbx bank { SMap.get MbxBank.empty d.loom.mbx bank with accs := seen }
    ((d.setWord a stands).encodeFw a 4).mbxNote bank ⟨portL, true, word, x.old, stands, 0, false⟩

/-- Port L serves a deep read of a mailbox window, the oldest of its beam (05 R141, R142). -/
def Dev.portLRead (d : Dev) (bank gb h p : Nat) (rel : MbxRel) : Dev :=
  match d.loom.deepReads.findIdx? (fun r => r.gb == gb) with
  | none => d
  | some i =>
    match d.loom.deepReads[i]? with
    | none => d
    | some r =>
      let w := d.loom.win64 gb
      if !(Win.mailbox w && Win.bank w == bank && r.h == h && r.pick == p) then d
      else
        let word := r.idx % 2 ^ Win.width w
        let a := mailboxAddr bank word
        let d := (d.onLoom (fun l => { l with deepReads := l.deepReads.eraseIdx i })).mbxArrive bank rel
        if d.memBad a 4 then
          (d.countUe a).serveBad r true (gb * 2 ^ 20 + bank / 2 * 2 ^ 16 + bank % 2 * 2 ^ 15 + word)
        else
          let v := d.deepValue a r.beat
          let (d, v) := ((d.countRead a 4).latchFw a).mbxRead bank word true r.aborted v
          (d.mbxNote bank ⟨true, false, word, v, v, 0, r.aborted⟩).serve r v

/-- Port L applies the first committed deep write to the bank, once the reads of its beat are served (05 R137, R141). -/
def Dev.portLWrite (d : Dev) (bank : Nat) (rel : MbxRel) : Dev :=
  match d.loom.djOut.findIdx? (fun x => Win.mailbox (d.loom.win64 x.2.gb) && Win.bank (d.loom.win64 x.2.gb) == bank) with
  | none => d
  | some i =>
    match d.loom.djOut[i]? with
    | none => d
    | some x =>
      if !d.loom.readsServed x.1 then d
      else
        let word := x.2.addr % 2 ^ Win.width (d.loom.win64 x.2.gb)
        ((d.onLoom (fun l => { l with djOut := l.djOut.eraseIdx i })).mbxArrive bank rel).mbxWrite bank word true true 15 x.2.data

/-- Port L serves one access (05 R141): a deep read of a beam's harness at a pick, or without one a committed write. -/
def Dev.portLServe (d : Dev) (bank : Nat) (read : Option (Nat × Nat × Nat)) (rel : MbxRel) : Dev :=
  match read with
  | some (gb, h, p) => d.portLRead bank gb h p rel
  | none => d.portLWrite bank rel

/-- Port S reads a word (05 R141, R143). -/
def Dev.portSRead (d : Dev) (bank word : Nat) (rel : MbxRel) : Dev × Word :=
  let d := d.mbxArrive bank rel
  let (d, v) := d.mbxRead bank word false false (d.eword (mailboxAddr bank word))
  (d.mbxNote bank ⟨false, false, word, v, v, 0, false⟩, v)

/-- Port S writes bytes of a word, which is `v` after it; in the cycle of a port L write of the word, the port L data stands (05 R143,
R144). -/
def Dev.portSWrite (d : Dev) (fw : Bool) (bank word mask : Nat) (v : Word) (rel : MbxRel) : Dev :=
  (d.mbxArrive bank rel).mbxWrite bank word false fw mask v

/-! ### Occupancy monitors (05 R149, R150) -/

/-- The pseudo-channel with the largest count, the lowest in a tie, with its count. -/
def occMax (m : SMap Nat) : Nat × Nat := m.foldl (fun b e => if b.2 < e.2 then e else b) (0, 0)

/-- An occupancy interval ends (05 R149, R150). -/
def Dev.occIntervalEnd (d : Dev) : Dev :=
  let m := d.loom.occ
  let total := m.foldl (fun t e => t + e.2) 0
  let b := occMax m
  let d := d.onLoom (fun l => { l with occLast := m, occ := [] })
  if total < 1024 then d.onLoom (fun l => { l with occRun := 0 })
  else
    let ratio := 4096 * b.2 / total
    let d := (d.setFld F.HBM_OCC_MAX_RATIO (min ratio 4095)).setFld F.HBM_OCC_MAX_PC b.1
    let run := if d.fld F.HBM_OCC_CFG_THRESH < ratio then d.loom.occRun + 1 else 0
    let d := d.onLoom (fun l => { l with occRun := run })
    if max 1 (d.fld F.HBM_OCC_CFG_INTERVAL_RUN) ≤ run ∧ d.fld F.HBM_OCC_STATUS_IMBAL = 0 then
      (d.setFld F.HBM_OCC_STATUS_IMBAL 1).event bHBM (b.1 / 32) 0x430 (b.1 + min ratio 4095 * 256)
    else d

end Sys2Proof.Machine
end

