-- ==== Sys2Proof/Machine/PortMap.lean ====
section
/-!
DEFINITION. Port maps (09 R277 to R280): what ties PUT slots, port-in slots, lane bits and GPIO pins; the codes of a
DATA frame; what port-in reads at a release.
-/

namespace Sys2Proof.Machine

def PM.kind (e : Word64) : Nat := bitsN e.toNat 63 60
/-- Harness number of a PUT or IN entry. -/
def PM.hn (e : Word64) : Nat := 64 * bitsN e.toNat 59 53 + bitsN e.toNat 52 47
/-- LANE entry: logical lane, BM1, DEFAULT and SAFE codes. -/
def PM.lane (e : Word64) : Nat := bitsN e.toNat 59 53
def PM.bm1 (e : Word64) : Nat := bitsN e.toNat 52 47
def PM.dflt (e : Word64) : Nat := bitsN e.toNat 46 43
def PM.safe (e : Word64) : Nat := bitsN e.toNat 42 39
/-- PUT entries: first slot. -/
def PM.putSlot (e : Word64) : Nat := bitsN e.toNat 46 35
/-- PUT_WARP: lane, first body bit, run. -/
def PM.putLane (e : Word64) : Nat := bitsN e.toNat 34 28
def PM.putBit (e : Word64) : Nat := bitsN e.toNat 27 15
def PM.putRun (e : Word64) : Nat := bitsN e.toNat 14 7 + 1
/-- PUT_GPIO: pin. -/
def PM.putPin (e : Word64) : Nat := bitsN e.toNat 34 29
/-- IN entries: first port-in slot. -/
def PM.inSlot (e : Word64) : Nat := bitsN e.toNat 46 39
/-- IN_WARP: lane, first response bit, run, INIT. -/
def PM.inLane (e : Word64) : Nat := bitsN e.toNat 38 32
def PM.inBit (e : Word64) : Nat := bitsN e.toNat 31 19
def PM.inRun (e : Word64) : Nat := bitsN e.toNat 18 11 + 1
def PM.inInit (e : Word64) : Bool := bitN e.toNat 10
/-- IN_GPIO: pin. -/
def PM.inPin (e : Word64) : Nat := bitsN e.toNat 38 33
/-- IN_STATUS: source. -/
def PM.inSrc (e : Word64) : Nat := bitsN e.toNat 38 30
/-- PUT_INIT: value and run. -/
def PM.initVal (e : Word64) : Bool := bitN e.toNat 34
def PM.initRun (e : Word64) : Nat := bitsN e.toNat 33 26 + 1

def kLANE : Nat := 1
def kPUT_WARP : Nat := 2
def kPUT_GPIO : Nat := 3
def kIN_WARP : Nat := 4
def kIN_GPIO : Nat := 5
def kIN_STATUS : Nat := 6
def kPUT_INIT : Nat := 7

/-- Physical lane of a logical lane under the charter's LANEMAP (08 R215). -/
def Dev.phys (d : Dev) (l : Nat) : Nat :=
  match d.charter with
  | some c => if c.laneMap.isEmpty then l else c.laneMap.getD l 0xFF
  | none => l

/-- Logical lane of a physical lane; 255 when none names it. -/
def Dev.logical (d : Dev) (ph : Nat) : Nat := ((List.range 128).find? (fun l => d.phys l == ph)).getD 255

/-- LANE entry of a logical lane. -/
def Dev.laneEntry (d : Dev) (l : Nat) : Option Word64 :=
  d.warp.ports.find? (fun e => PM.kind e == kLANE && PM.lane e == l)

/-- Logical lanes the port map names, in the order of their LANE entries. -/
def Dev.namedLanes (d : Dev) : List Nat := ((d.warp.ports.filter (fun e => PM.kind e == kLANE)).map PM.lane).eraseDups

/-- A physical lane is named by the port map of the loaded image. -/
def Dev.isNamed (d : Dev) (ph : Nat) : Bool := d.namedLanes.any (fun l => d.phys l == ph)

/-- A lane's record. -/
def Dev.lane (d : Dev) (ph : Nat) : Lane := SMap.get Lane.empty d.warp.lanes ph

/-- A lane's record changed. -/
def Dev.onLane (d : Dev) (ph : Nat) (f : Lane → Lane) : Dev :=
  { d with warp := { d.warp with lanes := SMap.put Lane.empty d.warp.lanes ph (f (d.lane ph)) } }

/-- State of a lane (09 R289). -/
def lnDisabled : Nat := 0
def lnDown : Nat := 1
def lnTraining : Nat := 2
def lnUp : Nat := 3
def lnRetrain : Nat := 4
def lnLoopback : Nat := 5
def Dev.laneState (d : Dev) (ph : Nat) : Nat := d.fld (F.WRP_LANE_STATUS_STATE.at ph)
def Dev.lanePwr (d : Dev) (ph : Nat) : Nat := d.fld (F.WRP_LANE_STATUS_PWR.at ph)

/-- A weft lane: lanes 128 to 143 of the model are weft lanes 0 to 15; their state is kept like that of warp lanes, in
instances no selector reaches (10 R291). -/
def isWeft (ph : Nat) : Bool := 128 ≤ ph

/-- A lane's state set; WRP_UP follows (09 R289). -/
def Dev.setLaneState (d : Dev) (ph s : Nat) : Dev :=
  let d := d.setFld (F.WRP_LANE_STATUS_STATE.at ph) s
  if isWeft ph then d
  else d.setFld ⟨R.WRP_UP0 + 4 * (ph / 32), ph % 32, ph % 32⟩ (b2n (s == lnUp))

/-- Body bits of a bay's PUT slots take the lane's SAFE code, other driven bits the committed slot values, the rest the
DEFAULT code (09 R260, R271, R280). -/
def Dev.frameBody (d : Dev) (l : Nat) : Nat :=
  match d.laneEntry l with
  | none => 0
  | some e =>
    let n := 32 * (PM.bm1 e + 1)
    let base := PM.dflt e * ((16 ^ n - 1) / 15)
    let puts := d.warp.ports.filter (fun x => PM.kind x == kPUT_WARP && PM.putLane x == l)
    let body := puts.foldl (fun b x => (List.range (PM.putRun x)).foldl (fun b i =>
      let bit := PM.putBit x + i
      let v := SMap.get false d.loom.puts (4096 * PM.hn x + PM.putSlot x + i)
      if b.testBit bit == v then b else b ^^^ 2 ^ bit) b) base
    puts.foldl (fun b x =>
      if d.beamOut (PM.hn x / 64) then (List.range (PM.putRun x)).foldl (fun b i =>
        let nib := (PM.putBit x + i) / 4
        b - bitsN b (4 * nib + 3) (4 * nib) * 16 ^ nib + PM.safe e * 16 ^ nib) b
      else b) body

/-- Response bit r of a response (09 R278). -/
def Resp.bit (x : Resp) (r : Nat) : Bool :=
  if r < 4096 then x.compare.testBit r
  else (bitsN (x.samples.getD ((r - 4096) / 16) 0).toNat 15 0).testBit ((r - 4096) % 16)

/-- The lane belongs to the lock set (06 R166): TRD_LOCKSET holds physical lanes. -/
def Dev.locked (d : Dev) (ph : Nat) : Bool := (d.reg (R.TRD_LOCKSET0 + 4 * (ph / 32))).toNat.testBit (ph % 32)

/-- The treadle runs PIN_LOCKED (06 R191). -/
def Dev.pinLocked (d : Dev) : Bool := d.fld F.TRD_CTL_MODE == 2

/-- The lane's response to the frame of a beat is delivered (06 R166). -/
def Dev.hasResp (d : Dev) (ph beat : Nat) : Bool := (d.lane ph).resps.any (fun r => r.beat == beat % 65536)

/-- The lowest lock-set lane whose response the release of the next beat awaits (06 R166, R168). -/
def Dev.lockMissing (d : Dev) : Option Nat :=
  let lag := d.fld F.TRD_PIN_CFG_LAG
  if !d.pinLocked || d.loom.beat < lag then none
  else (List.range 128).find? (fun ph => d.locked ph && !d.hasResp ph (d.loom.beat - lag))

/-- A response of the lane frozen: it and older ones are used, and every delivered one has been there at a release; FRESH shows
whether it was delivered since the previous release (09 R278, R289). -/
def Lane.freeze (x : Lane) (i : Option Nat) : Lane :=
  let r := i.bind (fun i => x.resps[i]?)
  { x with
    frozen := r, fresh := r.any (fun r => !r.seen)
    resps := x.resps.zipIdx.map (fun y => { y.1 with seen := true, used := y.1.used || i.any (fun i => decide (y.2 ≤ i)) }) }

/-- Port-in freezes a lane's response at the release of beat m: in PIN_LOCKED mode a lock-set lane takes the response to
beat m - LAG, or none and so its load values while m < LAG; another lane takes the latest one (06 R166, 09 R273, R278). -/
def Dev.freezeLane (d : Dev) (ph m : Nat) : Dev :=
  let lag := d.fld F.TRD_PIN_CFG_LAG
  d.onLane ph (fun x => x.freeze (
    if d.pinLocked ∧ d.locked ph then
      if m < lag then none else x.resps.findIdx? (fun r => r.beat == (m - lag) % 65536)
    else if x.resps.isEmpty then none else some (x.resps.length - 1)))

/-- Value of a loom GPIO input or a status source at a release (09 R278). -/
def Dev.statusSrc (d : Dev) (src : Nat) : Bool :=
  if src < 32 then d.loom.busyL.testBit src
  else
    let ph := d.phys (src % 128)
    if src / 128 = 1 then ((d.lane ph).frozen.map Resp.void).getD false
    else if src / 128 = 2 then (d.lane ph).fresh
    else d.laneState ph == lnUp

/-- Port-in slots that one entry fills at the release of a beat: slot key and value (09 R278). -/
def Dev.portInEntry (d : Dev) (e : Word64) : List (Nat × Bool) :=
  let base := 256 * PM.hn e + PM.inSlot e
  if PM.kind e = kIN_WARP then
    (List.range (PM.inRun e)).map (fun i =>
      (base + i, match (d.lane (d.phys (PM.inLane e))).frozen with
        | some r => r.bit (PM.inBit e + i)
        | none => PM.inInit e))
  else if PM.kind e = kIN_GPIO then [(base, d.plat.gpioIn.testBit (PM.inPin e))]
  else if PM.kind e = kIN_STATUS then [(base, d.statusSrc (PM.inSrc e))]
  else []

/-- Port-in frozen for the beat to be released (02 R28, 09 R278). -/
def Dev.freezePortIn (d : Dev) : Dev :=
  let d := d.namedLanes.foldl (fun d l => d.freezeLane (d.phys l) d.loom.beat) d
  let d := d.onLoom (fun l => { l with busyL := l.busyAcc, busyAcc := 0 })
  let slots := d.warp.ports.flatMap d.portInEntry
  d.onLoom (fun l => { l with portIn := slots.foldl (fun m x => SMap.put false m x.1 x.2) l.portIn })

/-- PUT slots at their load values (03 R85, 09 R278). -/
def Dev.loadPuts (d : Dev) (only : Nat → Bool) : Dev :=
  let base := d.loom.puts.filter (fun x => !only (x.1 / 4096 / 64))
  let puts := d.warp.ports.foldl (fun m e =>
    if PM.kind e = kPUT_INIT ∧ only (PM.hn e / 64) then
      SMap.putAll false m ((List.range (PM.initRun e)).map (fun i => 4096 * PM.hn e + PM.putSlot e + i)) (PM.initVal e)
    else m) base
  d.onLoom (fun l => { l with puts := puts })

/-- The charter's states of a GPIO pin (08 R218). -/
def Dev.gpioCfg (d : Dev) (pin : Nat) : GpioCfg :=
  match d.charter with
  | none => ⟨0, 0, 0, 0⟩
  | some c => c.gpio.getD pin ⟨0, 0, 0, 0⟩

/-- What a state of 08 R218 drives: 1 low, 2 high, else nothing. -/
def gpioLevel (c : Nat) : Option Bool := if c = 1 then some false else if c = 2 then some true else none

/-- PUT_GPIO entry that ties a pin (09 R277). -/
def Dev.putEntry (d : Dev) (pin : Nat) : Option Word64 :=
  d.warp.ports.find? (fun e => PM.kind e == kPUT_GPIO && PM.putPin e == pin)

/-- A loom pin of a valid image (08 R236): SAFE while the treadle is halted or the pin's bay is out (02 R44; 08 R244), else the PUT
slot that the port map ties; a pin that it does not tie stays at LOAD. -/
def Dev.loomPin (d : Dev) (pin : Nat) : Option Bool :=
  let c := d.gpioCfg pin
  match d.putEntry pin with
  | none => gpioLevel (if d.ts = tsHalted ∨ (d.ts = tsStarting ∧ d.trd.fromHalted) then c.safe else c.load)
  | some e =>
    if d.ts = tsHalted ∨ (d.ts = tsStarting ∧ d.trd.fromHalted) ∨ d.beamOut (PM.hn e / 64) then gpioLevel c.safe
    else some (SMap.get false d.loom.puts (4096 * PM.hn e + PM.putSlot e))

/-- A pin of the shuttles (17 R503; 15 R461). -/
def Dev.shuttlePin (d : Dev) (pin : Nat) : Option Bool :=
  let bit (r : Nat) := (d.reg (r + 4 * (pin / 32))).toNat.testBit (pin % 32)
  if d.plat.parked then gpioLevel (d.gpioCfg pin).safe
  else if bit R.IOC_SH_OE0 then some (bit R.IOC_SH_OUT0) else none

/-- What the device drives on a GPIO pin; none: the pin is an input under its BIAS (08 R218, R236; 17 R503). -/
def Dev.gpioOut (d : Dev) (pin : Nat) : Option Bool :=
  let c := d.gpioCfg pin
  if 48 ≤ pin ∨ d.plat.gpioStage = 0 then none
  else if d.plat.gpioStage = 1 then gpioLevel (d.plat.safeCopy.getD pin 0)
  else if c.user = 0 ∨ (d.ts = tsIdle ∧ !(c.user = 2 ∧ d.ldr.code)) then gpioLevel c.load
  else if c.user = 1 then d.loomPin pin
  else d.shuttlePin pin

end Sys2Proof.Machine
end

