-- ==== Sys2Proof/Machine/Warp.lean ====
section
/-!
DEFINITION. Warp lanes (09): training, frames, delivery and retry, responses, power states, loopbacks, messages.
-/

namespace Sys2Proof.Machine

/-! ### Blocks on the wire (R252) -/

/-- Sync headers of a frame block and of a control block; any other is a block error. -/
def syncFrame : Nat := 1
def syncControl : Nat := 2
def syncValid (h : Nat) : Bool := h == syncFrame || h == syncControl

/-- The self-synchronising scrambler x^58 + x^39 + 1: `s` holds the last 58 bits on the wire, the newest in bit 0. -/
def scrambleBits : Nat → List Bool → Nat × List Bool
  | s, [] => (s, [])
  | s, b :: t =>
    let o := b ^^ (s.testBit 38 ^^ s.testBit 57)
    let r := scrambleBits ((2 * s + b2n o) % 2 ^ 58) t
    (r.1, o :: r.2)

/-- The receiver's side of it. -/
def descrambleBits : Nat → List Bool → Nat × List Bool
  | s, [] => (s, [])
  | s, o :: t =>
    let r := descrambleBits ((2 * s + b2n o) % 2 ^ 58) t
    (r.1, (o ^^ (s.testBit 38 ^^ s.testBit 57)) :: r.2)

/-- The 130 bits of a block in the order on the wire: the sync header unscrambled, bit 0 first, then 16 payload bytes, byte 0 first and
each from its lowest bit, scrambled. -/
def blockBits (s sync : Nat) (payload : List Byte) : Nat × List Bool :=
  let r := scrambleBits s (bitsOf (payload.take 16))
  (r.1, sync.testBit 0 :: sync.testBit 1 :: r.2)

/-- Block lock after one more sync header; `past`: whether each of the last ones was valid, the newest first. Gained after 64 valid ones
in a row, lost when 16 of the last 64 are invalid. -/
def lockAfter (lock : Bool) (past : List Bool) : Bool :=
  if lock then (past.take 64).count false < 16 else 64 ≤ past.length && (past.take 64).all id

/-- Block lock over a run of sync headers: what BLOCK_LOCK_GAINED and BLOCK_LOCK_LOST report (assumption log 8). -/
def blockLock : Bool → List Bool → List Nat → Bool
  | lock, _, [] => lock
  | lock, past, h :: t =>
    let past := syncValid h :: past.take 63
    blockLock (lockAfter lock past) past t

/-! ### Training (R255 to R258, R268) -/

/-- Taps of preset P0 to P4: PRE, POST (R256); values above 4 act as 2 (R288). -/
def presetTaps (p : Nat) : Nat × Nat :=
  if p = 0 then (0, 0) else if p = 1 then (0, 8) else if p = 3 then (0, 16) else if p = 4 then (6, 14) else (4, 8)

/-- Transmit taps set; MAIN = 64 - PRE - POST (R256). -/
def Dev.setTaps (d : Dev) (ph pre post : Nat) : Dev :=
  ((d.setFld (F.WRP_LANE_TAPS_PRE.at ph) pre).setFld (F.WRP_LANE_TAPS_POST.at ph) post).setFld
    (F.WRP_LANE_TAPS_MAIN.at ph) (64 - pre - post)

/-- The lane may train: EN of the lane, or of its weft link (R288; 10 R291). -/
def Dev.laneEn (d : Dev) (ph : Nat) : Bool :=
  if isWeft ph then d.fld (F.WFT_LINK_CFG_EN.at ((ph - 128) / 4)) == 1 else d.fld (F.WRP_LANE_CFG_EN.at ph) == 1

/-- RATE of the lane's kind, as a TRAIN block codes it: 1 for 32.0 Gb/s (R255; 10 R291). -/
def Dev.laneRate (d : Dev) (ph : Nat) : Nat := 1 - (if isWeft ph then d.fld F.WFT_CTL_RATE else d.fld F.WRP_CTL_RATE)

/-- An event of a warp lane; weft lanes report through their link (10 R305). -/
def Dev.laneEvent (d : Dev) (ph code data : Nat) : Dev := if isWeft ph then d else d.event bWRP ph code data

/-- Transmitters are in electrical idle: before event 8 of 08 R210, and in device states LOW and OFF (15 R452). -/
def Dev.txMute (d : Dev) : Bool := d.plat.txIdle || d.fld F.PWR_STATUS_DEV != 0

/-- The PRBS bit errors of a lane since they were last counted: while a loopback carries PRBS31 their number is the wire's, a free value
(R281, R289; assumption log 8). -/
def Dev.prbsErrors (d : Dev) (ph : Nat) : Dev :=
  if d.laneState ph = lnLoopback ∧ d.fld (F.WRP_LANE_LB_PRBS.at ph) = 1 then
    { d.addFld (F.WRP_LANE_PRBS_ERR_COUNT.at ph) (Config.freeWord d.freeCtr).toNat with freeCtr := d.freeCtr + 1 }
  else d

/-- A full training starts at event 1 of R257, with the rate then configured (R288). A lane that is not enabled is idle and deaf
(R251); while transmitters are in electrical idle an enabled one is DOWN (R257). A loopback that carried PRBS31 ends (R281). -/
def Dev.startTraining (d : Dev) (ph : Nat) : Dev :=
  let d := d.prbsErrors ph
  if !d.laneEn ph then (d.setLaneState ph lnDisabled).onLane ph (fun x => { x with lock := false, nak := false, remoteLoop := false, boot := false })
  else if d.txMute then d.setLaneState ph lnDown
  else
    let t := presetTaps (d.fld (F.WRP_LANE_CFG_PRESET.at ph))
    ((d.setLaneState ph lnTraining).setTaps ph t.1 t.2).onLane ph (fun x => { x with
      phase := 0, phase2 := 0, resp := 0, req := 0, farResp := 0, remoteLoop := false, rate := d.laneRate ph })

/-- A fast retrain starts: the taps stay (R258). -/
def Dev.startRetrain (d : Dev) (ph : Nat) : Dev :=
  ((d.setLaneState ph lnRetrain).setFld (F.WRP_LANE_EVENTS_RETRAIN.at ph) 1).onLane ph (fun x => { x with
    phase := 0, phase2 := 0, resp := 0, req := 0, farResp := 0 })

/-- Queued frames renumbered from 0 (R268). -/
def renumber : Nat → List WFrame → List WFrame
  | _, [] => []
  | n, f :: t => { f with seq := n % 256 } :: renumber (n + 1) t

/-- Every frame of a queue is on the wire or has been (R284). -/
def allSent (q : List WFrame) : List WFrame := q.map (fun f => { f with sent := true })

/-- The lane is UP: after a full training the numbers start anew, after a fast retrain they go on (R257, R258, R268). Its queued
frames are sent, except in a power state, which sends IDLE blocks only or nothing (R282). -/
def Dev.laneUp (d : Dev) (ph : Nat) : Dev :=
  let full := d.laneState ph == lnTraining
  let sent := d.lanePwr ph == 0
  let d := (d.setLaneState ph lnUp).onLane ph (fun x =>
    let q := if sent then allSent x.txq else x.txq
    if full then { x with
      failLogged := false, boot := false, episodes := 0, txq := renumber 0 q, nextSeq := x.txq.length % 256, lastAcc := 255, nak := false }
    else { x with failLogged := false, boot := false, episodes := 0, txq := q })
  d.laneEvent ph (if full then 0x502 else 0x504) ph

/-- The answer to a tap request: RESP, and the taps applied once (R256). PRE [1:0], POST [3:2], PRESET [6:4] of REQ. -/
def Dev.tapRequest (d : Dev) (ph req : Nat) : Dev :=
  let ln := d.lane ph
  if req % 128 = 0 then d.onLane ph (fun x => { x with resp := 0 })
  else if ln.resp ≠ 0 then d
  else
    let preset := bitsN req 6 4
    if preset ≠ 0 then
      let t := presetTaps (preset - 1)
      (d.setTaps ph t.1 t.2).onLane ph (fun x => { x with resp := 16 })
    else
      let pre := d.fld (F.WRP_LANE_TAPS_PRE.at ph)
      let post := d.fld (F.WRP_LANE_TAPS_POST.at ph)
      let step (c v : Nat) : Nat := if c = 1 then v + 1 else if c = 2 then v - 1 else v
      let bad (c v hi : Nat) : Bool := (c == 1 && hi ≤ v) || (c == 2 && v == 0)
      let cp := bitsN req 1 0
      let cq := bitsN req 3 2
      let preLim := bad cp pre 12 || (cp == 1 && 32 < pre + 1 + post)
      let pre' := if preLim then pre else step cp pre
      let postLim := bad cq post 24 || (cq == 1 && 32 < pre' + post + 1)
      let post' := if postLim then post else step cq post
      let code (c : Nat) (lim : Bool) : Nat := if c = 0 ∨ c = 3 then 0 else if lim then 2 else 1
      (d.setTaps ph pre' post').onLane ph (fun x => { x with resp := code cp preLim + 4 * code cq postLim })

/-- REQ of this end's own tap requests (R256): held until the far end reports, then 0 until the far end's RESP is 0 again; `ask` is the
request that its receiver makes next, while its eye is not open. -/
def Lane.nextReq (x : Lane) (t : Train) (eye : Bool) (ask : Nat) : Nat :=
  if x.req ≠ 0 then (if t.resp % 32 = 0 then x.req else 0)
  else if x.phase = 1 ∧ !eye ∧ t.resp % 32 = 0 then ask % 128 else 0

/-- A TRAIN block (R255 to R258). `eye`: this end's receiver meets its own criterion; `ask`: the taps it asks for where it does not. In
a fast retrain an end whose eye is not open enters PHASE 1, as the far end may, and full training goes on from event 3. -/
def Dev.trainBlock (d : Dev) (ph : Nat) (t : Train) (lane : Nat) (eye : Bool) (ask : Nat) : Dev :=
  let st := d.laneState ph
  if st ≠ lnTraining ∧ st ≠ lnRetrain then d
  else
    let d := d.tapRequest ph t.req
    let deep := st = lnRetrain ∧ (t.phase = 1 ∨ ((d.lane ph).lock ∧ !eye))
    let d := if deep then d.setLaneState ph lnTraining else d
    let d := d.onLane ph (fun x =>
      let mine :=
        if !x.lock then 0
        else if deep then 1
        else if st = lnRetrain then 2
        else if x.phase = 0 then (if t.rate = x.rate then 1 else 0)
        else if x.phase = 1 ∧ eye then 2 else x.phase
      { x with phase := mine, phase2 := if t.phase = 2 then min 16 (x.phase2 + 1) else 0, req := { x with phase := mine }.nextReq t eye ask
               farResp := t.resp, farPre := t.pre, farPost := t.post, farMain := t.main, farLane := lane })
    if (d.lane ph).phase = 2 ∧ (d.lane ph).phase2 = 16 then d.laneUp ph else d

/-- Bit 1 of PWR, the receiver's sleep, ends with block lock after a wake; in L0 frames resume (R282). -/
def Dev.rxAwake (d : Dev) (ph : Nat) : Dev :=
  if (d.lane ph).rxWaits then
    let tx := d.lanePwr ph % 2
    (d.setFld (F.WRP_LANE_STATUS_PWR.at ph) tx).onLane ph (fun x => { x with
      rxWaits := false, txq := if tx = 0 ∧ d.laneState ph = lnUp then allSent x.txq else x.txq })
  else d

/-- Bit 0 of PWR, the transmitter's sleep, ends when the far end shows RX_READY; in L0 frames resume (R282). -/
def Dev.txAwake (d : Dev) (ph : Nat) : Dev :=
  if (d.lane ph).txWaits then
    let rx := d.lanePwr ph / 2
    (d.setFld (F.WRP_LANE_STATUS_PWR.at ph) (2 * rx)).onLane ph (fun x => { x with
      txWaits := false, txq := if rx = 0 ∧ d.laneState ph = lnUp then allSent x.txq else x.txq })
  else d

/-- Block lock gained by a lane that listens: it is enabled, and its receiver is on (R251, R252, R282). -/
def Dev.lockGained (d : Dev) (ph : Nat) : Dev :=
  if !d.laneEn ph ∨ (2 ≤ d.lanePwr ph ∧ !(d.lane ph).rxWaits) then d
  else (d.onLane ph (fun x => { x with lock := true })).rxAwake ph

/-- Block lock lost: a lane that is UP retrains (R258, R285). -/
def Dev.lockLost (d : Dev) (ph : Nat) : Dev :=
  let d := d.onLane ph (fun x => { x with lock := false, rxReady := false })
  if d.laneState ph = lnUp ∧ d.lanePwr ph < 2 then (d.startRetrain ph).laneEvent ph 0x503 ph
  else if d.laneState ph = lnTraining then d.onLane ph (fun x => { x with phase := 0, phase2 := 0 })
  else d

/-- 30 ms have passed since training started (R257). -/
def Dev.trainingTimeout (d : Dev) (ph : Nat) : Dev :=
  if d.laneState ph ≠ lnTraining then d
  else
    let ln := d.lane ph
    let d := (d.setLaneState ph lnDown).setFld (F.WRP_LANE_EVENTS_DOWN.at ph) 1
    let d := if ln.failLogged then d else d.laneEvent ph 0x501 (ph + ln.phase * 256)
    d.onLane ph (fun x => { x with failLogged := true, boot := false })

/-- Every 100 ms a lane that is DOWN trains again (R257). -/
def Dev.trainingRetry (d : Dev) (ph : Nat) : Dev := if d.laneState ph = lnDown ∧ d.fld F.PWR_STATUS_DEV = 0 then d.startTraining ph else d

/-- 200 µs have passed since the fast retrain started (R258). -/
def Dev.retrainTimeout (d : Dev) (ph : Nat) : Dev := if d.laneState ph = lnRetrain then d.startTraining ph else d

/-! ### Frames, acknowledgement and resend (R259 to R272) -/

/-- STATUS of the device (R259). -/
def Dev.frameStatus (d : Dev) : Nat :=
  if d.trd.recovery ≠ 0 then 4
  else if d.ts = tsHalted then 2
  else if d.ts = tsIdle ∨ d.ts = tsArmed then 3
  else if d.ts = tsStarting then (if d.trd.fromHalted then 2 else 3)
  else if d.ts = tsWaiting ∧ d.lockMissing.isSome then 1
  else 0

/-- A frame enters the transmit queue with the next SEQ; a lane that is UP and in L0 sends it (R267, R270, R282). -/
def Dev.queueFrame (d : Dev) (ph : Nat) (f : WFrame) : Dev :=
  let out := d.laneState ph == lnUp && d.lanePwr ph == 0
  d.onLane ph (fun x => { x with
    txq := x.txq ++ [{ f with seq := x.nextSeq, sent := out }], nextSeq := (x.nextSeq + 1) % 256 })

/-- Frames in a lane's transmit queue: those held, and on a named lane the one of the beat that is assembled and waits for its commit
(R270; 02 R34). -/
def Dev.txqLen (d : Dev) (ph : Nat) : Nat := (d.lane ph).txq.length + b2n (d.loom.phase == .complete && d.isNamed ph)

/-- The header of a frame as it goes out (R259): the acknowledgement of this end stands in it. -/
def Dev.frameHead (d : Dev) (ph : Nat) (f : WFrame) : Nat :=
  f.kind % 16 * 2 ^ 60 + f.seq % 256 * 2 ^ 52 + (d.lane ph).lastAcc % 256 * 2 ^ 44 + b2n (d.lane ph).nak * 2 ^ 43 +
    (if f.kind = 3 then 0 else f.bm1 % 64 * 2 ^ 36) + (if f.kind = 3 then f.body / 2 ^ 2048 % 64 * 2 ^ 28 else 0) +
    f.status % 256 * 2 ^ 20 + (if f.kind = 3 then 0 else f.beat % 65536)

/-- Bytes of a frame's body (R260, R262, R266). -/
def WFrame.bodyLen (f : WFrame) : Nat := if f.kind = 1 then 16 * (f.bm1 + 1) else if f.kind = 3 then 4 * (f.body / 2 ^ 2048 % 64 + 1) else 0

/-- A control block: CTYPE, fields, CRC-32C (R253). -/
def controlBlock (ctype : Nat) (fields : List Byte) : List Byte :=
  let b := (leBytes 1 ctype ++ fields ++ List.replicate 11 0).take 12
  b ++ leBytes 4 (crc32c b)

/-- The IDLE block that a lane sends in L0 (R253). -/
def Dev.idleBytes (d : Dev) (ph : Nat) : List Byte :=
  controlBlock 1 (leBytes 1 (d.lane ph).lastAcc ++ leBytes 1 (b2n (d.lane ph).nak) ++ leBytes 1 d.frameStatus ++
    leBytes 1 (b2n (d.lane ph).lock))

/-- A frame on the wire: header, body, and the CRC-32C over both (R259, R260, R262, R266). -/
def Dev.frameBytes (d : Dev) (ph : Nat) (f : WFrame) : List Byte :=
  let b := leBytes 8 (d.frameHead ph f) ++ leBytes f.bodyLen f.body
  b ++ leBytes 4 (crc32c b)

/-- The DATA frame of the beat just committed on logical lane l (R271); the lane awaits its response (R275). -/
def Dev.queueData (d : Dev) (l beat : Nat) : Dev × Bool :=
  let ph := d.phys l
  let bm1 := ((d.laneEntry l).map PM.bm1).getD 0
  let d := d.queueFrame ph ⟨1, 0, beat % 65536, bm1, d.frameStatus, d.frameBody l, 0, false⟩
  let full := 1024 ≤ (d.lane ph).unanswered.length
  (d.onLane ph (fun x => { x with unanswered := x.unanswered ++ [(beat % 65536, bm1)] }), full)

/-- A HOLD frame on a physical lane, if the lane is UP and in L0, since in RX_SLEEP it sends IDLE blocks only, and its queue is not full
(R262, R272, R282). -/
def Dev.queueHold (d : Dev) (ph : Nat) : Dev :=
  if d.laneState ph = lnUp ∧ d.lanePwr ph = 0 ∧ d.txqLen ph < 64 then
    d.queueFrame ph ⟨2, 0, d.loom.beat % 65536, ((d.laneEntry (d.logical ph)).map PM.bm1).getD 0, d.frameStatus, 0, 0, false⟩
  else d

/-- One HOLD frame on every lane the port map names (06 R161, R163). -/
def Dev.holdNamed (d : Dev) : Dev := d.namedLanes.foldl (fun d l => d.queueHold (d.phys l)) d

/-- HOLD frames outside a beat: named lanes, or every lane before a port map has been written (R272). -/
def Dev.holdIdle (d : Dev) : Dev :=
  if d.warp.mapped then d.holdNamed else (List.range 128).foldl (fun d ph => d.queueHold ph) d

/-- HOLD_PERIOD has passed (R272): frames go out while no beat runs, unless the slot grid paces them. -/
def Dev.holdPeriod (d : Dev) : Dev :=
  let idle := d.ts == tsIdle || d.ts == tsArmed || d.ts == tsStarting || d.ts == tsHalted || d.trd.recovery != 0
  if idle && !(d.fld F.TRD_CTL_MODE == 1 && d.trd.gridOn) && !d.plat.txIdle then d.holdIdle else d

/-- Status of a message entry (R290): 1 PENDING; 2 DONE; 3 ABORTED; 4 REFUSED. -/
def Dev.setMsg (d : Dev) (e status reason : Nat) : Dev :=
  (d.setFld (F.WRP_MSG_STATUS_STATUS.at e) status).setFld (F.WRP_MSG_STATUS_REASON.at e) reason

/-- A lane takes a power state (R282). What falls asleep does so at once, with its PWR block, and a receiver that sleeps loses block
lock; a transmitter that wakes waits for RX_READY, a receiver that wakes, with its PWR 3 block, for block lock. -/
def Dev.pwrEnter (d : Dev) (ph s : Nat) : Dev :=
  let was := d.lanePwr ph
  let rxOff := s / 2 % 2 == 1
  let txOff := s % 2 == 1
  let rxWas := was / 2 % 2 == 1
  let txWas := was % 2 == 1
  let code := if txOff && !txWas then 1 else if rxOff && !rxWas then 2 else if !rxOff && rxWas then 3 else (d.lane ph).pwrSent
  (d.setFld (F.WRP_LANE_STATUS_PWR.at ph) (b2n (txOff || txWas) + 2 * b2n (rxOff || rxWas))).onLane ph (fun x => { x with
    pwrPend := 0, txWaits := txWas && !txOff, rxWaits := rxWas && !rxOff, pwrSent := code
    lock := x.lock && !rxOff, rxReady := x.rxReady && !rxOff })

/-- A lane whose queue has emptied enters the sleep it waits for (R282). -/
def Dev.pwrSettle (d : Dev) (ph : Nat) : Dev :=
  let ln := d.lane ph
  if ln.pwrPend ≠ 0 ∧ ln.txq.isEmpty then d.pwrEnter ph (ln.pwrPend - 1) else d

/-- A message entry. -/
def Dev.msg (d : Dev) (e : Nat) : MsgEntry := SMap.get MsgEntry.empty d.warp.msgs e

/-- A message entry changed. -/
def Dev.onMsg (d : Dev) (e : Nat) (f : MsgEntry → MsgEntry) : Dev :=
  { d with warp := { d.warp with msgs := SMap.put MsgEntry.empty d.warp.msgs e (f (d.msg e)) } }

/-- The payload of a message as one number, word 0 lowest. -/
def wordsNat : List Word → Nat
  | [] => 0
  | w :: t => w.toNat + 2 ^ 32 * wordsNat t

/-- A message launched: its frame enters the transmit queue after every frame already queued; it waits while the queue holds 64 (R270,
R284; DESIGN CHOICE, assumption log 8). -/
def Dev.msgLaunch (d : Dev) (e : Nat) : Dev :=
  let m := d.msg e
  if 64 ≤ d.txqLen (d.phys m.lane) then d.onMsg e (fun x => { x with wait := false, due := true })
  else (d.onMsg e (fun x => { x with wait := false, due := false })).queueFrame (d.phys m.lane)
    ⟨3, 0, 0, 0, d.frameStatus, wordsNat (m.words.take (m.len + 1)) + m.len * 2 ^ 2048, e + 1, false⟩

/-- Launched messages of a lane whose queue was full, lowest entry first. -/
def Dev.msgsDue (d : Dev) (ph : Nat) : Dev :=
  (List.range 16).foldl (fun d e => if (d.msg e).due ∧ d.phys (d.msg e).lane = ph then d.msgLaunch e else d) d

/-- An ACK covers every frame up to its SEQ; a message is DONE when an ACK covers it (R267, R269, R284). -/
def Dev.ackFrames (d : Dev) (ph ack : Nat) : Dev :=
  match (d.lane ph).txq.findIdx? (fun f => f.seq == ack) with
  | none => d
  | some i =>
    let out := (d.lane ph).txq.take (i + 1)
    let d := d.onLane ph (fun x => { x with txq := x.txq.drop (i + 1), episodes := 0 })
    ((out.foldl (fun d f => if f.msg ≠ 0 then d.setMsg (f.msg - 1) 2 0 else d) d).msgsDue ph).pwrSettle ph

/-- A resend episode: counted; after MAX without a new ACK a fast retrain (R269). -/
def Dev.resend (d : Dev) (ph : Nat) : Dev :=
  if (d.lane ph).txq.isEmpty ∨ d.laneState ph ≠ lnUp then d
  else
    let d := (d.addFld (F.WRP_LANE_ERR_RESENT.at ph) 1).onLane ph (fun x => { x with episodes := x.episodes + 1 })
    if max 1 (d.fld F.WRP_RETRY_CFG_MAX) ≤ (d.lane ph).episodes then
      ((d.onLane ph (fun x => { x with episodes := 0 })).event bWRP ph 0x505 ph).startRetrain ph
    else d

/-- ACK, NAK and STATUS of a header or an IDLE block (R253, R267, R269, R285); each with NAK = 1 is a resend episode
(DESIGN CHOICE, assumption log 8). -/
def Dev.linkFields (d : Dev) (ph ack status : Nat) (nak : Bool) : Dev :=
  let d := d.ackFrames ph ack
  let d := if nak then d.resend ph else d
  let mark (d : Dev) (bit : Nat) (f : Fld) : Dev :=
    if status.testBit bit then
      (if d.fld (f.at ph) = 0 then (d.setFld (f.at ph) 1).event bWRP ph 0x508 (ph + status % 256 * 256) else d)
    else d
  mark (mark d 0 F.WRP_LANE_EVENTS_UNDERRUN) 1 F.WRP_LANE_EVENTS_ALARM

/-- An IDLE block (R253). -/
def Dev.idleBlock (d : Dev) (ph ack status : Nat) (nak rxReady : Bool) : Dev :=
  if d.laneState ph = lnUp then
    let d := (d.onLane ph (fun x => { x with rxReady := rxReady })).linkFields ph ack status nak
    if rxReady then d.txAwake ph else d
  else d

/-- A frame or block that fails its CRC, or a frame out of order: discarded, counted when the CRC failed, NAK set
(R253, R267, R285). A lane that is not enabled ignores its receiver (R251). -/
def Dev.crcFail (d : Dev) (ph : Nat) (isFrame badCrc : Bool) : Dev :=
  if !d.laneEn ph then d
  else
    let d := if badCrc then d.addFld (F.WRP_LANE_ERR_CRC.at ph) 1 else d
    if isFrame ∨ badCrc then d.onLane ph (fun x => { x with nak := true }) else d

/-- A frame is accepted when its SEQ is one more than the last accepted one (R267). -/
def Dev.acceptFrame (d : Dev) (ph seq : Nat) : Dev × Bool :=
  if d.laneState ph = lnUp ∧ seq = ((d.lane ph).lastAcc + 1) % 256 then
    (d.onLane ph (fun x => { x with lastAcc := seq, nak := false }), true)
  else (d.crcFail ph true false, false)

/-- Event 0x506 with its detail (R286). -/
def Dev.proto (d : Dev) (ph detail : Nat) : Dev :=
  (d.setFld (F.WRP_LANE_EVENTS_PROTO.at ph) 1).event bWRP ph 0x506 (ph + detail * 256)

/-! ### Responses (R273 to R275) -/

/-- A response delivered in order; a lane keeps the last four (06 R166). -/
def Dev.deliverResp (d : Dev) (ph : Nat) (r : Resp) : Dev :=
  d.onLane ph (fun x => { x with resps := (x.resps ++ [r]).drop (x.resps.length + 1 - 4) })

/-- The oldest unanswered frames voided: each gets a void response and event 0x506 detail 6 (R275). Answers with the
responses delivered. -/
def Dev.voidOldest (d : Dev) (ph : Nat) : Nat → Dev × List Resp
  | 0 => (d, [])
  | n + 1 =>
    match (d.lane ph).unanswered with
    | [] => (d, [])
    | f :: _ =>
      let r : Resp := ⟨f.1, true, 0, [], false, false⟩
      let d := ((d.onLane ph (fun x => { x with unanswered := x.unanswered.drop 1 })).deliverResp ph r).proto ph 6
      let (d, t) := Dev.voidOldest d ph n
      (d, r :: t)

/-- A RESP frame (R263, R274, R275); the responses it delivers, for the capture units. -/
def Dev.respRx (d : Dev) (ph seq ack status beat bm1 ns : Nat) (nak : Bool) (compare : Nat) (samples : List Word) :
    Dev × List Resp :=
  let (d, ok) := d.acceptFrame ph seq
  if !ok then (d, [])
  else
    let d := d.linkFields ph ack status nak
    match (d.lane ph).unanswered.findIdx? (fun f => f.1 == beat % 65536) with
    | none => (d.proto ph (if (d.lane ph).unanswered.isEmpty then 4 else 1), [])
    | some i =>
      let (d, t) := (if i = 0 then d else d.proto ph 1).voidOldest ph i
      let b := ((d.lane ph).unanswered.headD (0, 0)).2
      if b ≠ bm1 then
        let (d, u) := (if i = 0 then d.proto ph 2 else d).voidOldest ph 1
        (d, t ++ u)
      else if 2 * (bm1 + 1) < ns then
        let (d, u) := (if i = 0 then d.proto ph 3 else d).voidOldest ph 1
        (d, t ++ u)
      else
        let r : Resp := ⟨beat % 65536, false, compare, samples, false, false⟩
        ((d.onLane ph (fun x => { x with unanswered := x.unanswered.drop 1 })).deliverResp ph r, t ++ [r])

/-! ### Power states and loopbacks (R281 to R283) -/

/-- A power state requested for a lane; in device state LOW every lane stays in BOTH_SLEEP, and takes the state at the exit (R282, R283;
DEDUCED, assumption log 8). -/
def Dev.lanePower (d : Dev) (ph req : Nat) : Dev :=
  let free := d.ts == tsIdle || d.ts == tsArmed || d.ts == tsHalted
  if d.isNamed ph && !free then
    (d.setFld (F.WRP_LANE_EVENTS_PWR_REF.at ph) 1).event bWRP ph 0x507 (ph + req * 256)
  else
    let d := d.setFld (F.WRP_LANE_PWR_REQ.at ph) req
    if (d.lane ph).pwrSaved ≠ 0 then d.onLane ph (fun x => { x with pwrSaved := req % 4 + 1 })
    else if req % 2 = 1 then (d.onLane ph (fun x => { x with pwrPend := req % 4 + 1 })).pwrSettle ph else d.pwrEnter ph (req % 4)

/-- A loopback requested for a lane (R281): MODE and PRBS of WRP_LANE_LB. -/
def Dev.loopback (d : Dev) (ph mode : Nat) (prbs : Bool) : Dev :=
  if mode ≠ 0 ∧ d.isNamed ph then
    (d.setFld (F.WRP_LANE_EVENTS_LB_REF.at ph) 1).event bWRP ph 0x507 (ph + mode * 256)
  else
    let was := d.fld (F.WRP_LANE_LB_MODE.at ph)
    let d := d.prbsErrors ph
    let d := (d.setFld (F.WRP_LANE_LB_MODE.at ph) mode).setFld (F.WRP_LANE_LB_PRBS.at ph) (b2n prbs)
    let d := if prbs then d.setReg (instKey R.WRP_LANE_PRBS_ERR ph) 0 else d
    if mode ≠ 0 then d.setLaneState ph lnLoopback
    else if was ≠ 0 then d.startTraining ph else d

/-- A LOOP block of the far end (R281): followed only with REMOTE_LB_OK = 1 on a lane no port map names. -/
def Dev.loopBlock (d : Dev) (ph : Nat) (enter : Bool) : Dev :=
  if enter then
    if d.fld (F.WRP_LANE_CFG_REMOTE_LB_OK.at ph) = 1 ∧ !d.isNamed ph ∧ d.laneState ph = lnUp then
      (d.setLaneState ph lnLoopback).onLane ph (fun x => { x with remoteLoop := true })
    else d
  else if (d.lane ph).remoteLoop then d.startTraining ph else d

/-- A reserved CTYPE or TYPE is a protocol error of a lane that listens (R251, R253, R286). -/
def Dev.reservedBlock (d : Dev) (ph : Nat) : Dev := if d.laneEn ph then d.proto ph 5 else d

/-- A PWR block of the far end (R253): 1 its transmitter sleeps, 2 its receiver sleeps, 3 it asks for our transmitter. -/
def Dev.pwrBlock (d : Dev) (ph code : Nat) : Dev :=
  if !d.laneEn ph then d
  else if code = 1 then d.onLane ph (fun x => { x with farTxSleep := true })
  else if code = 2 then d.onLane ph (fun x => { x with farRxSleep := true })
  else if code = 3 then d.onLane ph (fun x => { x with farTxSleep := false, farRxSleep := false })
  else d

/-! ### Messages (R284, R290) -/

/-- The lane is UP and in L0 in both directions. -/
def Dev.laneL0 (d : Dev) (ph : Nat) : Bool := d.laneState ph == lnUp && d.lanePwr ph == 0

/-- TB has reached a time: the signed difference TB - t is 0 or more (06 R160, R175). -/
def Dev.reached (d : Dev) (t : Word) : Bool := 0 ≤ sgn 32 (d.tb.tb - t).toNat

/-- At acceptance a timed launch is late: the signed difference T - TB is 0 or less (06 R175). -/
def Dev.tooLate (d : Dev) (t : Word) : Bool := sgn 32 (t - d.tb.tb).toNat ≤ 0

/-- A launch that is late sets LATE and writes event 0x907 (06 R175). -/
def Dev.late (d : Dev) : Dev := (d.setFld F.TRD_EVENTS_LATE 1).event bTRD 0 0x907 0

/-- SEND of the selected entry (R284): lane (logical), LEN, TIMED. -/
def Dev.msgSend (d : Dev) (lane len : Nat) (timed : Bool) : Dev :=
  let e := d.fld F.WRP_MSG_SEL_ENTRY
  if d.fld (F.WRP_MSG_STATUS_STATUS.at e) = 1 then d.setFld (F.WRP_MSG_STATUS_REASON.at e) 1
  else if 64 ≤ len then d.setMsg e 4 3
  else if !d.laneL0 (d.phys lane) then d.setMsg e 4 2
  else
    let d := (d.setMsg e 1 0).onMsg e (fun x => { x with lane := lane, len := len, wait := true })
    let t := d.reg (instKey R.WRP_MSG_AT e)
    if !timed then d.msgLaunch e
    else if d.tooLate t then (d.late).msgLaunch e
    else d

/-- The frame of a message taken out of a queue that has not sent it: the frames after it, which have not been sent either, take the
SEQ numbers that they then have in order of first transmission (R267, R284). -/
def Lane.unqueue (x : Lane) (e : Nat) : Lane :=
  match x.txq.findIdx? (fun f => f.msg == e + 1) with
  | none => x
  | some i => { x with
      txq := x.txq.take i ++ (x.txq.drop (i + 1)).map (fun f => { f with seq := (f.seq + 255) % 256 })
      nextSeq := (x.nextSeq + 255) % 256 }

/-- ABORT of the selected entry: possible until its first bit is on the wire (R284). A launched frame of a lane that is
UP with its transmitter on is on the wire at once (assumption log 8). -/
def Dev.msgAbort (d : Dev) : Dev :=
  let e := d.fld F.WRP_MSG_SEL_ENTRY
  let ph := d.phys (d.msg e).lane
  if d.fld (F.WRP_MSG_STATUS_STATUS.at e) ≠ 1 then d.setFld (F.WRP_MSG_STATUS_REASON.at e) 4
  else if (d.msg e).wait ∨ (d.msg e).due then (d.setMsg e 3 0).onMsg e (fun x => { x with wait := false, due := false })
  else if (d.lane ph).txq.any (fun f => f.msg == e + 1 && !f.sent) then (d.setMsg e 3 0).onLane ph (fun x => x.unqueue e)
  else d.setFld (F.WRP_MSG_STATUS_REASON.at e) 4

/-- Word n of a list set; the list grows with zeros to hold it. -/
def setWordAt : List Word → Nat → Word → List Word
  | [], 0, w => [w]
  | [], n + 1, w => 0 :: setWordAt [] n w
  | _ :: t, 0, w => w :: t
  | x :: t, n + 1, w => x :: setWordAt t n w

/-- A payload word written to the selected entry; the pointer advances, up to 64 words (R284). -/
def Dev.msgData (d : Dev) (w : Word) : Dev :=
  let p := d.warp.msgPtr
  if p < 64 then
    let d := d.onMsg (d.fld F.WRP_MSG_SEL_ENTRY) (fun x => { x with words := setWordAt x.words p w })
    { d with warp := { d.warp with msgPtr := p + 1 } }
  else d

/-- WRP_MSG_SEL written: the word pointer starts again (R284, R290). -/
def Dev.msgSelect (d : Dev) (e : Nat) : Dev :=
  let d := d.setFld F.WRP_MSG_SEL_ENTRY e
  { d with warp := { d.warp with msgPtr := 0 } }

/-- A received MSG frame enters the queue of 16, or is dropped with MSG_OVF and event 0x509 (R266, R284). -/
def Dev.msgRx (d : Dev) (ph seq ack status : Nat) (nak : Bool) (ws : List Word) : Dev :=
  let (d, ok) := d.acceptFrame ph seq
  if !ok then d
  else
    let d := d.linkFields ph ack status nak
    if d.warp.rx.length < 16 then { d with warp := { d.warp with rx := d.warp.rx ++ [(d.logical ph, ws)] } }
    else ({ d with warp := { d.warp with msgOvf := true } }).event bWRP ph 0x509 ph

/-- POP: the oldest received message is removed (R290). -/
def Dev.msgPop (d : Dev) : Dev := { d with warp := { d.warp with rx := d.warp.rx.drop 1, rxPtr := 0 } }

/-- WRP_RXMSG_DATA read: the next word of the oldest message, 0 past its end (R290). -/
def Dev.rxData (d : Dev) : Dev × Word :=
  match d.warp.rx with
  | [] => (d, 0)
  | m :: _ => ({ d with warp := { d.warp with rxPtr := d.warp.rxPtr + 1 } }, m.2.getD d.warp.rxPtr 0)

end Sys2Proof.Machine
end

