-- ==== Sys2Proof/Machine/Capture.lean ====
section
/-!
DEFINITION. Acquisition units and fail maps (11): taps, records, triggers, ends of a capture; fail records, their OR
into the maps, clears.
-/

namespace Sys2Proof.Machine

/-! ### Units and probes (R324, R327) -/

/-- States of a unit (R332). -/
def cpIdle : Nat := 0
def cpArmed : Nat := 1
def cpPre : Nat := 2
def cpWait : Nat := 3
def cpPost : Nat := 4
def cpRun : Nat := 5
def cpEnded : Nat := 6

/-- A unit's record. -/
def Dev.cu (d : Dev) (u : Nat) : CapUnit := SMap.get CapUnit.empty d.cap.units u

/-- A unit's record changed. -/
def Dev.onUnit (d : Dev) (u : Nat) (f : CapUnit → CapUnit) : Dev :=
  { d with cap := { d.cap with units := SMap.put CapUnit.empty d.cap.units u (f (d.cu u)) } }

/-- A field of a unit's registers. -/
def Dev.capFld (d : Dev) (f : Fld) (u : Nat) : Nat := d.fld (f.at u)

/-- STATE of a unit (R350). -/
def Dev.capState (d : Dev) (u : Nat) : Nat := d.capFld F.CAP_UNIT_STATUS_STATE u
def Dev.setCapState (d : Dev) (u s : Nat) : Dev := d.setFld (F.CAP_UNIT_STATUS_STATE.at u) s

/-- MODE of a unit: 3 acts as 0 (R350). -/
def Dev.capMode (d : Dev) (u : Nat) : Nat := let m := d.capFld F.CAP_UNIT_CFG_MODE u; if m = 3 then 0 else m

/-- The unit records committed beats, now or once its arm source triggers (R332, R335). -/
def Dev.capTakes (d : Dev) (u : Nat) : Bool :=
  let s := d.capState u
  cpArmed ≤ s && s ≤ cpRun && !(d.cu u).closing

def Pb.kind (e : Word64) : Nat := bitsN e.toNat 63 60
def Pb.unit (e : Word64) : Nat := bitsN e.toNat 59 56
def Pb.pos (e : Word64) : Nat := bitsN e.toNat 55 46
/-- TAP probes: GB, harness, heddle, pick. -/
def Pb.gb (e : Word64) : Nat := bitsN e.toNat 45 39
def Pb.harness (e : Word64) : Nat := bitsN e.toNat 38 33
def Pb.heddle (e : Word64) : Nat := bitsN e.toNat 32 28
def Pb.pick (e : Word64) : Nat := bitsN e.toNat 27 17
/-- Pin probes and streams: logical lane, channel; CYCLE of pin probes; KIND, SIGNED, DESKEW of streams. -/
def Pb.lane (e : Word64) : Nat := bitsN e.toNat 45 39
def Pb.chan (e : Word64) : Nat := bitsN e.toNat 38 34
def Pb.cycle (e : Word64) : Nat := bitsN e.toNat 33 28
def Pb.skind (e : Word64) : Nat := bitsN e.toNat 33 32
def Pb.signed (e : Word64) : Bool := bitN e.toNat 31
def Pb.deskew (e : Word64) : Bool := bitN e.toNat 30
def kTAP : Nat := 1
def kPIN_CMP : Nat := 2
def kPIN_DRV : Nat := 3
def kSTREAM : Nat := 4

/-- The probes of a unit. -/
def Dev.probesOf (d : Dev) (u : Nat) : List Word64 := d.cap.probes.filter (fun e => Pb.unit e == u)

/-- A probe names the tapped bit. -/
def Pb.names (e : Word64) (t : TapBit) : Bool :=
  Pb.kind e == kTAP && Pb.gb e == t.gb && Pb.harness e == t.h && Pb.heddle e == t.k && Pb.pick e == t.pick

/-! ### Taps (R328) -/

/-- The first list entry with a property removed. -/
def dropFirst {α : Type} (f : α → Bool) : List α → List α
  | [] => []
  | x :: t => if f x then t else x :: dropFirst f t

/-- The oldest tap of a beam leaves its FIFO: to the staging of the units that name it, or nowhere (R328). -/
def Dev.tapDrain (d : Dev) (gb : Nat) : Dev :=
  match d.loom.taps.find? (fun t => t.gb == gb) with
  | none => d
  | some t =>
    let named := d.cap.probes.any (fun e => Pb.names e t && d.capMode (Pb.unit e) != 0)
    d.onLoom (fun l => { l with
      taps := dropFirst (fun t => t.gb == gb) l.taps
      tapStage := if named then l.tapStage ++ [t] else l.tapStage })

/-! ### Records (R329, R330) -/

/-- The header of a record (R330). -/
def capHeader (tb : Word) (beat typ flags len u seq : Nat) : List Byte :=
  leBytes 4 tb.toNat ++ leBytes 4 beat ++ leBytes 1 typ ++ leBytes 1 flags ++ leBytes 2 len ++ leBytes 1 u ++ leBytes 1 0 ++
    leBytes 2 seq

/-- Bytes padded with 0 to a multiple of 16 (R330). -/
def pad16 (bs : List Byte) : List Byte := bs ++ List.replicate ((16 - bs.length % 16) % 16) 0

/-- A MARK record (R330): CAUSE 1 OVERFLOW, 2 ABORT. -/
def Dev.markRecord (d : Dev) (u cause first lost : Nat) : List Byte :=
  capHeader d.tb.tb d.loom.beat 4 0 16 u (d.cu u).seq ++
    leBytes 1 cause ++ leBytes 3 0 ++ leBytes 4 first ++ leBytes 4 lost ++ leBytes 4 0

/-- The lanes whose response a unit's record of a beat awaits (R329, R338). -/
def Dev.capLanes (d : Dev) (u : Nat) : List Nat :=
  (((d.probesOf u).filter (fun e => Pb.kind e == kPIN_CMP || Pb.kind e == kSTREAM)).map (fun e => Pb.lane e)).eraseDups

/-- Bits set in a number where they are 0. -/
def orBits (x pos v : Nat) : Nat := x ||| (v * 2 ^ pos)

/-- Probe bits of the beat being committed: taps of the staging, codes of the DATA frames (R329). -/
def Dev.capBits (d : Dev) (u : Nat) : Nat :=
  (d.probesOf u).foldl (fun x e =>
    if Pb.kind e = kTAP then
      match d.loom.tapStage.find? (Pb.names e) with
      | some t => if d.beamOut (Pb.gb e) then x else orBits x (Pb.pos e) (b2n t.val)
      | none => x
    else if Pb.kind e = kPIN_DRV then
      orBits x (Pb.pos e) (bitsN (d.frameBody (d.logical (Pb.lane e))) (128 * Pb.cycle e + 4 * Pb.chan e + 3) (128 * Pb.cycle e + 4 * Pb.chan e))
    else x) 0

/-- Every unit that takes records opens one for the beat that commits; the taps of the beat are taken (R328, R329,
R332). Records are made and written again (16 R476). -/
def Dev.capCommit (d : Dev) : Dev :=
  let d := (List.range 16).foldl (fun d u =>
    if d.capTakes u then
      let bits := if d.capMode u = 1 then d.capBits u else 0
      let out := (d.probesOf u).any (fun e => Pb.kind e == kTAP && d.beamOut (Pb.gb e))
      let r : CapRec := ⟨d.loom.beat, d.tb.tb, bits, d.capLanes u, false, 0, out, []⟩
      d.onUnit u (fun x => { x with pend := x.pend ++ [r], first := some (x.first.getD d.loom.beat) })
    else d) d
  { d.onLoom (fun l => { l with tapStage := [] }) with cap := { d.cap with quiet := false } }

/-- A sample value after deskew, as 16 bits (R337). -/
def Dev.deskewed (d : Dev) (ph : Nat) (e : Word64) (v : Nat) : Nat :=
  if Pb.deskew e then
    let off := sgn 16 (SMap.get 0 d.cap.deskew (32 * ph + Pb.chan e))
    if Pb.signed e then unsgn 16 (max (-32768) (min 32767 (sgn 16 v - off)))
    else unsgn 16 (max 0 (min 65535 (Int.ofNat (v % 65536) - off)))
  else v % 65536

/-- The samples of a response that a unit's streams take, in order of the response (R337; 09 R265). -/
def Dev.streamSamples (d : Dev) (u ph : Nat) (ws : List Word) : List Sample :=
  (d.probesOf u).flatMap (fun e =>
    if Pb.kind e = kSTREAM ∧ Pb.lane e = ph then
      (ws.filter (fun w => bitsN w.toNat 31 27 == Pb.chan e && bitsN w.toNat 20 19 == Pb.skind e)).map (fun w =>
        (⟨Pb.pos e, bitsN w.toNat 26 21, Pb.skind e, bitN w.toNat 18, d.deskewed ph e (bitsN w.toNat 15 0)⟩ : Sample))
    else [])

/-- A record misses the response of a lane; the first such lane is the one named by event 0x605 (R329, R348). -/
def CapRec.miss (c : CapRec) (ph : Nat) : CapRec := { c with missing := true, missLane := if c.missing then c.missLane else ph }

/-- A response taken by the record of its beat (R329, R337). A void response from which it takes pin bits leaves it MISSING
(09 R275). -/
def Dev.recordTakes (d : Dev) (u ph : Nat) (r : Resp) (c : CapRec) : CapRec :=
  if c.beat % 65536 = r.beat ∧ c.waits.contains ph then
    let bits := (d.probesOf u).foldl (fun x e =>
      if Pb.kind e = kPIN_CMP ∧ Pb.lane e = ph then
        orBits x (Pb.pos e) (bitsN r.compare (64 * Pb.cycle e + 2 * Pb.chan e + 1) (64 * Pb.cycle e + 2 * Pb.chan e))
      else x) c.bits
    let c := { c with waits := c.waits.filter (· != ph), bits := bits, samples := c.samples ++ d.streamSamples u ph r.samples }
    if r.void && (d.probesOf u).any (fun e => Pb.kind e == kPIN_CMP && Pb.lane e == ph) then c.miss ph else c
  else c

/-- A delivered response reaches the units (R329, R337). -/
def Dev.capResp (d : Dev) (ph : Nat) (r : Resp) : Dev :=
  (List.range 16).foldl (fun d u => d.onUnit u (fun x => { x with pend := x.pend.map (d.recordTakes u ph r) })) d

/-- Several delivered responses of a lane. -/
def Dev.capResps (d : Dev) (ph : Nat) (rs : List Resp) : Dev := rs.foldl (fun d r => d.capResp ph r) d

/-- A RESP frame on a lane, and the responses it delivers to the capture units (09 R274; 11 R329). -/
def Dev.respIn (d : Dev) (ph seq ack status beat bm1 ns : Nat) (nak : Bool) (compare : Nat) (samples : List Word) : Dev :=
  let (d, rs) := d.respRx ph seq ack status beat bm1 ns nak compare samples
  d.capResps ph rs

/-! ### Ends (R336, R340, R341) -/

/-- A unit's data of events 0x602, 0x603, 0x604 and 0x606 (R348). -/
def capData (u beat : Nat) : Nat := u % 16 + beat % 2 ^ 32 * 16

/-- A unit ends with a terminal status and its event (R340). -/
def Dev.capEnd (d : Dev) (u status code beat : Nat) : Dev :=
  ((((d.setCapState u cpEnded).setFld (F.CAP_UNIT_STATUS_STATUS.at u) status).event bCAP u code (capData u beat)).onUnit u
    (fun x => { x with pend := [], closing := false, red := [], host := false })).fireCapture u 1

/-- Beats of a unit's intervals; 0: each record is of one beat (R338). -/
def Dev.capInterval (d : Dev) (u : Nat) : Nat := if d.capMode u = 2 then d.capFld F.CAP_RED_CFG_INTERVAL u else 0

/-- The first beat not recorded when the records from that of beat b on are discarded: b itself, or the first beat of the interval
that b lies in (R330, R338). -/
def Dev.firstLost (d : Dev) (u b : Nat) : Nat := b - (b - ((d.cu u).first.getD b)) % max 1 (d.capInterval u)

/-- The records lost when staging and the interval in progress are discarded: records of a beat each, or intervals that have a
committed beat (assumption log 16). -/
def Dev.lostRecords (d : Dev) (u first b : Nat) : Nat :=
  let n := d.capInterval u
  if n = 0 then (d.cu u).pend.length
  else (((((d.cu u).pend.getLast?).map (fun r => r.beat + 1)).getD b) - first + n - 1) / n

/-- A unit overflows at the record of beat b: staging is discarded, a MARK is owed (R341). -/
def Dev.capOverflow (d : Dev) (u b : Nat) : Dev :=
  let first := d.firstLost u b
  let lost := d.lostRecords u first b
  (d.capEnd u 5 0x604 first).onUnit u (fun x => { x with mark := some (first, lost) })

/-- Bytes in a unit's write queue. -/
def queueBytes (q : List (Nat × List Byte)) : Nat := q.foldl (fun n x => n + x.2.length) 0

/-! ### Triggers (R333 to R335) -/

/-- The probe window of a record (R334). -/
def Dev.capWindow (d : Dev) (u bits : Nat) : Nat := bits / 2 ^ (64 * d.capFld F.CAP_TRIG_CFG_WORD u) % 2 ^ 64

/-- The 64-bit number of two registers of a unit. -/
def Dev.cap64 (d : Dev) (lo hi u : Nat) : Nat := (d.reg (instKey lo u)).toNat + 2 ^ 32 * (d.reg (instKey hi u)).toNat

/-- The candidate meets the unit's condition (R334). -/
def Dev.capCond (d : Dev) (u beat bits : Nat) : Bool :=
  let win := d.capWindow u bits
  let mask := d.cap64 R.CAP_TRIG_MASK_LO R.CAP_TRIG_MASK_HI u
  let val := d.cap64 R.CAP_TRIG_VAL_LO R.CAP_TRIG_VAL_HI u
  let kind := d.capFld F.CAP_TRIG_CFG_KIND u
  let pol := d.capFld F.CAP_TRIG_CFG_EDGE_POL u
  if kind = 0 then true
  else if kind = 1 then win &&& mask == val &&& mask
  else if kind = 2 then
    match (d.cu u).prev with
    | none => false
    | some p =>
      let rise := win &&& mask &&& (win ^^^ p)
      let fall := p &&& mask &&& (win ^^^ p)
      if pol = 0 then rise != 0 else if pol = 1 then fall != 0 else rise != 0 || fall != 0
  else if kind = 3 then val % 2 ^ 48 ≤ beat
  else if kind = 4 then
    let s := d.capFld F.CAP_TRIG_CFG_SRC_UNIT u
    d.capFld F.CAP_UNIT_STATUS_TRIGGERED s == 1 && d.capFld F.CAP_TRIG_BEAT_BEAT s == beat % 2 ^ 32
  else if kind = 5 then (d.cu u).host
  else false

/-- Units that wait for unit u's trigger are armed by it: their first record is of the beat after (R335). -/
def Dev.armSequence (d : Dev) (u beat : Nat) : Dev :=
  (List.range 16).foldl (fun d v =>
    if d.capState v = cpArmed ∧ d.capFld F.CAP_TRIG_CFG_SRC_UNIT v = u then
      (d.setCapState v cpPre).onUnit v (fun x =>
        let rest := x.pend.filter (fun r => beat < r.beat)
        { x with pend := rest, first := rest.head?.map CapRec.beat })
    else d) d

/-- The record that is to be queued is evaluated: the pre-trigger rule, the condition, the trigger. The answer says
whether it is the trigger record (R333, R334). -/
def Dev.capEval (d : Dev) (u beat bits : Nat) : Dev × Bool :=
  let cu := d.cu u
  let st := d.capState u
  let win := d.capWindow u bits
  let cand := (st == cpPre || st == cpWait) && (d.reg (instKey R.CAP_PRE u)).toNat ≤ cu.made
  let hit := cand && d.capCond u beat bits
  let d := if cand ∧ st = cpPre then d.setCapState u cpWait else d
  let hits := if hit then cu.hits + 1 else cu.hits
  let d := d.onUnit u (fun x => { x with prev := some win, hits := hits, host := if cand then false else x.host })
  if hit && max 1 (d.capFld F.CAP_TRIG_CFG_COUNT u) == hits then
    let d := (d.setCapState u cpPost).setFld (F.CAP_UNIT_STATUS_TRIGGERED.at u) 1
    let d := d.setReg (instKey R.CAP_TRIG_POS u) (BitVec.ofNat 32 (cu.made % 2 ^ d.capFld F.CAP_UNIT_CFG_SIZE u))
    let d := d.setReg (instKey R.CAP_TRIG_BEAT u) (BitVec.ofNat 32 beat)
    (((d.event bCAP u 0x602 (capData u beat)).fireCapture u 0).armSequence u beat, true)
  else (d, false)

/-- The first record of an arm that misses a response writes event 0x605 (R329). -/
def Dev.missEvent (d : Dev) (u : Nat) (r : CapRec) : Dev :=
  if r.missing && !(d.cu u).missed then
    (d.onUnit u (fun x => { x with missed := true })).event bCAP u 0x605 (u + r.missLane * 16)
  else d

/-- A record enters the write queue, or the unit overflows (R341). `typ` is TYPE; `body` is padded. -/
def Dev.capQueue (d : Dev) (u typ : Nat) (r : CapRec) (missing bayout ovr : Bool) (body : List Byte) : Dev :=
  let cu := d.cu u
  if 65536 < queueBytes cu.queue + 16 + body.length then
    (d.onUnit u (fun x => { x with pend := r :: x.pend })).capOverflow u r.beat
  else
    let d := d.missEvent u r
    let was := d.capState u
    let (d, trig) := d.capEval u r.beat r.bits
    let flags := b2n trig + 2 * b2n missing + 4 * b2n bayout + 8 * b2n ovr
    let bs := capHeader r.tb r.beat typ flags body.length u cu.seq ++ body
    let post := if was = cpPost then cu.post + bs.length else 0
    let last := (was == cpPost || trig) && (d.reg (instKey R.CAP_POST u)).toNat ≤ post
    let d := if missing then d.setFld (F.CAP_UNIT_STATUS_MISSING.at u) 1 else d
    let d := if bayout then d.setFld (F.CAP_UNIT_STATUS_BAYOUT.at u) 1 else d
    d.onUnit u (fun x => { x with
      queue := x.queue ++ [(r.beat, bs)], made := x.made + bs.length, seq := x.seq + 1, post := post
      closing := x.closing || last, pend := if last then [] else x.pend })

/-! ### Bodies (R330, R338) -/

/-- The body of a RAW record: samples in order of stream, then cycle (R330). -/
def rawBody (ss : List Sample) : List Byte :=
  pad16 ((List.range 64).flatMap (fun st => (List.range 64).flatMap (fun cy =>
    (ss.filter (fun s => s.stream == st && s.cycle == cy)).flatMap (fun s =>
      leBytes 1 s.stream ++ leBytes 1 s.cycle ++ leBytes 1 s.kind ++ leBytes 1 (b2n s.ovr) ++ leBytes 2 s.val ++ leBytes 2 0))))

/-- A sample taken into the values of its stream (R338). -/
def Dev.reduce (d : Dev) (u : Nat) (m : SMap MinMax) (s : Sample) : SMap MinMax :=
  let signed := (d.probesOf u).any (fun e => Pb.kind e == kSTREAM && Pb.pos e == s.stream && Pb.signed e)
  let lt (a b : Nat) : Bool := if signed then sgn 16 a < sgn 16 b else a < b
  let x := SMap.get ⟨0, 0, 0⟩ m s.stream
  SMap.put ⟨0, 0, 0⟩ m s.stream
    (if x.cnt = 0 then ⟨s.val, s.val, 1⟩
     else ⟨if lt s.val x.mn then s.val else x.mn, if lt x.mx s.val then s.val else x.mx, x.cnt + 1⟩)

/-- The body of a MINMAX record: streams 0 to NSTREAM (R330, R338). -/
def Dev.minMaxBody (d : Dev) (u : Nat) (m : SMap MinMax) : List Byte :=
  pad16 ((List.range (d.capFld F.CAP_UNIT_CFG_NSTREAM u + 1)).flatMap (fun i =>
    let x := SMap.get ⟨0, 0, 0⟩ m i
    leBytes 2 x.mn ++ leBytes 2 x.mx ++ leBytes 4 x.cnt))

/-- The complete record r is made: BITS; RAW when it has samples; MINMAX at the end of an interval (R330, R338). -/
def Dev.makeRecord (d : Dev) (u : Nat) (r : CapRec) : Dev :=
  let w := 32 * (d.capFld F.CAP_UNIT_CFG_WIDTH u + 1)
  let n := d.capInterval u
  let ovr := r.samples.any Sample.ovr
  if d.capMode u = 1 then d.capQueue u 1 r r.missing r.bayout false (pad16 (leBytes (w / 8) r.bits))
  else if n = 0 then
    if r.samples.isEmpty then d else d.capQueue u 2 r r.missing r.bayout ovr (rawBody r.samples)
  else
    let d := (d.missEvent u r).onUnit u (fun x => { x with
      red := r.samples.foldl (d.reduce u) x.red, redMissing := x.redMissing || r.missing,
      redBayout := x.redBayout || r.bayout, redOvr := x.redOvr || ovr })
    if (r.beat - ((d.cu u).first.getD r.beat)) % n = n - 1 then
      let x := d.cu u
      (d.capQueue u 3 r x.redMissing x.redBayout x.redOvr (d.minMaxBody u x.red)).onUnit u (fun x => { x with
        red := [], redMissing := false, redBayout := false, redOvr := false })
    else d

/-- A chain of KIND = UNIT conditions leads from unit v to unit u; `fuel` bounds its length. -/
def Dev.unitLeads (d : Dev) (u : Nat) : Nat → Nat → Bool
  | 0, _ => false
  | fuel + 1, v =>
    v == u || (d.capFld F.CAP_TRIG_CFG_KIND v == 4 && Dev.unitLeads d u fuel (d.capFld F.CAP_TRIG_CFG_SRC_UNIT v))

/-- A KIND = UNIT condition waits for its source's record of the same beat (R334), unless the source's own condition leads back to
it: units in such a loop do not wait for one another (assumption log 16). -/
def Dev.unitWaits (d : Dev) (u beat : Nat) : Bool :=
  let s := d.capFld F.CAP_TRIG_CFG_SRC_UNIT u
  d.capFld F.CAP_TRIG_CFG_KIND u == 4 && !d.unitLeads u 16 s && d.capTakes s && (d.cu s).pend.any (fun r => r.beat ≤ beat)

/-- An armed unit's oldest record can no longer be needed: its arm source has evaluated every earlier beat (R335). -/
def Dev.armStale (d : Dev) (u beat : Nat) : Bool :=
  !(d.cu (d.capFld F.CAP_TRIG_CFG_SRC_UNIT u)).pend.any (fun r => r.beat < beat)

/-- The oldest record of a unit, complete, is made (R329). In device LOW, and until a beat commits after it, none is (16 R476). -/
def Dev.recordComplete (d : Dev) (u : Nat) : Dev :=
  match (d.cu u).pend with
  | [] => d
  | r :: t =>
    if d.cap.quiet ∨ 16 ≤ u ∨ !r.waits.isEmpty ∨ !d.capTakes u then d
    else if d.capState u = cpArmed then
      if d.armStale u r.beat then d.onUnit u (fun x => { x with pend := t, first := t.head?.map CapRec.beat }) else d
    else if d.unitWaits u r.beat then d
    else (d.onUnit u (fun x => { x with pend := t })).makeRecord u r

/-- RSP_TO has passed since the commit of the oldest record that waits: it completes with MISSING (R329). -/
def Dev.captureTimeout (d : Dev) (u : Nat) : Dev :=
  match (d.cu u).pend.find? (fun r => !r.waits.isEmpty) with
  | none => d
  | some r =>
    if 16 ≤ u then d
    else
      d.onUnit u (fun x => { x with pend := x.pend.map (fun c =>
        if c.beat = r.beat then { c.miss (r.waits.foldl min (r.waits.headD 0)) with waits := [] } else c) })

/-! ### Commands (R332, R334, R340) -/

/-- A refused command of a unit; `arm`: the arm's terminal status is REFUSED (R332, R340). -/
def Dev.capRefuse (d : Dev) (u : Nat) (arm : Bool) : Dev :=
  let d := d.setFld (F.CAP_UNIT_STATUS_REASON.at u) 1
  if arm then d.setFld (F.CAP_UNIT_STATUS_STATUS.at u) 4 else d

/-- ARM (R332, R335, R336). -/
def Dev.capArm (d : Dev) (u : Nat) : Dev :=
  let st := d.capState u
  let kind := d.capFld F.CAP_TRIG_CFG_KIND u
  if 16 ≤ u then d
  else if !(st == cpIdle || st == cpEnded) then d.capRefuse u false
  else if d.capMode u = 0 ∨ (d.capMode u = 2 ∧ (kind = 1 ∨ kind = 2)) ∨ 6 ≤ kind then d.capRefuse u true
  else
    let d := (d.setReg (instKey R.CAP_WPTR u) 0).setReg (instKey R.CAP_UNIT_STATUS u) 0
    let d := d.onUnit u (fun _ => CapUnit.empty)
    d.setCapState u (if d.capFld F.CAP_UNIT_CFG_CONT u = 1 then cpRun
      else if d.capFld F.CAP_TRIG_CFG_ARM_SEQ u = 1 then cpArmed else cpPre)

/-- STOP of a unit: CONT ends DONE, every other state ABORTED with a MARK record (R336, R340), also after the record that would have
ended the capture has entered the write queue. -/
def Dev.capStop (d : Dev) (u : Nat) : Dev :=
  let st := d.capState u
  if 16 ≤ u then d
  else if st = cpIdle ∨ cpEnded ≤ st then d.capRefuse u false
  else if st = cpRun then d.capEnd u 2 0x603 d.loom.beat
  else
    let cu := d.cu u
    let b := if cu.closing then ((cu.queue.getLast?).map (fun x => x.1 + 1)).getD d.loom.beat
      else (cu.pend.head?.map CapRec.beat).getD d.loom.beat
    let first := d.firstLost u b
    let m := d.markRecord u 2 first (d.lostRecords u first b)
    (d.capEnd u 3 0x606 first).onUnit u (fun x => { x with queue := x.queue ++ [(first, m)], seq := x.seq + 1 })

/-- TRIGGER of a unit that records before its trigger (R334). -/
def Dev.capTrigger (d : Dev) (u : Nat) : Dev :=
  let st := d.capState u
  if 16 ≤ u then d
  else if st = cpPre ∨ st = cpWait then d.onUnit u (fun x => { x with host := true })
  else d.capRefuse u false

/-- A full load, or WRST_N, ends every armed unit ABORTED; its buffer is lost (R340). -/
def Dev.capAbortAll (d : Dev) : Dev :=
  (List.range 16).foldl (fun d u =>
    let st := d.capState u
    let d := if cpArmed ≤ st ∧ st ≤ cpRun then d.capEnd u 3 0x606 d.loom.beat else d
    d.onUnit u (fun _ => CapUnit.empty)) d

/-- Units of an address: a write by any other master into the buffer of a unit that records is refused (R331). -/
def Dev.capHolds (d : Dev) (a : Nat) : Bool :=
  (List.range 16).any (fun u =>
    let st := d.capState u
    let b := d.capFld F.CAP_BUF_BASE_BASE u * 256
    cpArmed ≤ st && st ≤ cpRun && b ≤ a && a < b + 2 ^ d.capFld F.CAP_UNIT_CFG_SIZE u)

/-! ### Fail maps (R342 to R346) -/

/-- Words of a map as a power of two. -/
def Dev.mapBits (d : Dev) (m : Nat) : Nat := d.fld (F.FMP_DESC_ROW_BITS.at m) + d.fld (F.FMP_DESC_CW_BITS.at m)
def Dev.mapValid (d : Dev) (m : Nat) : Bool := d.fld (F.FMP_DESC_VALID.at m) == 1
/-- First device address of a map. -/
def Dev.mapBase (d : Dev) (m : Nat) : Nat := d.fld (F.FMP_BASE_BASE.at m) * 256

/-- Records in the held area (R345, R351). -/
def Dev.heldRecords (d : Dev) : Nat := d.loom.failHeld.length + d.cap.applying.length

/-- The order in which the records of one beat apply: pick, GB, harness (R345). -/
def failKey (r : FailRec) : Nat := ((r.beat * 2048 + r.pick) * 128 + r.gb) * 64 + r.h

/-- The oldest staged record of a beam leaves panel staging for the held area, when it has room (R345). -/
def Dev.failDrain (d : Dev) (gb : Nat) : Dev :=
  match d.loom.failStage.find? (fun r => r.gb == gb) with
  | none => d
  | some r =>
    if 16384 ≤ d.heldRecords then d
    else
      let d := d.onLoom (fun l => { l with failStage := dropFirst (fun r => r.gb == gb) l.failStage })
      if r.beat < d.loom.beat then { d with cap := { d.cap with applying := insertBy failKey r d.cap.applying } }
      else d.onLoom (fun l => { l with failHeld := l.failHeld ++ [r] })

/-- At the commit the attempt's records become applying (R345). -/
def Dev.failCommit (d : Dev) : Dev :=
  let d1 := { d with cap := { d.cap with applying := d.loom.failHeld.foldl (fun t r => insertBy failKey r t) d.cap.applying } }
  d1.onLoom (fun l => { l with failHeld := [] })

/-- The records of a map wait for the end of a clear that took effect before their beat (R346). -/
def Dev.failBlocked (d : Dev) (r : FailRec) : Bool :=
  let c := SMap.get 0 d.cap.clearing r.map
  c != 0 && c - 1 ≤ r.beat

/-- The highest beat whose records, and those of every beat before it, have been applied (R345). -/
def Dev.appliedBeat (d : Dev) : Nat :=
  let rs := d.cap.applying ++ d.loom.failStage.filter (fun r => r.beat < d.loom.beat)
  rs.foldl (fun m r => min m (r.beat - 1)) (d.loom.beat - 1)

/-- The first record of a map after a load or a CLEAR (R345). -/
def Dev.failFirst (d : Dev) (r : FailRec) : Dev :=
  if d.fld (F.FMP_FIRST_BEAT_BEAT.at r.map) = 0xFFFFFFFF then
    (d.setReg (instKey R.FMP_FIRST_BEAT r.map) (BitVec.ofNat 32 r.beat)).setReg (instKey R.FMP_FIRST_ADDR r.map)
      (BitVec.ofNat 32 r.addr)
  else d

/-- An address bit above the map is ignored and counted (R343). -/
def Dev.failRange (d : Dev) (r : FailRec) : Dev :=
  if r.addr % 2 ^ 32 < 2 ^ d.mapBits r.map then d
  else
    let d := (d.addFld (F.FMP_RANGE_CNT_COUNT.at r.map) 1).setFld F.FMP_STATUS_RANGE 1
    if SMap.get false d.cap.ranged r.map then d
    else
      ({ d with cap := { d.cap with ranged := SMap.put false d.cap.ranged r.map true } }).event bFMP 0 0x612
        (r.map % 256 + r.addr % 2 ^ 32 * 256)

/-- One record ORed into its map word by one read-modify-write (R343, R344). -/
def Dev.failOr (d : Dev) (r : FailRec) : Dev :=
  let d := (d.failFirst r).failRange r
  let a := d.mapBase r.map + 4 * (r.addr % 2 ^ d.mapBits r.map)
  let d := d.occAccess a
  if d.memBad (a / 32 * 32) 1 then
    let d := d.hbmUe (a / 32 * 32)
    let d := (d.setReg R.FMP_UE_ADDR (BitVec.ofNat 32 r.addr)).setReg R.FMP_UE_BITS r.bits
    ((d.setFld F.FMP_STATUS_UE 1).setFld F.FMP_STATUS_UE_MAP r.map).event bFMP 0 0x611
      (r.map % 256 + r.addr % 2 ^ 32 * 256)
  else
    let old := d.eword a
    let d := ((d.countRead a 4).setBytes (a / 32 * 32) (d.ebytes (a / 32 * 32) 32)).cleanUnits a 1
    let d := (d.setWord a (old ||| r.bits)).encodeFw a 1
    let new := (popcount 32 (old ||| r.bits).toNat) - (popcount 32 old.toNat)
    (d.addFld (F.FMP_REC_CNT_COUNT.at r.map) 1).addFld (F.FMP_NEWBITS_COUNT.at r.map) new

/-- The first committed record, in the order of R345, that has not left the panel staging. -/
def Dev.stagedNext (d : Dev) : Option FailRec :=
  ((d.loom.failStage.filter (fun r => r.beat < d.loom.beat)).foldl (fun t r => insertBy failKey r t) []).head?

/-- A record is applied, where its map is defined (R343, R345). -/
def Dev.failApply (d : Dev) (r : FailRec) : Dev := if d.mapValid r.map then d.failOr r else d

/-- The fail-map unit applies the next record (R345): the first in order of those that have left the staging. One that comes before it but
still stands in the staging goes first: the unit waits for it, and takes it from there where the held area is full (DESIGN CHOICE,
assumption log 17). -/
def Dev.failMapOr (d : Dev) : Dev :=
  let next := d.cap.applying.find? (fun r => !d.failBlocked r)
  let early := d.stagedNext.filter (fun x => next.all (fun r => failKey x < failKey r))
  match early, next with
  | some x, _ =>
    if d.heldRecords < 16384 ∨ d.failBlocked x then d
    else (d.onLoom (fun l => { l with failStage := l.failStage.erase x })).failApply x
  | none, some r => ({ d with cap := { d.cap with applying := d.cap.applying.erase r } }).failApply r
  | none, none => d

/-- The clear of a map takes effect: records from beat `n` on wait (R346). -/
def Dev.clearStart (d : Dev) (m n : Nat) : Dev :=
  { d with cap := { d.cap with clearing := SMap.put 0 d.cap.clearing m (n + 1) } }

/-- CLEARs that wait take effect at a commit (R346). -/
def Dev.clearCommit (d : Dev) (n : Nat) : Dev :=
  let d1 := d.cap.clearPend.foldl (fun d m => d.clearStart m n) d
  { d1 with cap := { d1.cap with clearPend := [] } }

/-- The clear of a map ends once every record before it is applied (R346). -/
def Dev.clearComplete (d : Dev) (m : Nat) : Dev :=
  let c := SMap.get 0 d.cap.clearing m
  if c = 0 ∨ d.cap.applying.any (fun r => r.map == m && r.beat + 1 < c) ∨
      d.loom.failStage.any (fun r => r.map == m && r.beat + 1 < c) then d
  else
    let lo := d.mapBase m
    let hi := lo + 4 * 2 ^ d.mapBits m
    let clr {α : Type} (t : SMap α) : SMap α := t.filter (fun x => !(lo ≤ x.1 && x.1 < hi))
    let d := (d.occRange lo (hi - lo)).clearMem lo hi
    let d := { d with chk := clr d.chk, bad := clr d.bad, cap := { d.cap with clearing := SMap.del d.cap.clearing m } }
    let d := (d.setReg (instKey R.FMP_REC_CNT m) 0).setReg (instKey R.FMP_NEWBITS m) 0
    let d := ((d.setReg (instKey R.FMP_RANGE_CNT m) 0).setReg (instKey R.FMP_FIRST_BEAT m) 0xFFFFFFFF).setReg
      (instKey R.FMP_FIRST_ADDR m) 0
    d.event bFMP 0 0x613 (m % 256)

/-- An address lies in a fail map of the image (R346). -/
def Dev.failHolds (d : Dev) (a : Nat) : Bool :=
  (List.range 256).any (fun m => d.mapValid m && d.mapBase m ≤ a && a < d.mapBase m + 4 * 2 ^ d.mapBits m)

end Sys2Proof.Machine
end

