-- ==== Sys2Proof/Machine/Weft.lean ====
section
/-!
DEFINITION. Weft links (10 R291 to R301): topology, use of a link, frames and their delivery, forwarding, what a device
sends at commit and release, and the weave conditions of a release (06 R159).
-/

namespace Sys2Proof.Machine

/-! ### Role, topology (06 R183; 10 R299) -/

/-- Roles of TRD_WEAVE.ROLE. -/
def roSingle : Nat := 0
def roLeader : Nat := 1
def roMember : Nat := 2
def Dev.role (d : Dev) : Nat := d.fld F.TRD_WEAVE_ROLE
def Dev.position (d : Dev) : Nat := d.fld F.TRD_WEAVE_POSITION
/-- Devices of the weave, from the charter (08 R215). -/
def Dev.weaveSize (d : Dev) : Nat := (d.charter.map Charter.size).getD 1
/-- The device belongs to a weave. -/
def Dev.inWeave (d : Dev) : Bool := d.role != roSingle

/-- Physical link of a logical link (08 R215). -/
def Dev.physLink (d : Dev) (l : Nat) : Nat := match d.charter with
  | some c => c.linkMap.getD l l
  | none => l
/-- Logical link of a physical link. -/
def Dev.logLink (d : Dev) (p : Nat) : Nat := ((List.range 4).find? (fun l => d.physLink l == p)).getD p

/-- The neighbour's position and link that logical link l of position p joins; none: unused (R299). -/
def neighbour (topo size p l : Nat) : Option (Nat × Nat) :=
  if size < 2 then none
  else if topo = 0 then
    if l = 0 then some ((p + 1) % size, 1) else if l = 1 then some ((p + size - 1) % size, 0) else none
  else if size = 8 ∨ size = 12 ∨ size = 16 then
    let x := p % 4
    let y := p / 4
    let ny := size / 4
    if l = 0 then some (4 * y + (x + 1) % 4, 1)
    else if l = 1 then some (4 * y + (x + 3) % 4, 0)
    else if l = 2 then some (4 * ((y + 1) % ny) + x, 3)
    else if l = 3 then some (4 * ((y + ny - 1) % ny) + x, 2)
    else none
  else none

/-- What logical link l of this device joins (R299). -/
def Dev.joins (d : Dev) (l : Nat) : Option (Nat × Nat) :=
  if d.inWeave then neighbour (d.fld F.WFT_CTL_TOPO) d.weaveSize d.position l else none

/-- Logical links that the topology uses. -/
def Dev.usedLinks (d : Dev) : List Nat := (List.range 4).filter (fun l => (d.joins l).isSome)

/-! ### Links -/

/-- A link's record, by physical number. -/
def Dev.link (d : Dev) (p : Nat) : WLink := SMap.get WLink.empty d.weft.links p

/-- A link's record changed. -/
def Dev.onLink (d : Dev) (p : Nat) (f : WLink → WLink) : Dev :=
  { d with weft := { d.weft with links := SMap.put WLink.empty d.weft.links p (f (d.link p)) } }

/-- STATE of a link (R323): 0 DISABLED, 1 DOWN, 2 TRAINING, 3 UP, 4 IN_USE, 5 MISMATCHED, 6 UNUSED. -/
def Dev.linkState (d : Dev) (p : Nat) : Nat := d.fld (F.WFT_LINK_STATUS_STATE.at p)
def Dev.setLinkState (d : Dev) (p s : Nat) : Dev := d.setFld (F.WFT_LINK_STATUS_STATE.at p) s
def Dev.linkInUse (d : Dev) (p : Nat) : Bool := d.linkState p == 4
/-- The link is UP, whatever its use. -/
def Dev.linkUp (d : Dev) (p : Nat) : Bool := 3 ≤ d.linkState p

/-- The link carries the frames of the weave: UP, used by the topology and not MISMATCHED (R297, R298, R300). -/
def Dev.linkOpen (d : Dev) (p : Nat) : Bool := d.linkState p == 3 || d.linkState p == 4

/-- Position of the neighbour that the topology gives a physical link; 0 where it gives none (R299). -/
def Dev.nbrPos (d : Dev) (p : Nat) : Nat := ((d.joins (d.logLink p)).map Prod.fst).getD 0

/-- A link event; data: link, lane, position (R305). -/
def Dev.linkEvent (d : Dev) (p code lane pos : Nat) : Dev := d.event bWFT p code (p % 4 + lane % 16 * 4 + pos % 16 * 256)

/-- The link is no longer UP: its new STATE, and event 0x321 (R292, R305). -/
def Dev.linkFell (d : Dev) (p st lane : Nat) : Dev :=
  ((d.onLink p (fun w => { w with was := d.linkState p })).setLinkState p st).linkEvent p 0x321 lane (d.nbrPos p)

/-- Bytes in a link's retry buffer: header, body and CRC of each frame (R293, R295). -/
def WLink.bytes (w : WLink) : Nat := w.txq.foldl (fun n f => n + 12 + f.len) 0

/-- The 64-bit header of a frame that a link sends (R293). -/
def WLink.header (w : WLink) (f : FFrame) : Nat :=
  f.typ % 16 * 2 ^ 60 + f.seq % 65536 * 2 ^ 44 + w.lastAcc % 65536 * 2 ^ 28 + b2n w.nak * 2 ^ 27 + f.head % 2 ^ 27

/-- The bytes of a frame that a link sends: header, body, CRC-32C (R293). -/
def WLink.frameBytes (w : WLink) (f : FFrame) : List Byte :=
  let b := leBytes 8 (w.header f) ++ leBytes f.len f.body
  b ++ leBytes 4 (crc32c b)

/-- The IDLE block of a weft link: ACK in bytes 1 and 2, NAK in byte 3 (R293; 09 R253). -/
def WLink.idleBytes (w : WLink) : List Byte := controlBlock 1 (leBytes 2 w.lastAcc ++ leBytes 1 (b2n w.nak))

/-- The retry buffer of 64 KiB has room for a frame with a body of n bytes (R295). -/
def WLink.room (w : WLink) (n : Nat) : Bool := decide (w.bytes + 12 + n ≤ 65536)

/-- A frame enters the retry buffer with the next SEQ (R295). -/
def WLink.enter (w : WLink) (f : FFrame) : WLink :=
  { w with txq := w.txq ++ [{ f with seq := w.nextSeq }], nextSeq := (w.nextSeq + 1) % 65536 }

/-- A frame is sent, or waits behind those that already wait for room (R295). -/
def WLink.take (w : WLink) (f : FFrame) : WLink :=
  if w.due.isEmpty ∧ w.room f.len then w.enter f else { w with due := w.due ++ [f] }

/-- Waiting frames enter the retry buffer in order, as far as there is room (R295). -/
def WLink.drainDue (w : WLink) : List FFrame → WLink
  | [] => { w with due := [] }
  | f :: t => if w.room f.len then (w.enter f).drainDue t else { w with due := f :: t }

/-- A frame goes to a link (R295). -/
def Dev.linkSend (d : Dev) (p typ head body len : Nat) : Dev := d.onLink p (fun w => w.take ⟨typ, 0, head, body, len⟩)

/-- A frame on every UP link of the weave, but for one (`none`: on all) (R297, R298). -/
def Dev.sendAll (d : Dev) (skip : Option Nat) (typ head body len : Nat) : Dev :=
  (List.range 4).foldl (fun d p => if d.linkOpen p ∧ some p ≠ skip then d.linkSend p typ head body len else d) d

/-- The header bits and body of a MARK (R294). -/
def markHead (barrier commit token : Bool) (origin : Nat) : Nat :=
  b2n barrier * 2 ^ 26 + b2n commit * 2 ^ 25 + b2n token * 2 ^ 24 + origin % 16 * 2 ^ 20
def markBody (beat : Nat) (tb : Word) : Nat := beat % 2 ^ 48 + tb.toNat * 2 ^ 64

/-- The header bits of a PEER frame (R294). -/
def peerHead (src dst : Nat) (bcast : Bool) (cmd tag : Nat) : Nat :=
  src % 16 * 2 ^ 23 + dst % 16 * 2 ^ 19 + b2n bcast * 2 ^ 18 + cmd % 256 * 2 ^ 10 + tag % 1024

/-- The STATUS frame of this device on a link (R294, R300). -/
def Dev.sendStatus (d : Dev) (p : Nat) : Dev :=
  let sys := (d.charter.map Charter.systemId).getD 0
  d.linkSend p 4 0 (sys + d.position * 2 ^ 32 + d.role * 2 ^ 40 + d.weaveSize * 2 ^ 48 + d.fld F.WFT_CTL_TOPO * 2 ^ 56 +
    d.logLink p * 2 ^ 64) 12

/-- A DONE report kept for a position, on a link (R301). -/
def Dev.sendDone (d : Dev) (p pos : Nat) : Dev :=
  let v := SMap.get 0 d.weft.done pos
  if v = 0 then d else d.linkSend p 5 (pos % 16 * 2 ^ 23 + (v - 1) % 2 * 2 ^ 22 + (v - 1) / 2 % 256 * 2 ^ 14) 0 0

/-- LDR_DONE.MIRROR shows the newest RELEASED value of each position (R301; 08 R233). -/
def Dev.doneMirror (d : Dev) : Dev :=
  d.setFld F.LDR_DONE_MIRROR (ofBits ((List.range 16).map (fun pos =>
    let v := SMap.get 0 d.weft.done pos
    v != 0 && (v - 1) % 2 == 1)))

/-- This device's own release of DONE has changed: GEN rises, and the frame goes out (R301). A single device is position 0 of a
weave of one. -/
def Dev.ownDone (d : Dev) (released : Bool) : Dev :=
  let pos := d.position
  let v := SMap.get 0 d.weft.done pos
  let gen := if v = 0 then 1 else ((v - 1) / 2 + 1) % 256
  let d := ({ d with weft := { d.weft with done := SMap.put 0 d.weft.done pos (1 + 2 * gen + b2n released) } }).doneMirror
  (List.range 4).foldl (fun d p => if d.linkOpen p then d.sendDone p pos else d) d

/-- A peer command of this device: to one position, or to all (R302). -/
def Dev.peerSend (d : Dev) (dst : Nat) (bcast : Bool) (cmd args : Nat) : Dev :=
  let tag := d.weft.tag
  let d := d.sendAll none 3 (peerHead d.position dst bcast cmd tag) args 8
  let ask := if cmd ≤ 2 then d.weft.asked ++ [(tag, cmd, args % 256, if bcast then 255 else dst)] else d.weft.asked
  { d with weft := { d.weft with tag := (tag + 1) % 1024, asked := ask } }

/-- A reply to a peer command (R302). -/
def Dev.peerReply (d : Dev) (dst cmd tag args : Nat) : Dev :=
  d.sendAll none 3 (peerHead d.position dst false (cmd + 128) tag) args 8

/-- The weave is told of a halt: the first beat not committed (02 R44; R302). -/
def Dev.haltNotice (d : Dev) : Dev := if d.inWeave then d.peerSend 0 true 4 (d.loom.beat % 2 ^ 48) else d

/-! ### What a commit and a release send (R297) -/

/-- Values at flow and the consecutive flows after it, at most `fuel` of them. -/
def runFrom (xs : List (Nat × Nat × Nat)) : Nat → Nat → List Nat
  | 0, _ => []
  | n + 1, flow => match xs.find? (fun x => x.2.1 == flow) with
    | none => []
    | some x => x.2.2 :: runFrom xs n (flow + 1)

/-- The next BUNDLE frame of a link: from the lowest pending flow of the oldest beat over the consecutive flows, up to
1,024 (R294, R296). -/
def WLink.bundleFrame (w : WLink) : WLink :=
  match w.sendq with
  | [] => w
  | x :: _ =>
    let mine := w.sendq.filter (fun y => y.1 == x.1)
    let f0 := mine.foldl (fun m y => min m y.2.1) x.2.1
    let vs := runFrom mine 1024 f0
    let rest := w.sendq.filter (fun y => !(y.1 == x.1 && decide (f0 ≤ y.2.1) && decide (y.2.1 < f0 + vs.length)))
    { w with sendq := rest }.take ⟨1, 0, x.1 * 2 ^ 23 + f0 * 2 ^ 11 + (vs.length - 1) * 2, leNat (vs.map (BitVec.ofNat 8)), vs.length⟩

/-- Every pending bundle of a link goes into BUNDLE frames. -/
def WLink.bundleFrames (w : WLink) : Nat → WLink
  | 0 => w
  | n + 1 => w.bundleFrame.bundleFrames n

/-- A frame boundary of each UP link at which no other frame is due: one BUNDLE frame (R296). DESIGN CHOICE, assumption log 9: one
frame boundary a nanosecond. -/
def Dev.bundlesGo (d : Dev) : Dev :=
  (List.range 4).foldl (fun d p => if d.linkOpen p ∧ (d.link p).due.isEmpty then d.onLink p WLink.bundleFrame else d) d

/-- At the commit of beat n, on each UP link, after every BUNDLE frame of the beat: the barrier and the commit marker (R297). -/
def Dev.weftCommit (d : Dev) (n : Nat) : Dev :=
  if d.inWeave then
    let d := (List.range 4).foldl (fun d p => if d.linkOpen p then d.onLink p (fun w => w.bundleFrames w.sendq.length) else d) d
    d.sendAll none 2 (markHead true true false d.position) (markBody n 0) 16 else d

/-- At the release of beat n the leader sends its token (R297; 06 R185). -/
def Dev.weftToken (d : Dev) (n : Nat) : Dev :=
  if d.role = roLeader then d.sendAll none 2 (markHead false false true d.position) (markBody n d.tb.tb) 16 else d

/-! ### Release conditions 2, 3 and 8 (06 R159; 04 R119) -/

/-- Physical links that carry bundles to the device: those its WEFT_IN entries name (04 R117, R119). -/
def Dev.bundleLinks (d : Dev) : List Nat :=
  ((d.loom.entries.filter (fun e => Slot.kind e.2 == kWEFT_IN)).map (fun e => d.physLink (Slot.link e.2))).eraseDups

/-- Condition 2: the barrier of the last committed beat is held from each such link, and its bundles are staged. -/
def Dev.barrierHeld (d : Dev) : Bool :=
  !d.inWeave || (d.bundleLinks.all (fun p => d.loom.beat ≤ (d.link p).barrier) && !d.loom.bundles.any Bundle.fromGw)

/-- Condition 3: the commit marker of the last committed beat is held from every member. -/
def Dev.markersHeld (d : Dev) : Bool :=
  !d.inWeave || (List.range d.weaveSize).all (fun p => p == d.position || d.loom.beat ≤ SMap.get 0 d.weft.marks p)

/-- Condition 8: the token of the next beat has arrived at a member that needs it. -/
def Dev.tokenHeld (d : Dev) : Bool :=
  d.role != roMember || d.fld F.TRD_CTL_MODE == 1 || d.weft.tokens.any (fun t => t.1 == d.loom.beat % 2 ^ 48)

/-! ### Bundles across the gateway (04 R117; R296) -/

/-- The beat whose weft bundles go into staging, mod 16: the beat in progress, or else the last committed one; before beat 0 there is none,
and a bundle of beat 0 is early (04 R117, R118). -/
def Dev.stageBeat (d : Dev) : Nat := (if d.inBeat then d.loom.beat else d.loom.beat + 15) % 16

/-- A bundle of a link and flow is put once onto each ring that a WEFT_IN entry names for it (04 R117). A bundle sent
again replaces the one that is still on the ring (R296). -/
def Dev.gatewayPut (d : Dev) (link flow val : Nat) : Dev :=
  let ll := d.logLink link
  let rings := ((d.loom.entries.filter (fun e => Slot.kind e.2 == kWEFT_IN && Slot.link e.2 == ll &&
    Slot.flow e.2 == flow)).map (fun e => Slot.ring e.2)).eraseDups
  rings.foldl (fun d r =>
    let first := ringNext r (gwStop r)
    let rest := d.loom.bundles.filter (fun b => !(b.fromGw && b.ring == r && b.link == ll && b.flow == flow))
    d.onLoom (fun l => { l with bundles := rest ++ [⟨r, true, ll, true, flow, val % 256, first, first, []⟩] })) d

/-- A bundle joins a link's send queue; one of the same beat and flow, sent again by a rerun, replaces it (R296). -/
def WLink.addBundle (w : WLink) (beat flow val : Nat) : WLink :=
  { w with sendq := w.sendq.filter (fun y => !(y.1 == beat && y.2.1 == flow)) ++ [(beat, flow, val)] }

/-- The gateway removes a weft bundle that stands at its stop and hands it to its link's send queue, while the retry buffer has room
for a frame of each bundle that waits (04 R117; R295, R296). A MISMATCHED link carries no bundle (R300), and a link that
takes no part in the weave has no far end: the bundle ends there (R299; DEDUCED, log 9). -/
def Dev.gatewayHandoff (d : Dev) (i : Nat) : Dev :=
  match d.loom.bundles[i]? with
  | none => d
  | some b =>
    let p := d.physLink b.link
    if !(b.weft && !b.fromGw && b.stop == gwStop b.ring) then d
    else if (d.joins b.link).isNone then d.onLoom (fun l => { l with bundles := l.bundles.eraseIdx i })
    else if d.linkState p = 5 ∨ 65536 < (d.link p).bytes + 13 * ((d.link p).sendq.length + 1) ∨ !(d.link p).due.isEmpty then d
    else (d.onLoom (fun l => { l with bundles := l.bundles.eraseIdx i })).onLink p (fun w => w.addBundle (d.loom.beat % 16) b.flow b.val)

end Sys2Proof.Machine
end

