-- ==== Sys2Proof/Machine/Arm.lean ====
section
/-!
DEFINITION. The arming need of PACED mode (06 R165) and the fields of the loaded image's header.
-/

namespace Sys2Proof.Machine

/-- n bytes of the loaded image's header at an offset (08 R222); 0 without an image. -/
def Dev.hdr (d : Dev) (off n : Nat) : Nat := match d.ldr.cache with
  | some im => leAt im.header off n
  | none => 0

/-- S_DECL of the header (08 R222). -/
def Dev.sDecl (d : Dev) : Nat := d.hdr 48 4

/-- The left side of 06 R165 in ns, rounded up, for a critical path C with E; `num` / 100 scales TP_ARM. -/
def Dev.armNeed (d : Dev) (path : Nat × Nat × Nat) (num : Nat) : Nat :=
  let h := if d.hazard then path.2.2 + 4 * d.fld F.TRD_MARGIN_HAZ_BUDGET else 0
  -- T_arm in units of 1/100 ps
  let t := (path.1 + 25 + h) * d.fld F.TRD_MARGIN_TP_ARM * num + d.sDecl * 100000
  (t * (256 + d.fld F.TRD_MARGIN_MARGIN) + 25600000 - 1) / 25600000

/-- The treadle computes the need and whether the condition holds (06 R165), for both steppings. -/
def Dev.armCompute (d : Dev) : Dev :=
  let p := d.fld F.TRD_PERIOD_PERIOD
  let a := d.armNeed d.loom.pathA 105
  let b := d.armNeed d.loom.pathB 100
  { d with trd := { d.trd with armA := (a, decide (a ≤ p)), armB := (b, decide (b ≤ p)) } }

/-- NEED and the condition on the stepping present. -/
def Dev.arm (d : Dev) : Nat × Bool := if Config.step = 0 then d.trd.armA else d.trd.armB

/-- The arming fails: event 0x230; bit 24: for a change of CHECK (06 R165). -/
def Dev.armFail (d : Dev) (check : Bool) : Dev :=
  (d.setFld F.TRD_EVENTS_ARM_FAIL 1).event bTRD 0 0x230 (d.arm.1 % 2 ^ 24 + b2n check * 2 ^ 24)

/-- A change of CHECK has taken effect: the need is computed again; a PACED weave that runs goes on (06 R165). -/
def Dev.checkChanged (d : Dev) : Dev :=
  let d := d.armCompute
  let runs := d.ts == tsStarting || d.ts == tsBeat || d.ts == tsWaiting || d.ts == tsSolo
  if runs && d.fld F.TRD_CTL_MODE == 1 && !d.arm.2 then d.armFail true else d

end Sys2Proof.Machine
end

