-- ==== Sys2Proof/Machine/Beat.lean ====
section
/-!
DEFINITION. The life of a beat (02 R33 to R50, 06 R157 to R170): release, attempt, completion, commit, faults and their
fixes, repair steps, halts.
-/

namespace Sys2Proof.Machine

/-! ### Panels (15 R448) -/

/-- State of a panel: 0 RUN, 1 IDLE, 2 SLEEP, 3 OFF. -/
def Dev.panel (d : Dev) (p : Nat) : Nat := bitsN (d.fld F.PWR_STATUS_PANEL) (2 * p + 1) (2 * p)

/-- A panel's state set. -/
def Dev.setPanel (d : Dev) (p s : Nat) : Dev :=
  d.setFld F.PWR_STATUS_PANEL ((setBits (BitVec.ofNat 32 (d.fld F.PWR_STATUS_PANEL)) (2 * p + 1) (2 * p) s).toNat)

/-- Panel of a logical beam's physical beam. -/
def Dev.panelOf (d : Dev) (gb : Nat) : Nat := d.loom.pgb gb / 32

/-- Logical beams with mapped harnesses. -/
def Loom.mappedBeams (l : Loom) : List Nat := l.need.map Prod.fst

/-- A panel is in RUN or IDLE and not on its way to SLEEP. -/
def Dev.panelUp (d : Dev) (p : Nat) : Bool := d.panel p < 2 && !d.plat.sleeping.testBit p

/-- Panels that hold mapped beams are awake (15 R449). -/
def Dev.panelsAwake (d : Dev) : Bool := d.loom.mappedBeams.all (fun gb => d.panelUp (d.panelOf gb))

/-- A bit set in a mask, cleared in it. -/
def orBit (m i : Nat) : Nat := if m.testBit i then m else m + 2 ^ i
def offBit (m i : Nat) : Nat := if m.testBit i then m - 2 ^ i else m

/-- The panels of a list that are not awake begin to wake, for a cause of R470 (15 R449, R451); one in OFF with code 30 as its PEN rises
(17 R491). -/
def Dev.wakePanels (d : Dev) (ps : List Nat) (cause : Nat) : Dev :=
  ps.foldl (fun d p =>
    if d.panelUp p then d
    else
      let d := if d.panel p = 3 then d.setFld (F.PWR_PANEL_V_CODE.at p) 30 else d
      { d with plat := { d.plat with
          waking := orBit d.plat.waking p, panelCause := SMap.put 0 d.plat.panelCause p cause } }) d

/-- A panel holds mapped beams. -/
def Dev.panelHolds (d : Dev) (p : Nat) : Bool := d.loom.mappedBeams.any (fun gb => d.panelOf gb == p)

/-- First address of the save area (15 R450). -/
def Dev.saveBase (d : Dev) : Nat := d.fld F.PWR_SAVE_BASE_BASE * 2 ^ 28

/-- The save area is usable (15 R450). -/
def Dev.saveUsable (d : Dev) : Bool :=
  let free := fun a b => !(decide (a < b) && decide (d.saveBase < b) && decide (a < d.saveBase + 2 ^ 28))
  let cache := d.fld F.LDR_CACHE_BASE_BASE * 256
  d.fld F.PWR_SAVE_BASE_EN == 1 && decide (d.saveBase + 2 ^ 28 ≤ hbmEnd) && free spillBase hbmEnd &&
    free cache (cache + d.fld F.LDR_CACHE_SIZE_SIZE * 2 ^ 28) &&
    d.loom.dwin.all (fun w => !Win.valid w.2 || Win.mailbox w.2 || free (Win.lo w.2) (Win.hi w.2)) &&
    (List.range 16).all (fun u => d.capMode u == 0 ||
      (let b := d.capFld F.CAP_BUF_BASE_BASE u * 256; free b (b + 2 ^ d.capFld F.CAP_UNIT_CFG_SIZE u))) &&
    (List.range 256).all (fun m => !d.mapValid m || free (d.mapBase m) (d.mapBase m + 4 * 2 ^ d.mapBits m))

/-- A request for SLEEP, or for OFF, of a panel is accepted (15 R449). -/
def Dev.sleepOk (d : Dev) (p : Nat) (off : Bool) : Bool :=
  !d.panelHolds p ||
    (!off && (d.ts == tsIdle || d.ts == tsArmed || d.ts == tsHalted) && d.ldr.load.isNone && d.ldr.bay.isNone &&
      d.ldr.replace.isNone && d.saveUsable)

/-- A panel begins to enter SLEEP, from OFF with code 30 as its PEN rises (15 R451; 17 R491). One that still is in SLEEP stays there, and a wake that had begun ends: its save
area already holds the committed state. -/
def Dev.askSleep (d : Dev) (p cause : Nat) : Dev :=
  if d.panel p = 2 then { d with plat := { d.plat with waking := offBit d.plat.waking p } }
  else
    let d := if d.panel p = 3 then d.setFld (F.PWR_PANEL_V_CODE.at p) 30 else d
    { d with plat := { d.plat with
        sleeping := orBit d.plat.sleeping p, waking := offBit d.plat.waking p
        panelCause := SMap.put 0 d.plat.panelCause p cause } }

/-- A SLEEP action of the watch unit asks for its panels (15 R461, R470). -/
def Dev.watchSleep (d : Dev) (rule mask : Nat) : Dev :=
  let ps := (List.range 4).filter (fun p => mask.testBit p)
  let ok := ps.filter (fun p => d.sleepOk p false)
  (ok.foldl (fun d p => d.askSleep p 1) d).event bWCH 0 0xA06
    (rule % 32 + mask % 16 * 32 + b2n (ok.length != ps.length) * 2 ^ 9)

/-- SLEEP actions that waited for the halt (15 R461). -/
def Dev.sleepAfterHalt (d : Dev) : Dev :=
  let xs := d.plat.sleepOwed
  xs.foldl (fun d x => d.watchSleep x.1 x.2) { d with plat := { d.plat with sleepOwed := [] } }

/-- Panels follow the treadle between RUN and IDLE (15 R448). -/
def Dev.panelsFollow (d : Dev) (running : Bool) : Dev :=
  (List.range 4).foldl (fun d p =>
    if 2 ≤ d.panel p then d
    else d.setPanel p (if running && d.loom.mappedBeams.any (fun gb => d.panelOf gb == p && !d.beamOut gb) then 0 else 1)) d

/-! ### Release conditions (06 R159) -/

/-- A halt that is pending, or a halt input held low (06 R159 condition 6, R172; 15 R461). -/
def Dev.haltPending (d : Dev) : Bool := d.loom.haltReq.isSome || d.trd.haltLow || d.trd.parkLow

/-- The lowest of conditions 1 to 6 that is not met; 0: all are met. -/
def Dev.unmet6 (d : Dev) : Nat :=
  if !d.barrierHeld then 2
  else if !d.markersHeld then 3
  else if !d.loom.readback.isEmpty then 4
  else if d.rel.grant ≠ 0 then 5
  else if d.haltPending then 6
  else 0

/-- The lowest unmet release condition; 9: the start time, a weave START, a re-place or a panel wake is waited for
(06 R159, R164, R192; 14 R436, 15 R449, 16 R479). -/
def Dev.unmet (d : Dev) : Nat :=
  let u := d.unmet6
  if u ≠ 0 then u
  else if d.ts = tsStarting ∧ (d.trd.timed ∨ !(d.weft.start == .idle || d.weft.start == .ready) ∨ d.ldr.replace.isSome ∨
      !d.panelsAwake) then 9
  else if d.fld F.TRD_CTL_MODE = 1 ∧ !d.trd.slotReached then 7
  else if d.lockMissing.isSome then 7
  else if !d.tokenHeld then 8
  else 0

/-- The treadle changed. -/
def Dev.onTrd (d : Dev) (f : Treadle → Treadle) : Dev := { d with trd := f d.trd }

/-- A first slot that was reached and not used has passed, where a halt input falls before its release (06 R164). -/
def Dev.slotMissed (d : Dev) : Dev :=
  if d.ts = tsStarting ∧ d.trd.slotReached then (d.holdNamed).onTrd (fun r => { r with slotReached := false }) else d

/-! ### Slack (06 R161, R162) -/

/-- A slack taken into the registers: the last beat's, the window's least (06 R162). -/
def Dev.takeSlack (d : Dev) (s : Int) : Dev :=
  let m := min s (d.trd.winMin.getD s)
  let d := d.setReg R.TRD_SLACK_LAST (BitVec.ofNat 32 (unsgn 32 s))
  if d.loom.beat % 1024 = 0 then
    (d.setReg R.TRD_SLACK_MIN (BitVec.ofNat 32 (unsgn 32 m))).onTrd (fun t => { t with winMin := none, winBeats := 0 })
  else d.onTrd (fun t => { t with winMin := some m, winBeats := t.winBeats + 1 })

/-- A halt closes the window in progress (06 R162). -/
def Dev.closeWindow (d : Dev) : Dev :=
  match d.trd.winMin with
  | none => d
  | some m => (d.setReg R.TRD_SLACK_MIN (BitVec.ofNat 32 (unsgn 32 m))).onTrd (fun t => { t with winMin := none, winBeats := 0 })

/-- t_ready is noted when conditions 1 to 6 are first all met; the slack of the last beat follows (06 R160, R161). -/
def Dev.noteReady (d : Dev) : Dev :=
  if d.ts = tsWaiting ∧ d.trd.tReady = none ∧ d.unmet6 = 0 then
    let d := { d with trd := { d.trd with tReady := some d.tb.tb } }
    if d.fld F.TRD_CTL_MODE = 1 ∧ d.trd.inSlot then d.takeSlack (sgn 32 (d.trd.slotEnd - d.tb.tb).toNat) else d
  else d

/-- A beam has read back every entry it spilled in the committed beat; the release may now be ready (05 R130, 06 R160). -/
def Dev.spillReadback (d : Dev) (gb : Nat) : Dev := (d.readBack gb).noteReady

/-- A bundle moves one hop; the last bundle of the gateway to leave the rings may make the release ready (04 R110; 06 R160). -/
def Dev.ringHop (d : Dev) (i : Nat) : Dev := (d.hopBundle i).noteReady

/-! ### Release (02 R33 event 1; 06 R159, R160, R164, R185, R186; 08 R243, R245) -/

/-- The state of the loom at the release of an attempt (03 R65, R85; 04 R96 to R114). -/
def Loom.fresh (l : Loom) : Loom :=
  { l with
    phase := .released, fault := none, memFault := none, brk := false, done := [], fetched := [], held := [], waited := []
    spillDue := [], journalMet := [], operands := [], closed := [], win := [], winSt := [], winLost := [], brx := [], pulls := [], lanes := [], lrx := []
    injected := [], bundles := l.bundles.filter Bundle.fromGw, putStage := [], hazards := [], merges := [], bj := []
    dj := [], taps := [], tapStage := [], busyAtt := 0 }

/-- The injecting stop of an EXTRACT entry's flow lies in a bay that is out (04 R115). -/
def Dev.flowOut (d : Dev) (s : Word64) : Bool :=
  d.loom.entries.any (fun e => Slot.kind e.2 == kINJECT && Slot.ring e.2 == Slot.ring s && Slot.flow e.2 == Slot.flow s &&
    d.beamOut (e.1 / 1024))

/-- EXTRACT entries whose flow is injected by a bay that is out write their bundle at the release (04 R115); BMODE 0
writes 0 where no beat has committed (DESIGN CHOICE, assumption log 16). -/
def Dev.fillOut (d : Dev) : Dev :=
  let es := d.loom.entries.filter (fun e => Slot.kind e.2 == kEXTRACT && !d.beamOut (e.1 / 1024) && d.flowOut e.2)
  d.onLoom (fun l => { l with lrx := es.foldl (fun m e =>
    SMap.put 0 m (32 * hnOf (e.1 / 1024) (Slot.harness e.2) + Slot.bundle e.2)
      (256 + (if Slot.bmode e.2 = 1 then Slot.bdef e.2 else SMap.get 0 l.lastExt e.1))) l.lrx })

/-- A terminal status of a START, STOP or CANCEL (06 R171, R192). -/
def Dev.cmdStatus (d : Dev) (cmd status reason : Nat) : Dev :=
  d.setReg R.TRD_CMD_STATUS (BitVec.ofNat 32 (reason * 256 + cmd * 16 + status))

/-- A START is pending. -/
def Dev.startPending (d : Dev) : Bool := d.ts == tsStarting || d.trd.recovery != 0 || d.trd.startOwed.isSome

/-- Bundles that arrived early for the beat now released are put on the rings (04 R117). -/
def Dev.earlyIn (d : Dev) : Dev :=
  (List.range 4).foldl (fun d p =>
    let now := (d.link p).early.filter (fun x => x.1 == d.loom.beat % 16)
    let d := d.onLink p (fun w => { w with early := w.early.filter (fun x => x.1 != d.loom.beat % 16) })
    now.foldl (fun d x => d.gatewayPut p x.2.1 x.2.2) d) d

/-- A bay whose write step has ended takes part again: event 0x121, the command ends DONE (08 R243, R245). -/
def Dev.bayRejoin (d : Dev) : Dev :=
  match d.ldr.bay with
  | some b =>
    if b.phase = 4 then
      let out := (d.reg R.LDR_BAY_STATUS).toNat
      let d := d.setReg R.LDR_BAY_STATUS (BitVec.ofNat 32 (if out.testBit b.bay then out - 2 ^ b.bay else out))
      let d := { d with ldr := { d.ldr with bay := none } }
      let d := ((d.setFld F.LDR_CMD_STATUS_CMD 3).setFld F.LDR_CMD_STATUS_STATUS 2).setFld F.LDR_CMD_STATUS_REASON 0
      (d.onLoom (fun l => { l with rejoin := 2 ^ b.bay })).loadEvent 0x121 (bayData b)
    else d
  | none => d

/-- The skew of a member's release against the leader's token of the beat (06 R186). -/
def Dev.tokenSkew (d : Dev) (tb : Word) : Dev :=
  let skew := sgn 32 (d.trd.relTb - tb).toNat
  let d := d.setReg R.TRD_TOKEN_SKEW (BitVec.ofNat 32 (unsgn 32 skew))
  if Int.ofNat (d.fld F.TRD_WEAVE_TOKEN_WINDOW) < skew.natAbs then
    ((d.addFld F.TRD_TOKEN_LATE_CNT_COUNT 1).setFld F.TRD_EVENTS_TOKEN 1).event bTRD 0 0x310 0
  else d

/-- A member checks the token of the beat that it has released (06 R186). -/
def Dev.checkToken (d : Dev) : Dev :=
  if d.role = roMember ∧ d.fld F.TRD_CTL_MODE = 1 then
    match d.weft.tokens.find? (fun t => t.1 == d.loom.beat % 2 ^ 48) with
    | some t => d.tokenSkew t.2
    | none => d
  else d

/-- An overrun under STRETCH, reported at the release that ends it (06 R161, R163). -/
def Dev.reportOverrun (d : Dev) : Dev :=
  match d.trd.tReady with
  | some t =>
    let s := sgn 32 (d.trd.slotEnd - t).toNat
    if d.fld F.TRD_CTL_MODE = 1 ∧ d.trd.inSlot ∧ s < 0 then
      ((d.addFld F.TRD_OVR_CNT_COUNT 1).setFld F.TRD_EVENTS_OVERRUN 1).event bTRD 0 0x231
        (min s.natAbs (2 ^ 32 - 1) + min d.trd.skipped 0xFFF * 2 ^ 32)
    else d
  | none => d

/-- The slot of the beat to be released: it starts at the slot start just reached (06 R160, R161). -/
def Dev.takeSlot (d : Dev) : Dev :=
  let paced := d.fld F.TRD_CTL_MODE == 1
  d.onTrd (fun t => { t with
    slotEnd := t.nextSlot, inSlot := paced && t.slotReached, slotReached := false, skipped := 0, tReady := none, relTb := d.tb.tb })

/-- The release of a beat (02 R33). `ts` is BEAT, or SOLO for a catch-up beat, which takes no slot and no token
(06 R188). -/
def Dev.releaseBeat (d : Dev) (ts : Nat) : Dev :=
  let d := if ts = tsBeat ∧ d.ts = tsStarting then d.cmdStatus 1 2 0 else d
  let d := if ts = tsBeat then d.reportOverrun.takeSlot
    else d.onTrd (fun t => { t with inSlot := false, relTb := d.tb.tb, tReady := none, soloDue := false })
  let d := if ts = tsBeat then (d.onTrd (fun t => { t with recovery := 0 })) else d
  let d := { d with weft := { d.weft with start := if ts = tsBeat then .idle else d.weft.start } }
  let d := (((d.setTs ts).setFld F.LOM_STATUS_HALT_CAUSE 0).setFld F.LOM_STATUS_ATTEMPT 0).setFld F.LOM_STATUS_REPAIRED 0
  let d := (d.unalert alHalt).unalert alPin
  let d := d.bayRejoin.onLoom (fun l => { l.fresh with
    solo := ts == tsSolo, wnext := l.wstage.foldl (fun m x => SMap.put 0 m x.1 x.2) l.wnext, wstage := [] })
  let d := (d.fillOut.earlyIn).panelsFollow true
  if ts = tsBeat then (d.weftToken d.loom.beat).checkToken else d

/-- The catch-up beat that the leader has ordered is released at once: no slot and no token, but nothing spilled is to be read
back, no halt input is low (06 R172, R188; 05 R130), and no re-place runs (14 R436). -/
def Dev.soloRelease (d : Dev) : Dev :=
  if d.ts = tsHalted ∧ d.trd.soloDue ∧ d.loom.readback = [] ∧ !d.haltPending ∧ d.ldr.replace = none then d.releaseBeat tsSolo else d

/-- The treadle issues the release of the next beat, or of a rerun, when every condition holds (06 R159; 02 R41). -/
def Dev.beatRelease (d : Dev) : Dev :=
  if d.inBeat ∧ d.loom.phase = .rerun then
    (d.onLoom Loom.fresh).fillOut
  else if d.ts = tsHalted then d.soloRelease
  else if (d.ts = tsWaiting ∨ d.ts = tsStarting) ∧ d.unmet = 0 then d.releaseBeat tsBeat
  else d

/-- Weft-receive windows take the staging of the beat before, as the release found it; in beat 0 and for a bay that rejoins they hold the BDEF of their entry (04
R117, R118; 08 R245). -/
def Dev.freezeWeft (d : Dev) : Dev :=
  let es := d.loom.entries.filter (fun e => Slot.kind e.2 == kWEFT_IN)
  d.onLoom (fun l =>
    let taken := l.wnext.foldl (fun m x => SMap.put 0 m x.1 (x.2 - 256)) l.wrx
    let first := es.foldl (fun m e =>
      if l.bayFirst (e.1 / 1024) then SMap.put 0 m (32 * hnOf (e.1 / 1024) (Slot.harness e.2) + Slot.bundle e.2) (Slot.bdef e.2)
      else m) taken
    { l with wrx := first, wnext := [] })

/-- The release reaches the heddles: BANK, port-in and weft receive are frozen; picks may start (02 R28, R33). -/
def Dev.releaseReaches (d : Dev) : Dev :=
  if d.loom.phase = .released then
    let d := if d.loom.frozen then d else d.freezePortIn.freezeWeft
    d.onLoom (fun l => { l with frozen := true, phase := .running })
  else d

/-- The release reaches the heddles while the GPIO inputs have these levels: PORT_IN sources of GPIO are frozen with them (04
R106; 17 R495). -/
def Dev.releaseAt (d : Dev) (gpio : Nat) : Dev :=
  if d.loom.phase = .released then ({ d with plat := { d.plat with gpioIn := gpio % 2 ^ 48 } }).releaseReaches else d

/-! ### Completion (02 R34) -/

/-- Every bundle of the attempt has reached its receiving slot (02 R34; 04 R110, R111). -/
def Dev.ringsDone (d : Dev) : Bool :=
  d.loom.entries.all (fun e =>
    let on := d.active (hnOf (e.1 / 1024) (Slot.harness e.2))
    if Slot.kind e.2 = kINJECT ∨ Slot.kind e.2 = kWEFT_OUT then !on || SMap.get false d.loom.injected e.1
    else if Slot.kind e.2 = kEXTRACT then
      d.beamOut (e.1 / 1024) ||
        !(d.loom.entries.any (fun x => Slot.kind x.2 == kINJECT && Slot.ring x.2 == Slot.ring e.2 &&
          Slot.flow x.2 == Slot.flow e.2 && d.active (hnOf (x.1 / 1024) (Slot.harness x.2)))) ||
        SMap.get 0 d.loom.lrx (32 * hnOf (e.1 / 1024) (Slot.harness e.2) + Slot.bundle e.2) != 0
    else true) &&
  !(d.loom.bundles.any (fun b => b.weft && !b.fromGw))

/-- Every item of 02 R34 is done. -/
def Dev.attemptDone (d : Dev) : Bool :=
  d.actives.all (fun hn => (List.range 32).all (fun k => SMap.get 0 d.loom.done (hkOf hn k) == d.depth)) &&
  d.actives.all (fun hn => (List.range 8).all (fun j => (List.range d.depth).all (fun p =>
    SMap.get 0 d.loom.lanes ((2048 * hn + p) * 8 + j) != 0))) &&
  d.actives.all (fun hn => SMap.get 0 d.loom.pulls hn == d.depth) &&
  d.loom.deepReads.all (fun r => r.aborted || r.beat != d.loom.beat || (r.delayed && !Win.mailbox (d.loom.win64 r.gb))) &&
  d.ringsDone && d.loom.taps.isEmpty && d.namedLanes.all (fun l => d.txqLen (d.phys l) < 64)

/-- The reed reports the attempt complete (02 R33 event 5). -/
def Dev.reedComplete (d : Dev) : Dev :=
  if d.loom.phase = .running ∧ d.attemptDone then d.onLoom (fun l => { l with phase := .complete }) else d

/-! ### Halts (02 R43, R44) -/

/-- The repair step of an uncommitted beat is undone (02 R42, R48). -/
def Dev.undoRepair (d : Dev) : Dev :=
  let d := match d.loom.savedMaps with
    | some m => d.onLoom (fun l => { l with
        hmap := m.1, repl := m.2.1, spare := m.2.2, savedMaps := none, savedFlip := []
        jacFlip := l.savedFlip.foldl (fun (j : SMap StoredWord) (e : Nat × StoredWord) => SMap.put 0 j e.1 e.2) l.jacFlip })
    | none => d
  { d with rel := { d.rel with stepWord := none } }

/-- A STOP that waits for its halt is DONE (06 R171). -/
def Dev.stopDone (d : Dev) : Dev :=
  if d.trd.stopPend then (d.cmdStatus 2 2 0).onTrd (fun t => { t with stopPend := false }) else d

/-- On each panel that tests no retired slot, the next waiting beam begins: they take turns in ascending physical number (14 R432 event
5). One whose panel sleeps or whose bay is out waits on (16 R477, R483). -/
def Dev.rollTurns (d : Dev) : Dev :=
  let ready := fun g => decide (d.panel (g / 32) < 2) && !d.loom.need.any (fun x => d.loom.pgb x.1 == g && d.beamOut x.1)
  let turn := fun (x : SMap Roll × SMap Nat) panel =>
    let mine := x.1.filter (fun y => y.1 / 32 == panel)
    let waits := mine.filter (fun x => x.2.phase == 5 && ready x.1)
    let last := SMap.get 0 x.2 panel
    match (waits.find? (fun y => decide (last ≤ y.1))).or waits.head? with
    | some (g, r) =>
      if mine.any (fun y => y.2.phase == 6) then x else (SMap.put Roll.empty x.1 g { r with phase := 6 }, SMap.put 0 x.2 panel (g + 1))
    | none => x
  let r := (List.range 4).foldl turn (d.rel.roll, d.rel.turn)
  { d with rel := { d.rel with roll := r.1, turn := r.2 } }

/-- A step abandoned: the candidate stays. A retired slot stays out of use, and its test restarts when it can (16 R477). -/
def Roll.stop (r : Roll) : Roll := if 5 ≤ r.phase then { r with phase := 5 } else { Roll.empty with last := r.last }

/-- Rolling-test steps on the physical beams of a list are abandoned (16 R477, R483). -/
def Dev.rollAbandon (d : Dev) (pgbs : List Nat) : Dev :=
  { d with rel := { d.rel with
      roll := pgbs.foldl (fun m g => SMap.put Roll.empty m g (SMap.get Roll.empty m g).stop) d.rel.roll
      grant := if pgbs.any (fun g => g + 1 == d.rel.grant) then 0 else d.rel.grant } }

/-- Rolling-test steps on the physical beams of a list end: their slots count as unnamed ones (14 R436). -/
def Dev.rollDrop (d : Dev) (pgbs : List Nat) : Dev :=
  { d with rel := { d.rel with
      roll := pgbs.foldl (fun m g => SMap.put Roll.empty m g { Roll.empty with last := (SMap.get Roll.empty m g).last }) d.rel.roll
      grant := if pgbs.any (fun g => g + 1 == d.rel.grant) then 0 else d.rel.grant } }

/-- The leave point of a staged bay: it takes no part from the next release on (08 R243). -/
def Dev.bayLeave (d : Dev) : Dev :=
  match d.ldr.bay with
  | some b =>
    if b.phase = 2 then
      let d := d.rollAbandon (((d.loom.bay.filter (fun x => x.2 == b.bay + 1)).map (fun x => d.loom.pgb x.1)))
      let d := d.setReg R.LDR_BAY_STATUS (d.reg R.LDR_BAY_STATUS ||| BitVec.ofNat 32 (2 ^ b.bay))
      ({ d with ldr := { d.ldr with bay := some { b with phase := 3 } } }).loadEvent 0x120 (bayData b)
    else d
  | none => d

/-- The START of a recovery that cannot end is refused with reason 7, on every device: the weave stays halted (06 R188), and a staged bay
leaves (08 R243). -/
def Dev.recoveryFails (d : Dev) : Dev :=
  let d := ((d.event bTRD 0 0x236 0).cmdStatus 1 4 7).peerSend 0 true 3 7
  let d := if d.ts = tsStarting then d.setTs tsHalted else d
  (({ d with weft := { d.weft with start := .idle } }).onTrd (fun t => { t with recovery := 0, soloDue := false })).bayLeave

/-- A halt takes effect (02 R44): the treadle stops, the cause is shown, a fault asserts ALERT_N, the weave is told. A SOLO beat of
the leader that halts ends its START (06 R188). An overrun of a beat that no release follows is reported (06 R163). HOLD frames and
safe-state pins follow from the state. -/
def Dev.haltNow (d : Dev) (cause : Nat) (fault : Bool) : Dev :=
  let d := if d.ts = tsWaiting then d.reportOverrun else d
  let lead := d.ts == tsSolo && d.role == roLeader
  let d := ((d.setTs tsHalted).setFld F.LOM_STATUS_HALT_CAUSE cause).onLoom (fun l => { l with
    phase := .none, haltReq := none, solo := false })
  let d := if cause = 4 then d.event bTRD 0 0x232 0 else d
  let d := if fault then (d.setFld F.LOM_EVENTS_HALT 1).alert alHalt else d
  let d := (((d.closeWindow.stopDone).onTrd (fun t => { t with tReady := none, slotReached := false, inSlot := false })).panelsFollow
    false).haltNotice
  (if lead then d.recoveryFails else d.bayLeave).sleepAfterHalt

/-- A requested halt: at the commit of the beat in progress, or at once while no beat is (02 R43). -/
def Dev.requestHalt (d : Dev) (cause : Nat) : Dev :=
  if d.inBeat then d.onLoom (fun l => { l with haltReq := some (l.haltReq.getD cause) })
  else if d.ts = tsWaiting then d.haltNow cause false
  else d

/-- Bundles of the attempt that stops discard when it is aborted: those on the rings, and the injections that wait, at most 16
at a stop on a ring (04 R110, R114, R124). -/
def Loom.discarded (l : Loom) : Nat :=
  let waits := (l.entries.filter l.injWaits).map (fun e => e.1 / 1024 * 8 + Slot.ring e.2)
  (l.bundles.filter (fun b => !b.fromGw)).length + (waits.eraseDups.map (fun k => min 16 (waits.count k))).sum

/-- The held effects of the attempt in progress are discarded (02 R35, R41; 04 R114); its deep reads are still served (05
R137, R139). What is discarded shows in LRG_DISCARD_CNT from the next commit on (04 R120). -/
def Dev.discardAttempt (d : Dev) : Dev :=
  d.onLoom (fun l => { l with
    since := { l.since with discards := l.since.discards + l.discarded }
    bj := [], dj := [], hazards := [], merges := [], putStage := [], brk := false, taps := [], tapStage := [],
    failStage := l.failStage.filter (fun r => r.beat != l.beat), failHeld := [],
    deepReads := l.deepReads.map (fun r => if r.beat = l.beat then { r with aborted := true } else r), busyAtt := 0,
    bundles := l.bundles.filter Bundle.fromGw, injected := [] })

/-- Writes that wait for the commit take effect, in order; a change of CHECK recomputes the arming (01 R14, R15; 04
R101; 06 R165). -/
def Dev.commitWrites (d : Dev) : Dev :=
  let was := d.hazard
  let d := d.loom.atCommit.foldl (fun d x => d.setReg x.1 x.2) d
  let d := if d.hazard = was then d else d.checkChanged
  let d := d.loom.mergeNext.foldl (fun d x => d.setFld (F.DRW_HCFG_LANE_MERGE.at x.1) (x.2 - 1)) d
  d.onLoom (fun l => { l with atCommit := [], mergeNext := [] })

/-- A halt that discards the attempt, with the event of a beam (02 R43, R45, R46). No commit follows for the writes that waited for one: they take effect in
HALTED, before those accepted later (01 R14, R15; DEDUCED, assumption log 36). -/
def Dev.faultHalt (d : Dev) (cause gb code data : Nat) : Dev := d.oneHubCycle fun d =>
  let d := (d.setFld F.LOM_STATUS_ATTEMPT 0).setFld F.LOM_STATUS_REPAIRED 0
  (((d.undoRepair.onLoom (fun l => { l with fault := none, memFault := none })).event bLOM gb code data).haltNow cause true).commitWrites

/-! ### Commit (02 R35) -/

/-- The beam journals applied, in order of beam, pick and harness (03 R79). -/
def Dev.applyBeam (d : Dev) : Dev :=
  (sortBy (fun (e : JEntry) => (e.gb * 2048 + e.pick) * 64 + e.h) d.loom.bj).foldl (fun d e =>
    (d.setWord (beamMemAddr e.gb e.addr) e.data).cleanUnits (beamMemAddr e.gb e.addr) 4) d

/-- Blocks that a deep write changes in the windows of the beams (05 R136). -/
def Loom.staleOf (l : Loom) (e : JEntry) : List (Nat × Nat) :=
  let w := l.win64 e.gb
  if Win.mailbox w then []
  else
    let a := Win.addr w e.addr
    (l.dwin.filter (fun x => Win.valid x.2 && !Win.mailbox x.2 && Win.lo x.2 ≤ a && a < Win.hi x.2)).map (fun x => (x.1, a / 256))

/-- The deep journals become committed entries to be handed over; lines they change go stale (03 R83; 05 R136, R138). -/
def Dev.commitDeep (d : Dev) (n : Nat) : Dev :=
  d.onLoom (fun l =>
    let es := sortBy (fun (e : JEntry) => (e.pick * 128 + e.gb) * 64 + e.h) l.dj
    { l with dj := [], djOut := l.djOut ++ es.map (fun e => (n, e)), stale := (l.stale ++ es.flatMap l.staleOf).eraseDups })

/-- PUT slots take what the beat wrote (03 R85). -/
def Dev.commitPuts (d : Dev) : Dev :=
  d.onLoom (fun l => { l with puts := l.putStage.foldl (fun m x => SMap.put false m x.1 (x.2 == 2)) l.puts, putStage := [] })

/-- The DATA frames of the beat (09 R271); the 1,025th unanswered frame of a lane voids the oldest (09 R275). -/
def Dev.commitFrames (d : Dev) (n : Nat) : Dev :=
  d.namedLanes.foldl (fun d l =>
    let (d, full) := d.queueData l n
    if full then
      let (d, rs) := d.voidOldest (d.phys l) 1
      d.capResps (d.phys l) rs
    else d) d

/-- One log entry for each beam and code, in order; the lowest pick, harness and heddle (03 R93). -/
def Dev.commitHazards (d : Dev) : Dev :=
  let zs := sortBy (fun (z : Hazard) => (((z.gb * 0x1000 + z.code) * 2048 + z.pick) * 64 + z.h) * 32 + z.k) d.loom.hazards
  let firsts := zs.foldl (fun (acc : List Hazard) z =>
    if acc.any (fun y => y.gb == z.gb && y.code == z.code) then acc else acc ++ [z]) []
  let d := firsts.foldl (fun d z =>
    d.event bLOM z.gb z.code (hazData z (1 < (zs.filter (fun y => y.gb == z.gb && y.code == z.code)).length))) d
  d.onLoom (fun l => { l with hazards := [] })

/-- Merges counted; DRW_CONT_LAST names the highest pick, then GB, harness, lane (04 R102, R122). -/
def Dev.commitMerges (d : Dev) : Dev :=
  let ms := sortBy (fun (m : MergeRec) => ((m.pick * 128 + m.gb) * 64 + m.h) * 8 + m.lane) d.loom.merges
  let d := ms.foldl (fun d m => (d.addFld F.DRW_CONT_CNT_COUNT 1).addFld (F.DRW_CONT_BEAM_COUNT.at m.gb) 1) d
  let d := match ms.getLast? with
    | some m => d.setReg R.DRW_CONT_LAST (BitVec.ofNat 32 (m.lane * 2 ^ 29 + posOf m.gb m.h m.k m.pick))
    | none => d
  d.onLoom (fun l => { l with merges := [] })

/-- The bundles that EXTRACT entries hold of this beat are kept for a bay that leaves (04 R115). -/
def Dev.keepExtracts (d : Dev) : Dev :=
  let es := d.loom.entries.filter (fun e => Slot.kind e.2 == kEXTRACT)
  d.onLoom (fun l => { l with lastExt := es.foldl (fun m e =>
    SMap.put 0 m e.1 (SMap.get 0 l.lrx (32 * hnOf (e.1 / 1024) (Slot.harness e.2) + Slot.bundle e.2) % 256)) l.lastExt })

/-- The repair step of the beat becomes permanent and is recorded (02 R42; 14 R431). -/
def Dev.commitRepair (d : Dev) : Dev :=
  let d := d.onLoom (fun l => { l with savedMaps := none, savedFlip := [] })
  match d.rel.stepWord with
  | none => d
  | some w =>
    let s := bitsN w.toNat 26 20 * 66 + bitsN w.toNat 19 13
    let heddle := bitsN w.toNat 30 27 == 1
    let d := d.addFld F.BST_BAD_CNT_BAD 1
    { d with rel := { d.rel with
        stepWord := none, toRecord := d.rel.toRecord ++ [w],
        badHeddle := if heddle then (s * 33 + bitsN w.toNat 12 7) :: d.rel.badHeddle else d.rel.badHeddle,
        badHarness := if heddle then d.rel.badHarness else s :: d.rel.badHarness } }

/-- Rolling test of every mapped beam with a free spare loads the next candidate into its lowest free spare (14 R432); with
ROLL_EN = 0 what has not been granted ends. -/
def Dev.rollBegin (d : Dev) : Dev :=
  let out := (d.ldr.bay.map (fun b => b.bay + 1)).getD 0
  let start := fun (m : SMap Roll) gb =>
    let g := d.loom.pgb gb
    let r := SMap.get Roll.empty m g
    match (List.range 66).find? (fun ph => SMap.get false d.loom.spare (66 * g + ph)) with
    | some ph =>
      if r.phase = 0 ∧ d.panelUp (g / 32) ∧ (out = 0 ∨ SMap.get 0 d.loom.bay gb ≠ out) then
        SMap.put Roll.empty m g ⟨1, r.last % SMap.get 1 d.loom.need gb, ph, r.last⟩
      else m
    | none => m
  let stop := fun (x : Nat × Roll) => (x.1, if x.2.phase = 1 ∨ x.2.phase = 2 then { Roll.empty with last := x.2.last } else x.2)
  Dev.rollTurns { d with rel := { d.rel with
      roll := if d.fld F.BST_CFG_ROLL_EN = 1 then (d.loom.need.map Prod.fst).foldl start d.rel.roll else d.rel.roll.map stop } }

/-- At a beat boundary one rolling-test swap is granted (06 R170); `repaired`: the beat had a repair step. -/
def Dev.rollGrant (d : Dev) (repaired : Bool) : Dev :=
  let ask := (d.rel.roll.filter (fun x => x.2.phase == 2)).map Prod.fst
  let enough := d.fld F.TRD_CTL_MODE != 1 ||
    (d.trd.inSlot && Int.ofNat (d.fld F.TRD_ROLL_NEED) ≤ sgn 32 (d.trd.slotEnd - d.tb.tb).toNat)
  match ask with
  | [] => d
  | g :: _ =>
    if repaired || !enough || d.ldr.bay.isSome || d.loom.haltReq.isSome || d.loom.brk then d
    else { d with rel := { d.rel with
             grant := g + 1, roll := SMap.put Roll.empty d.rel.roll g { SMap.get Roll.empty d.rel.roll g with phase := 3 } } }

/-- The held effects of beat n released as one step (02 R35). -/
def Dev.commitEffects (d : Dev) (n : Nat) : Dev :=
  let spilled := (d.loom.bj.filter JEntry.spilled).map JEntry.gb
  let blocks := spilled.eraseDups.flatMap (fun gb => List.replicate ((spilled.count gb + 31) / 32) gb)
  let d := (((d.applyBeam.commitDeep n).commitPuts).capCommit).commitFrames n
  let d := ((d.failCommit.commitHazards).commitMerges).keepExtracts
  let d := d.onLoom (fun l => { l with
    beat := n + 1, bj := [], readback := blocks, busyAcc := l.busyAcc ||| l.busyAtt, busyAtt := 0, rejoin := 0, frozen := false })
  let d := (d.setFld F.LOM_STATUS_BANK (1 - d.fld F.LOM_STATUS_BANK)).addFld F.LRG_DISCARD_CNT_COUNT d.loom.since.discards
  let d := d.onLoom (fun l => { l with since := ⟨0, none⟩ })
  ((((d.commitWrites.commitRepair).rollBegin.clearCommit (n + 1)).weftCommit n).fireBeat n)

/-- Every SOLO beat has committed: the leader's START may release beat M (06 R188). -/
def Dev.soloSettle (d : Dev) : Dev :=
  match d.weft.start with
  | .solo m left =>
    if d.loom.beat = m ∧ left.all (fun p => m ≤ SMap.get 0 d.weft.marks p) then
      { d with weft := { d.weft with start := .ready } }
    else d
  | _ => d

/-- The catch-up beat is done: the treadle is HALTED again, and the START that waited for the beat takes it to STARTING (06 R158,
R188). -/
def Dev.soloEnd (d : Dev) : Dev :=
  let d := (d.setTs tsHalted).panelsFollow false
  (if d.trd.recovery ≠ 0 then d.setTs tsStarting else d).soloSettle

/-- The commit (02 R33 event 6, R35), whose log entries are those of one HUB cycle; a halt that is due takes effect (R43,
R44). -/
def Dev.commit (d : Dev) : Dev :=
  if !(d.inBeat && d.loom.phase == .complete) then d
  else d.oneHubCycle fun d =>
    let n := d.loom.beat
    let solo := d.ts == tsSolo
    let repaired := d.fld F.LOM_STATUS_REPAIRED == 1
    let brk := d.loom.brk
    let d := d.commitEffects n
    let d := (d.setFld F.LOM_STATUS_ATTEMPT 0).setFld F.LOM_STATUS_REPAIRED 0
    let d := d.onLoom (fun l => { l with phase := .none, brk := false, solo := false })
    let d := if solo then d else d.rollGrant repaired
    let d := d.bayLeave
    match (if brk then some (d.loom.haltReq.getD 3) else d.loom.haltReq) with
    | some c => d.haltNow c false
    | none => if solo then d.soloEnd else (d.setTs tsWaiting).noteReady

/-! ### Faults, fixes, repair steps (02 R38 to R42) -/

/-- The stored words bear out a fault: the word is uncorrectable, the group's parity is wrong, or the shadow evaluator sees the
heddle's pick (02 R38, R39). -/
def Dev.faultFound (d : Dev) (f : FaultRec) : Bool :=
  let hn := hnOf f.gb f.h
  let cur := d.fld F.LOM_STATUS_BANK
  match f.kind with
  | 0 => d.loom.jacRead (jacKey hn f.k f.pick) == .uncorrectable
  | 1 => d.loom.jacRead (jacKey hn 32 f.pick) == .uncorrectable
  | 2 => d.loom.shedBad hn f.k cur f.group
  | 3 => d.loom.shedBad hn f.k (1 - cur) f.group
  | 4 => d.fld F.LOM_CTL_SHADOW == 1 && f.pick % 32 == f.k
  | _ => false

/-- A stored bit flips, in the loom, in a shuttle's instruction cache or in a gatekeeper entry. -/
def Dev.hit (d : Dev) (h : Hit) : Dev :=
  match h with
  | .code s line => d.onSh s (fun x => { x with icache := x.icache.map (fun l => if l.line = line then { l with bad := true } else l) })
  | .gate e w flips => d.onHubd (fun h => { h with hub := { h.hub with
      gkFlip := SMap.put 0 h.hub.gkFlip (4 * e + w) (SMap.get 0 h.hub.gkFlip (4 * e + w) ^^^ flips) } })
  | h => d.onLoom (fun l => l.hit h)

/-- Stored bits flip. -/
def Dev.hitAll (d : Dev) (hits : List Hit) : Dev := (hits.filter Hit.wf).foldl Dev.hit d

/-- Stored bits flip, and a fault of 02 R38 that the loom finds is flagged for the attempt (R38, R39). -/
def Dev.faultFlag (d : Dev) (f : FaultRec) (hits : List Hit) : Dev :=
  let d := d.hitAll hits
  let ok := f.gb < 128 && f.h < 64 && f.k < 32 && d.active (hnOf f.gb f.h) && f.pick < d.depth && f.group < 32
  if ok && d.faultFound f then d.flagFault f else d

/-- Data of a loom event for the fault under treatment (02 R46). -/
def Dev.faultDataOf (d : Dev) (f : FaultRec) (kind : Nat) : Nat :=
  let g := if kind = 2 ∨ kind = 3 ∨ kind = 6 then f.group else 0
  faultData kind (d.fld F.LOM_STATUS_ATTEMPT) (d.fld F.LOM_STATUS_REPAIRED) g f.pick f.k f.h f.gb

/-- Every heddle has stopped; the held effects are discarded (02 R41). An uncorrectable memory word halts (05 R151), and
so does any fault while retry is off. -/
def Dev.attemptAbort (d : Dev) : Dev :=
  if d.loom.phase ≠ .faulted then d
  else
    let d := ((d.discardAttempt).addFld F.LOM_RETRY_CNT_COUNT 1).setFld F.LOM_EVENTS_RETRY 1
    match d.loom.memFault, d.loom.fault with
    | some m, _ => d.faultHalt 7 m.gb m.code m.data
    | none, some f =>
      if d.fld F.LOM_RETRY_CFG_EN = 0 then d.faultHalt 7 f.gb 0x214 (d.faultDataOf f f.kind)
      else d.onLoom (fun l => { l with phase := .fixing })
    | none, none => d

/-- Event code of a retry (02 R46). -/
def retryCode (kind : Nat) : Nat := if kind ≤ 1 then 0x201 else if kind ≤ 3 then 0x202 else if kind = 4 then 0x203 else 0x204

/-- After a fix: a rerun, a halt, or a repair step (02 R41). -/
def Dev.afterFix (d : Dev) (f : FaultRec) : Dev :=
  let a := d.fld F.LOM_STATUS_ATTEMPT
  if a < min 2 (d.fld F.LOM_RETRY_CFG_MAX) then
    ((d.event bLOM f.gb (retryCode f.kind) (d.faultDataOf f f.kind)).setFld F.LOM_STATUS_ATTEMPT (a + 1)).onLoom
      (fun l => { l with phase := .rerun })
  else if f.kind = 5 then d.faultHalt 9 f.gb 0x213 (d.faultDataOf f 5)
  else if d.fld F.LOM_STATUS_REPAIRED = 1 ∨ d.fld F.LOM_RETRY_CFG_REPAIR_EN = 0 then
    d.faultHalt 10 f.gb 0x210 (d.faultDataOf f f.kind)
  else (d.setFld F.LOM_STATUS_STATE 4).onLoom (fun l => { l with phase := .repairing })

/-- A shed group needs its rebuild: it lies in OTHER or holds an entry at or above D (02 R38, R40). -/
def Dev.needsRebuild (d : Dev) (f : FaultRec) : Bool := f.kind == 3 || d.depth < 64 * f.group + 64

/-- The group of a shed error is rebuilt and counted; none: the rebuild is impossible (02 R40, R45). -/
def Dev.rebuildGroup (d : Dev) (f : FaultRec) : Option Dev :=
  let cur := d.fld F.LOM_STATUS_BANK
  (d.loom.rebuild (hnOf f.gb f.h) f.k (if f.kind = 2 then cur else 1 - cur) f.group).map (fun l =>
    (((d.onLoom (fun _ => l)).addFld F.LOM_REBUILD_CNT_COUNT 1).setFld F.LOM_EVENTS_REBUILD 1).event bLOM f.gb 0x205
      (d.faultDataOf f f.kind))

/-- Both shed banks of heddles of the fault's harness are copied, failed groups rebuilt on the way; none: a rebuild is
impossible (02 R42, 14 R434). -/
def Dev.copySheds (d : Dev) (f : FaultRec) (ks : List Nat) : Option Dev :=
  let cur := d.fld F.LOM_STATUS_BANK
  (ks.flatMap (fun k => (d.loom.failedGroups (hnOf f.gb f.h) k).map (fun x => (k, x)))).foldl (fun (o : Option Dev) y =>
    o.bind (fun d => d.rebuildGroup { f with kind := if y.2.1 = cur then 2 else 3, k := y.1, group := y.2.2 })) (some d)

/-- Streams of a harness are loaded again from the image cache; none: a copy in it is uncorrectable (02 R42, 14 R434). -/
def Loom.reload (l : Loom) (hn : Nat) (streams : List Nat) : Option Loom :=
  let mine := fun (key : Nat) => key / 2048 / 33 == hn && streams.contains (key / 2048 % 33)
  if l.cacheBad.any (fun e => mine e.1 && e.2) then none
  else some { l with
    jacFlip := l.jacFlip.filter (fun e => !mine e.1)
    savedFlip := (l.jacFlip.filter (fun e => mine e.1)).foldl (fun m e => SMap.put 0 m e.1 e.2) l.savedFlip }

/-- n streams are read in the image cache: one access each, of its first block (05 R149; assumption log 9). -/
def Dev.refetch (d : Dev) (n : Nat) : Dev := d.occCount (d.loom.hbmPc (d.fld F.LDR_CACHE_BASE_BASE * 256)) n

/-- A spare that rolling test has loaded with this harness's streams: the migration has only to copy (14 R434). -/
def Loom.loaded (l : Loom) (hn : Nat) : Loom :=
  let mine := fun (key : Nat) => key / 2048 / 33 == hn
  { l with
    jacFlip := l.jacFlip.filter (fun e => !mine e.1)
    savedFlip := (l.jacFlip.filter (fun e => mine e.1)).foldl (fun m e => SMap.put 0 m e.1 e.2) l.savedFlip }

/-- What a repair step moves into its new slot: the streams from the image cache, the shed banks from the old one (02 R42, 14
R434). -/
def Dev.moveHeddles (d : Dev) (f : FaultRec) (streams ks : List Nat) : Option Dev :=
  (d.loom.reload (hnOf f.gb f.h) streams).bind (fun l => ((d.onLoom (fun _ => l)).refetch streams.length).copySheds f ks)

/-- The fix of the fault ends, or fails (02 R38, R40). -/
def Dev.fixComplete (d : Dev) : Dev :=
  match d.loom.phase, d.loom.fault with
  | .fixing, some f =>
    let key := jacKey (hnOf f.gb f.h) (if f.kind = 1 then 32 else f.k) f.pick
    if f.kind ≤ 1 then
      let d := d.refetch 1
      if SMap.get false d.loom.cacheBad key then d.faultHalt 7 f.gb 0x214 (d.faultDataOf f 7)
      else (d.onLoom (fun l => { l with jacFlip := SMap.del l.jacFlip key })).afterFix f
    else if f.kind ≤ 3 ∧ d.needsRebuild f then
      match d.rebuildGroup f with
      | none => d.faultHalt 7 f.gb 0x214 (d.faultDataOf f 6)
      | some d => d.afterFix f
    else d.afterFix f
  | _, _ => d

/-- Physical slot of a harness (02 R23). -/
def Loom.ph (l : Loom) (hn : Nat) : Nat := let v := SMap.get 0 l.hmap hn; if v = 0 then hn % 64 else v - 1

/-- Physical harness slot of a logical harness: 66 * PGB + PH. -/
def Loom.slotOf (l : Loom) (hn : Nat) : Nat := 66 * l.pgb (hn / 64) + l.ph hn

/-- Physical heddle that runs logical heddle k in a slot (02 R23). -/
def Loom.pk (l : Loom) (slot k : Nat) : Nat := let v := SMap.get 0 l.repl (32 * slot + k); if v = 0 then k else v - 1

/-- Logical heddle that PK32 of a slot runs, when it is in use (02 R62). -/
def Loom.onPk32 (l : Loom) (slot : Nat) : Option Nat := (List.range 32).find? (fun k => l.pk slot k == 32)

/-- Spare harness slots of a physical beam, ascending (14 R426). -/
def Loom.spares (l : Loom) (pgb : Nat) : List Nat := (List.range 66).filter (fun ph => SMap.get false l.spare (66 * pgb + ph))

/-- The maps in force. -/
def Loom.maps (l : Loom) : Maps := { hmap := l.hmap, repl := l.repl, spare := l.spare, bmap := l.bmap }

/-- The maps as of the last commit: those before a swap or a re-place made since, else those before the repair step of the beat (02 R62). -/
def Loom.committedMaps (l : Loom) : Maps :=
  l.since.maps.getD (match l.savedMaps with
    | some m => { l.maps with hmap := m.1, repl := m.2.1, spare := m.2.2 }
    | none => l.maps)

/-- A swap or a re-place is about to change the maps: what registers show waits for the next commit (02 R62). -/
def Dev.keepMaps (d : Dev) : Dev := d.onLoom (fun l => { l with since := { l.since with maps := some l.committedMaps } })

/-- A slot that rolling test holds is not free for a repair step (14 R433). -/
def Dev.rolling (d : Dev) (pgb ph : Nat) : Bool :=
  let r := SMap.get Roll.empty d.rel.roll pgb
  r.phase != 0 && r.ph == ph

/-- The spare a migration takes: a free one, else the one rolling test holds (14 R433). -/
def Dev.migrationSpare (d : Dev) (pgb : Nat) : Option Nat :=
  let free := (d.loom.spares pgb).find? (fun ph => !d.rolling pgb ph)
  let r := SMap.get Roll.empty d.rel.roll pgb
  match free with
  | some ph => some ph
  | none => if r.phase ≠ 0 then some r.ph else none

/-- The spare holds the harness's streams from event 1 of its rolling-test step (14 R434). -/
def Dev.preloaded (d : Dev) (pgb ph h : Nat) : Bool :=
  let r := SMap.get Roll.empty d.rel.roll pgb
  (r.phase == 2 || r.phase == 3) && r.ph == ph && r.cand == h

/-- A repair word (14 R427). -/
def repairWord (kind pgb ph pk : Nat) : Word :=
  BitVec.ofNat 32 (2 ^ 31 + kind * 2 ^ 27 + pgb * 2 ^ 20 + ph * 2 ^ 13 + pk * 2 ^ 7)

/-- A repair step made: the maps in force for the rerun, the attempt count starts again (02 R41, R42). -/
def Dev.repaired (d : Dev) (f : FaultRec) (code : Nat) (w : Word) (fcnt : Fld) : Dev :=
  let d := { d with rel := { d.rel with stepWord := some w } }
  let d := ((d.addFld fcnt 1).setFld F.LOM_EVENTS_REPAIR 1).setFld F.LOM_STATUS_REPAIRED 1
  (((d.event bLOM f.gb code (d.faultDataOf f f.kind)).setFld F.LOM_STATUS_ATTEMPT 0).setFld F.LOM_STATUS_STATE 3).onLoom
    (fun l => { l with phase := .rerun })

/-- The repair step of a fault ends: heddle repair, harness migration, or a capacity fault (02 R42, R45; 14 R433,
R436). -/
def Dev.repairStep (d : Dev) : Dev :=
  match d.loom.phase, d.loom.fault with
  | .repairing, some f =>
    let hn := hnOf f.gb f.h
    let slot := d.loom.slotOf hn
    let pgb := d.loom.pgb f.gb
    let saved := some (d.loom.savedMaps.getD (d.loom.hmap, d.loom.repl, d.loom.spare))
    let capacity := { d.faultHalt 11 f.gb 0x211 (d.faultDataOf f f.kind) with
      ldr := { d.ldr with replace := some (false, hn) } }
    if f.kind ≠ 1 ∧ (d.loom.onPk32 slot).isNone ∧ !d.rel.badHeddle.contains (slot * 33 + 32) then
      match d.moveHeddles f [f.k] [f.k] with
      | none => capacity
      | some d1 =>
        (d1.onLoom (fun l => { l with savedMaps := saved, repl := SMap.put 0 l.repl (32 * slot + f.k) 33 })).repaired f 0x206
          (repairWord 1 pgb (d.loom.ph hn) (d.loom.pk slot f.k)) F.LOM_REPAIR_CNT_HEDDLE_REPAIRS
    else match d.migrationSpare pgb with
      | none => capacity
      | some ph => match (if d.preloaded pgb ph f.h then (d.onLoom (fun l => l.loaded hn)).copySheds f (List.range 32)
          else d.moveHeddles f (List.range 33) (List.range 32)) with
      | none => capacity
      | some d1 =>
        let d1 := if d.rolling pgb ph then
            Dev.rollTurns { d1 with rel := { d1.rel with
                roll := SMap.put Roll.empty d1.rel.roll pgb
                  { Roll.empty with last := (SMap.get Roll.empty d1.rel.roll pgb).cand + 1 } } }
          else d1
        (d1.onLoom (fun l => { l with
          savedMaps := saved, hmap := SMap.put 0 l.hmap hn (ph + 1), spare := SMap.del l.spare (66 * pgb + ph) })).repaired f
            0x207 (repairWord 2 pgb (d.loom.ph hn) 0) F.LOM_REPAIR_CNT_MIGRATIONS
  | _, _ => d

/-! ### The stall watchdog (02 R49, R50, R61) -/

/-- What the heddle waits on at its present pick, as LOM_STALL_POS.WAIT codes it (02 R61). -/
def Dev.waitOf (d : Dev) (hn k : Nat) : Nat :=
  let p := SMap.get 0 d.loom.done (hkOf hn k)
  let w := d.loom.pick hn k p
  let w0 := d.loom.pick hn 0 p
  let kd := pickKind w0 w
  if SMap.get 0 d.loom.held (hkOf hn k) ≠ 0 then d.deliverWait hn k p w
  else if SMap.get 0 d.loom.closed hn = p + 1 then (if PickW.op w0 = opFAIL then 6 else 5)
  else
    let r := (d.readFields hn k p w (fieldsRead kd (PickW.op w0) k)).1
    match kd with
    | .wide _ => if r ≠ 0 then r else 4
    | _ => r

/-- The mapped heddle that has completed the fewest picks; ties go to the lowest position (02 R50). -/
def Dev.slowest (d : Dev) : Option (Nat × Nat) :=
  (d.actives.flatMap (fun hn => (List.range 32).map (fun k => (hn, k)))).foldl (fun (b : Option (Nat × Nat)) x =>
    match b with
    | none => some x
    | some y =>
      if SMap.get 0 d.loom.done (hkOf x.1 x.2) < SMap.get 0 d.loom.done (hkOf y.1 y.2) then some x else b) none

/-- The stall watchdog expires: the stall is flagged at the slowest heddle's position (02 R49, R50). With every pick
completed PICK is min(D, 2047) and WAIT that of an empty word (DESIGN CHOICE, assumption log 9). -/
def Dev.stallExpiry (d : Dev) : Dev :=
  match d.slowest with
  | none => d
  | some x =>
    if d.loom.phase ≠ .running then d
    else
      let p := min (SMap.get 0 d.loom.done (hkOf x.1 x.2)) 2047
      let d := d.setReg R.LOM_STALL_POS
        (BitVec.ofNat 32 (d.waitOf x.1 x.2 * 2 ^ 29 + posOf (x.1 / 64) (x.1 % 64) x.2 p))
      d.flagFault ⟨5, x.1 / 64, x.1 % 64, x.2, p, 0⟩

end Sys2Proof.Machine
end

