-- ==== Sys2Proof/Machine/Gate.lean ====
section
/-!
DEFINITION. The gatekeepers (13 R380, R381, R389 to R392, R410, R417): regions, masters and what they present, fixed
refusals, fixed grants, tables, violations.
-/

namespace Sys2Proof.Machine

/-! ### Masters (R389) -/

def midBOB : Nat := 0x100
def midDEEP : Nat := 0x200
def midETH : Nat := 0x300
def midMGT : Nat := 0x310
def midJTAG : Nat := 0x311
def midCAP : Nat := 0x320
def midFMP : Nat := 0x330
def midWCH : Nat := 0x340
def midLDR : Nat := 0x350
def midJRN : Nat := 0x360
def midTRC : Nat := 0x370

/-- JTAG holds OWNER authority (10 R307, R321). -/
def Dev.jtagOwner (d : Dev) : Bool :=
  match d.charter with
  | some c => (c.authority.map Authority.jtagOwner).getD false
  | none => d.fld F.IOC_STRAP_JTAG_OWNER == 1

/-- The privilege that a master presents: true for FIRMWARE. -/
def Dev.fwOf (d : Dev) (mid : Nat) : Bool :=
  if mid < 128 then (d.sh mid).priv
  else if midBOB ≤ mid ∧ mid < midBOB + 32 then (SMap.get Bob.empty d.hubd.bobs (mid - midBOB)).priv
  else (midDEEP ≤ mid && mid < midDEEP + 128) || mid == midMGT || mid == midJTAG || (midCAP ≤ mid && mid < midCAP + 16) ||
    mid == midFMP || mid == midWCH || mid == midLDR || mid == midJRN || mid == midTRC

/-! ### Regions (R380, R381) -/

/-- Tablets, 256 KiB each (12 R366); register space. -/
def tabletBase : Nat := 0x6100000000
def regBase : Nat := 0x7000000000
def jacquardBase : Nat := 0x4000000000

/-- Regions of the address map. -/
inductive Region where
  | hbm | jacquard | beamMem | cluster | tablet | regs | unmapped
  deriving DecidableEq, Repr

/-- Register blocks that 13 R382 lists: 0 to 0x1C. -/
def blocks : Nat := 0x1D

/-- The region of an address. -/
def regionOf (a : Nat) : Region :=
  if a < hbmEnd then .hbm
  else if jacquardBase ≤ a ∧ a < beamMemBase then .jacquard
  else if beamMemBase ≤ a ∧ a < beamMemBase + 0x8000000 then .beamMem
  else if clusterBase ≤ a ∧ a < clusterBase + 0x4000000 then .cluster
  else if tabletBase ≤ a ∧ a < tabletBase + 0x2000000 then .tablet
  else if regBase ≤ a ∧ a < regBase + blocks * 0x10000 then .regs
  else .unmapped

/-- The address lies in the image cache. -/
def Dev.inCache (d : Dev) (a : Nat) : Bool :=
  let b := d.fld F.LDR_CACHE_BASE_BASE * 256
  b ≤ a && a < b + d.fld F.LDR_CACHE_SIZE_SIZE * 2 ^ 28

/-- The table that checks an address; 6: the jacquard window (R380, R392). -/
def Dev.tableOf (d : Dev) (a : Nat) : Nat :=
  match regionOf a with
  | .hbm => if d.inCache a then 1 else 0
  | .cluster => 2
  | .tablet => 3
  | .beamMem => 4
  | .regs => 5
  | _ => 6

/-- The stop that serves an address (R380, R383). -/
def Dev.stopOf (d : Dev) (a : Nat) : Nat :=
  match regionOf a with
  | .hbm => 16 + d.loom.hbmPc a / 32 % 8
  | .jacquard => 24 + (a - jacquardBase) / 0x400000000 % 4
  | .beamMem => 24 + d.panelOf ((a - beamMemBase) / 0x100000) % 4
  | .cluster => (a - clusterBase) / 0x400000 % 16
  | .tablet => (a - tabletBase) / 0x200000 % 16
  | _ => 31

/-! ### The check (R391) -/

def gkREAD : Nat := 0
def gkWRITE : Nat := 1
def gkFETCH : Nat := 2
def gkOR : Nat := 3

/-- TARGET = 0 deep windows hold the address (05 R134). -/
def Dev.inWindow (d : Dev) (a : Nat) : Bool :=
  d.loom.dwin.any (fun w => Win.valid w.2 && !Win.mailbox w.2 && Win.lo w.2 ≤ a && a < Win.hi w.2)

/-- Bank number 32c + b of a cluster-memory address. -/
def bankOf (a : Nat) : Nat := (a - clusterBase) / 0x20000

/-- A master owns a cluster-memory bank (12 R367). -/
def Dev.ownsBank (d : Dev) (mid bank : Nat) : Bool :=
  let kind := d.fld (F.CLM_BANK_OWNER_KIND.at bank)
  let id := d.fld (F.CLM_BANK_OWNER_ID.at bank)
  !d.rel.badCluster.contains (bank / 32) && ((kind == 1 && mid == id) || (kind == 2 && mid == midBOB + id))

/-- The loader is in the write step of 08 R231. -/
def Dev.writeStep (d : Dev) : Bool := (d.ldr.load.bind LoadSt.ready).isSome

/-- The GK_ block. -/
def inGk (a : Nat) : Bool := a / 0x10000 == (regBase + 0x100000) / 0x10000

/-- A capture unit other than this master records into the address (11 R331). -/
def Dev.capForeign (d : Dev) (mid a : Nat) : Bool :=
  (List.range 16).any (fun u =>
    let st := d.capState u
    let b := d.capFld F.CAP_BUF_BASE_BASE u * 256
    mid != midCAP + u && cpArmed ≤ st && st ≤ cpRun && b ≤ a && a < b + 2 ^ d.capFld F.CAP_UNIT_CFG_SIZE u)

/-- A fixed rule refuses the access of a master at a privilege (R391 step 1). -/
def Dev.fixedRefusesAs (d : Dev) (fw : Bool) (mid acc a : Nat) : Bool :=
  let wr := acc == gkWRITE || acc == gkOR
  match regionOf a with
  | .jacquard => mid != midLDR
  | .hbm =>
    (decide (spillBase ≤ a) && mid != midJRN) ||
      (wr && ((d.inCache a && mid != midLDR) || (d.running && d.inWindow a && mid != midJRN) || d.capForeign mid a ||
        (d.running && d.failHolds a && mid != midFMP)))
  | .beamMem => wr && d.running && !(mid == midLDR && d.beamOut ((a - beamMemBase) / 0x100000))
  | .cluster => wr && !d.ownsBank mid (bankOf a) && !(mid == midLDR && d.writeStep)
  | .regs => wr && inGk a && !(mid == midMGT || (mid == midJTAG && d.jtagOwner) || (decide (mid < 128) && fw))
  | _ => false

/-- A fixed rule refuses the access that a master makes at its present privilege. -/
def Dev.fixedRefuses (d : Dev) (mid acc a : Nat) : Bool := d.fixedRefusesAs (d.fwOf mid) mid acc a

/-- A fixed grant passes the access (R391 step 2). -/
def Dev.fixedGrants (d : Dev) (mid acc a : Nat) : Bool :=
  let gb := mid - midDEEP
  let w := d.loom.win64 gb
  if acc = gkFETCH then false
  else if mid = midMGT ∨ mid = midLDR then true
  else if mid = midJTAG then d.jtagOwner
  else if mid = midJRN then decide (spillBase ≤ a ∧ a < hbmEnd) || d.inWindow a
  else if midDEEP ≤ mid ∧ gb < 128 then
    Win.valid w && (if Win.mailbox w then regionOf a == .cluster && bankOf a == 32 * (Win.bank w / 2) + 30 + Win.bank w % 2
      else Win.lo w ≤ a && a < Win.hi w)
  else if midCAP ≤ mid ∧ mid < midCAP + 16 then
    let b := d.capFld F.CAP_BUF_BASE_BASE (mid - midCAP) * 256
    acc == gkWRITE && b ≤ a && a < b + 2 ^ d.capFld F.CAP_UNIT_CFG_SIZE (mid - midCAP)
  else if mid = midFMP then d.failHolds a
  else if mid = midTRC then
    let n := 2 ^ d.fld F.TRC_CTL_SIZE
    let b := d.fld F.TRC_BUF_BASE_BASE * 256 / n * n
    acc == gkWRITE && b ≤ a && a < b + n
  else decide (mid < 128) && d.fwOf mid && regionOf a == .regs && inGk a

/-- The key of entry e of table t. -/
def gkKey (t e : Nat) : Nat := 64 * t + e

/-- A word of entry e as the check reads it (14 R413, R415). -/
def Dev.gkWord (d : Dev) (e i : Nat) : Nat :=
  let f := (SMap.get 0 d.hubd.hub.gkFlip (4 * e + i)).toNat
  (d.reg (instKey (R.GK_ENT0 + 4 * i) e)).toNat ^^^ (if f = 0 then 0 else (eccRead 32 6 f).residue)

/-- A field of entry i as the check reads it. -/
def Dev.gkFld (d : Dev) (x : Fld) (i : Nat) : Nat := bitsN (d.gkWord i ((x.reg - R.GK_ENT0) / 4)) x.hi x.lo

/-- Entry i admits the access but for its privilege (R390); an uncorrectable one matches nothing (R417). -/
def Dev.gkMatches (d : Dev) (i mid acc a : Nat) : Bool :=
  let f := fun (x : Fld) => d.gkFld x i
  let page := a / 4096 % 2 ^ 36
  f F.GK_ENT0_VALID == 1 && !d.hubd.hub.gkBad.contains i && f F.GK_ENT0_MID_LO ≤ mid && mid ≤ f F.GK_ENT0_MID_HI &&
    f F.GK_ENT1_BASE + f F.GK_ENT3_BASE_HI * 2 ^ 32 ≤ page && page ≤ f F.GK_ENT2_LIMIT + f F.GK_ENT3_LIMIT_HI * 2 ^ 32 &&
    (if acc = gkREAD then f F.GK_ENT0_R == 1 else if acc = gkFETCH then f F.GK_ENT0_X == 1 else f F.GK_ENT0_W == 1)

/-- STATUS of 13 R385. -/
def stOK : Nat := 0
def stDENIED : Nat := 1
def stREFUSED : Nat := 2
def stUNMAPPED : Nat := 3
def stUE : Nat := 4
def stALIGN : Nat := 5

/-- The outcome of the check: STATUS and REASON (R391, R392). -/
def Dev.verdict (d : Dev) (mid acc a : Nat) : Nat × Nat :=
  if regionOf a = .unmapped then (stUNMAPPED, 0)
  else if d.fixedRefuses mid acc a then (stREFUSED, 2)
  else if d.fixedGrants mid acc a then (stOK, 0)
  else if regionOf a = .jacquard then (stDENIED, 0)
  else
    let hits := ((List.range 64).map (gkKey (d.tableOf a))).filter (fun i => d.gkMatches i mid acc a)
    if hits.any (fun i => d.gkFld F.GK_ENT0_PRIV i == 0 || d.fwOf mid) then (stOK, 0)
    else (stDENIED, if hits.isEmpty then 0 else 1)

/-- A refused or denied request: counted, recorded, and logged at most once in 1 µs for its master and table at its stop
(R392). A write to a bank by another than its owner also writes event 0x706 (12 R377). -/
def Dev.violation (d : Dev) (mid acc a st reason : Nat) : Dev :=
  let t := d.tableOf a
  let d := d.addFld F.GK_VIOL_CNT_COUNT 1
  let d := d.setReg R.GK_VIOL_LAST (BitVec.ofNat 32 (mid % 4096 * 2 ^ 20 + t * 2 ^ 17 + acc % 4 * 2 ^ 15 + reason % 4 * 2 ^ 13))
  let d := (d.setReg R.GK_VIOL_ADDR_LO (BitVec.ofNat 32 a)).setFld F.GK_VIOL_ADDR_HI_ADDR_HI (a / 2 ^ 32)
  let d := if st = stREFUSED ∧ regionOf a = .cluster then
      d.event bCLM 0 0x706 (bankOf a / 32 + bankOf a % 32 * 16 + mid % 4096 * 2 ^ 12) else d
  let key := (4096 * d.stopOf a + mid % 4096) * 8 + t
  let last := SMap.get 0 d.hubd.hub.logged key
  if last ≠ 0 ∧ d.nowNs < last - 1 + 1000 then d
  else
    (d.event bGK 0 (if st = stREFUSED then 0x802 else 0x801)
      (mid % 4096 * 2 ^ 32 + t * 2 ^ 29 + acc % 4 * 2 ^ 27 + reason % 4 * 2 ^ 25 + a / 4096 % 2 ^ 25)).onHubd
      (fun h => { h with hub := { h.hub with logged := SMap.put 0 h.hub.logged key (d.nowNs + 1) } })

/-- The check meets an uncorrectable entry: it matches nothing from now on (R417). `e`: 64 * table + entry. -/
def Dev.gkLost (d : Dev) (e : Nat) : Dev :=
  if 384 ≤ e ∨ d.hubd.hub.gkBad.contains e then d
  else ((d.onHubd (fun h => { h with hub := { h.hub with gkBad := e :: h.hub.gkBad } })).countClassUe 6).event bGK 0 0x406 (e / 64 + e % 64 * 8)

/-- The check reads its table: words with one wrong bit are corrected and counted, an entry with an uncorrectable word matches
nothing from now on (14 R413, R417). Only a request that neither a fixed refusal nor a fixed grant decides reads it. -/
def Dev.gkScan (d : Dev) (mid acc a : Nat) : Dev :=
  if d.hubd.hub.gkFlip.isEmpty || regionOf a == .unmapped || regionOf a == .jacquard || d.fixedRefuses mid acc a ||
      d.fixedGrants mid acc a then d
  else
    d.hubd.hub.gkFlip.foldl (fun d x =>
      let e := x.1 / 4
      if e / 64 ≠ d.tableOf a ∨ d.hubd.hub.gkBad.contains e then d
      else match eccRead 32 6 x.2.toNat with
        | .clean _ => d
        | .corrected _ => d.countCE 6 e
        | .uncorrectable => d.gkLost e) d

/-- A request reaches its target: what it writes to the log, and its STATUS (R381, R391, R392). -/
def Dev.gate (d : Dev) (mid acc a : Nat) : Dev × Nat :=
  let d := d.gkScan mid acc a
  let (st, reason) := d.verdict mid acc a
  if st = stOK then (d, stOK)
  else if st = stUNMAPPED then (d.event bHUB 0 0x803 (mid % 4096 * 2 ^ 32 + a % 2 ^ 28), st)
  else (d.violation mid acc a st reason, st)

/-- The pieces of n bytes from a that lie in one 64-byte line each: address and length. `fuel` bounds their number. -/
def linePieces : Nat → Nat → Nat → List (Nat × Nat)
  | 0, _, _ => []
  | fuel + 1, a, n =>
    if n = 0 then []
    else
      let m := min n (64 - a % 64)
      (a, m) :: linePieces fuel (a + m) (n - m)

/-! ### The GK_ block (R410) -/

/-- The entry that GK_SEL selects: tables 6 and 7 act as 5. -/
def Dev.gkSel (d : Dev) : Nat := gkKey (min 5 (d.fld F.GK_SEL_TABLE)) (d.fld F.GK_SEL_ENTRY)

/-- The staging set takes words 1 to 3 of the selected entry. -/
def Dev.gkStage (d : Dev) : Dev :=
  let w := fun k => d.reg (instKey k d.gkSel)
  d.onHubd (fun h => { h with hub := { h.hub with stage1 := w R.GK_ENT1, stage2 := w R.GK_ENT2, stage3 := w R.GK_ENT3 } })

/-- A write of GK_SEL. -/
def Dev.gkSelWrite (d : Dev) (v : Word) : Dev :=
  ((d.setFld F.GK_SEL_TABLE (bitsN v.toNat 10 8)).setFld F.GK_SEL_ENTRY (bitsN v.toNat 5 0)).gkStage

/-- A write of GK_ENT1 to GK_ENT3: the staged word; reserved bits read 0. -/
def Dev.gkStaged (d : Dev) (i : Nat) (v : Word) : Dev :=
  d.onHubd (fun h => { h with hub :=
    if i = 1 then { h.hub with stage1 := v } else if i = 2 then { h.hub with stage2 := v } else { h.hub with stage3 := v &&& 0xFF } })

/-- A write of GK_ENT0: the entry changes as one unit, and the staging set is loaded again. -/
def Dev.gkEnt0 (d : Dev) (v : Word) : Dev :=
  let e := d.gkSel
  let h := d.hubd.hub
  let d := (((d.setReg (instKey R.GK_ENT0 e) (v &&& 0x9EFFFFFF)).setReg (instKey R.GK_ENT1 e) h.stage1).setReg
    (instKey R.GK_ENT2 e) h.stage2).setReg (instKey R.GK_ENT3 e) h.stage3
  (d.onHubd (fun h => { h with hub := { h.hub with
    gkBad := h.hub.gkBad.erase e
    gkFlip := h.hub.gkFlip.filter (fun x => x.1 / 4 != e) } })).gkStage

end Sys2Proof.Machine
end

