-- ==== Sys2Proof/Machine/Charter.lean ====
section
/-!
DEFINITION. The charter copies in flash, their rules, and the charter they spell (08 R212 to R219; 10 R307, R504; 15
R461, R462).
-/

namespace Sys2Proof.Machine

/-- A byte of flash; an unlisted one is erased, and the reserved region reads 0xFF (08 R212). -/
def Dev.flashByte (d : Dev) (a : Nat) : Byte := if 0x80000 ≤ a ∧ a < 0xF0000 then 0xFF else SMap.get 0xFF d.flash a

/-- n bytes of flash. -/
def Dev.flashBytes (d : Dev) (a n : Nat) : List Byte := (List.range n).map (fun i => d.flashByte (a + i))

/-- Register blocks that a REGS pair may name (R216). -/
def chrBlocks : List Nat :=
  [bTRD, bPTP, bLOM, bDRW, bHBM, bCLM, bLDR, bWRP, bWFT, bETH, bMGT, bSHT, bWSC, bWCH, bPWR, bBST, bECC, bFUS, bIOC,
    bTRC, bTMX]

/-- A REGS pair meets R216. -/
def regsPairOk (off : Nat) : Bool :=
  off % 4 == 0 && off / 0x10000 ∈ chrBlocks &&
    (match rowOf off with
    | some r => r.fields.any (fun f => f.acc == .rw || f.acc == .rwl)
    | none => false)

/-- A record as it stands in the copy: its type and body. -/
abbrev ChrRec := Nat × List Byte

/-- The records that fill the bytes exactly, each padded with 0 to a multiple of 4 (R213). -/
def chrRecords : Nat → List Byte → Option (List ChrRec)
  | 0, _ => none
  | n + 1, bs =>
    if bs.isEmpty then some []
    else
      let typ := leAt bs 0 2
      let len := leAt bs 2 2
      let full := 4 + (len + 3) / 4 * 4
      if bs.length < full ∨ !((bs.drop (4 + len)).take (full - 4 - len)).all (· == 0) then none
      else (chrRecords n (bs.drop full)).map (fun t => (typ, (bs.drop 4).take len) :: t)

/-- The bodies of one type. -/
def bodies (rs : List ChrRec) (typ : Nat) : List (List Byte) := (rs.filter (fun r => r.1 == typ)).map Prod.snd

/-- The length that R215 gives the body of a known type; an unknown optional type is skipped. -/
def chrLenOk (r : ChrRec) : Bool :=
  let n := r.2.length
  match r.1 with
  | 1 => n == 32
  | 2 => n == 8
  | 3 => n % 8 == 0
  | 4 => n == 192
  | 5 => n == 128
  | 6 => n % 64 == 0 && 1 ≤ n / 64 && n / 64 ≤ 16
  | 7 => 7 ≤ n && n == 56 + 8 * leAt r.2 6 1
  | 8 => n == 384
  | t => 0x8000 ≤ t

/-- WEAVE (R217). -/
def weaveOk (b : List Byte) : Bool :=
  let role := leAt b 0 1
  let size := leAt b 2 1
  role < 3 && 1 ≤ size && size ≤ 16 && leAt b 1 1 < size && (role != 0 || size == 1) &&
    (List.range 4).all (fun i => ((b.drop 4).take 4).contains (BitVec.ofNat 8 i))

/-- LANEMAP (R217). -/
def laneMapOk (b : List Byte) : Bool :=
  b.all (fun x => x == 0xFF || x.toNat ≤ 127) && decide ((b.filter (· != 0xFF)).Nodup)

/-- GPIO (R218). -/
def gpioOk (b : List Byte) : Bool := (List.range 48).all (fun i => (List.range 3).all (fun j => leAt b (4 * i + j) 1 < 3))

/-- CATALOGUE (R219). -/
def catOk (b : List Byte) : Bool := (List.range (b.length / 32)).all (fun i =>
  let v := leAt b (32 * i) 1
  v == 0 || (v == 1 && leAt b (32 * i + 1) 1 ≤ 4 && leAt b (32 * i + 2) 2 == 0 && leAt b (32 * i + 24) 8 == 0))

/-- MODE and FEC of a port (10 R307, R504). -/
def fecOk (mode fec : Nat) : Bool := mode ≤ 3 && fec ≤ 3 && (mode == 0 || mode == 3 || fec ≤ 1)

/-- AUTHORITY (10 R307). -/
def authOk (b : List Byte) : Bool :=
  leAt b 6 1 ≤ 16 && 1500 ≤ leAt b 4 2 && leAt b 4 2 ≤ 9000 &&
    (List.range 2).all (fun q => fecOk (leAt b (8 + 24 * q + 20) 1) (leAt b (8 + 24 * q + 21) 1))

/-- Reserved PARAM bits of a rule's action are 0 (15 R461). -/
def ruleOk (r : Nat) : Bool :=
  let act := bitsN r 62 59
  if act = 2 then bitsN r 14 6 == 0 else if act = 5 then bitsN r 15 4 == 0 else bitsN r 15 0 == 0

/-- WATCH (15 R462). -/
def watchOk (b : List Byte) : Bool :=
  (List.range 32).all (fun f => bitsN (leAt b (4 * f) 4) 30 12 == 0) &&
    (List.range 32).all (fun r => ruleOk (leAt b (128 + 8 * r) 8))

/-- Every record meets R215 to R219. -/
def recordsOk (rs : List ChrRec) : Bool :=
  rs.all chrLenOk &&
    [1, 2, 4, 6].all (fun t => (bodies rs t).length == 1) && [5, 7, 8].all (fun t => (bodies rs t).length ≤ 1) &&
    (bodies rs 2).all weaveOk && (bodies rs 3).all (fun b => (List.range (b.length / 8)).all (fun i => regsPairOk (leAt b (8 * i) 4))) &&
    (bodies rs 4).all gpioOk && (bodies rs 5).all laneMapOk && (bodies rs 6).all catOk && (bodies rs 7).all authOk &&
    (bodies rs 8).all watchOk

/-- A catalogue entry (R219). -/
def catEntry (b : List Byte) (off : Nat) : CatEntry :=
  { valid := leAt b off 1 == 1, part := leAt b (off + 1) 1, lba := leAt b (off + 4) 4, sectors := leAt b (off + 8) 4,
    catVersion := leAt b (off + 12) 4, imageId := leAt b (off + 16) 8 }

/-- The AUTHORITY record (10 R307). -/
def authorityOf (b : List Byte) : Authority :=
  { jtagOwner := leAt b 0 1 == 1, opRights := leAt b 1 1,
    udpPort := if leAt b 2 2 = 0 then 7140 else leAt b 2 2, mtu := leAt b 4 2,
    ports := (List.range 2).map (fun q =>
      let o := 8 + 24 * q
      { mac := leAt b o 6, vid := leAt b (o + 6) 2 % 0x1000, tagged := bitN (leAt b (o + 6) 2) 15, ip := leAt b (o + 8) 4,
        mask := leAt b (o + 12) 4, gateway := leAt b (o + 16) 4, mode := leAt b (o + 20) 1, fec := leAt b (o + 21) 1 }),
    filters := (List.range (leAt b 6 1)).map (fun f =>
      let o := 56 + 8 * f
      { ip := leAt b o 4, prefixLen := leAt b (o + 4) 1, ports := leAt b (o + 5) 1, rights := leAt b (o + 6) 1 }) }

/-- The charter that valid records spell. -/
def charterOf (seq : Nat) (rs : List ChrRec) : Charter :=
  let one := fun t => (bodies rs t).headD []
  let id := one 1
  let weave := one 2
  let gpio := one 4
  let cat := one 6
  let watch := one 8
  { seq := seq, systemId := leAt id 0 4, site := leAt id 4 2, name := id.drop 8, role := leAt weave 0 1,
    position := leAt weave 1 1, size := leAt weave 2 1, linkMap := (List.range 4).map (fun i => leAt weave (4 + i) 1),
    laneMap := (one 5).map BitVec.toNat,
    gpio := (List.range 48).map (fun i =>
      { load := leAt gpio (4 * i) 1, safe := leAt gpio (4 * i + 1) 1, user := leAt gpio (4 * i + 2) 1,
        cell := leAt gpio (4 * i + 3) 1 }),
    catalogue := (List.range (cat.length / 32)).map (fun i => catEntry cat (32 * i)),
    authority := (bodies rs 7).head?.map authorityOf,
    writes := (bodies rs 3).flatMap (fun b =>
      (List.range (b.length / 8)).map (fun i => (leAt b (8 * i) 4, BitVec.ofNat 32 (leAt b (8 * i + 4) 4)))),
    filters := if watch.isEmpty then [] else (List.range 32).map (fun f => BitVec.ofNat 32 (leAt watch (4 * f) 4)),
    rules := if watch.isEmpty then [] else (List.range 32).map (fun r => BitVec.ofNat 64 (leAt watch (128 + 8 * r) 8)) }

/-- The charter of the copy at an offset of flash, or the reason that it is invalid: 1 MAGIC; 2 FORMAT or a reserved
header byte; 3 LENGTH; 4 CRC; 5 a record (R213, R214). -/
def Dev.copyAt (d : Dev) (base : Nat) : Except Nat Charter :=
  let h := d.flashBytes base 32
  let len := leAt h 8 4
  if leAt h 0 4 ≠ 0x52484344 then .error 1
  else if leAt h 4 2 ≠ 1 ∨ leAt h 6 2 ≠ 0 ∨ leAt h 16 16 ≠ 0 then .error 2
  else if len % 4 ≠ 0 ∨ len < 40 ∨ 262144 < len then .error 3
  else
    let bs := d.flashBytes base len
    if crc32c (bs.take (len - 4)) ≠ leAt bs (len - 4) 4 then .error 4
    else match chrRecords len ((bs.drop 32).take (len - 36)) with
      | none => .error 5
      | some rs => if recordsOk rs then .ok (charterOf (leAt h 12 4) rs) else .error 5

/-- Offsets of copies A and B (R212). -/
def copyA : Nat := 0x00000
def copyB : Nat := 0x40000

/-- Catalogue entry e (0 primary, 1 fallback) of a slot, when it is in use (R219). -/
def Dev.catEntry (d : Dev) (slot e : Nat) : Option CatEntry :=
  match d.charter with
  | none => none
  | some c => match c.catalogue[2 * slot + e]? with
    | some x => if slot < 16 ∧ x.valid then some x else none
    | none => none

end Sys2Proof.Machine
end

