-- ==== Sys2Proof/Machine/Place.lean ====
section
/-!
DEFINITION. Placement (07 R203, R204), link loads (04 R116) and the critical path (07 R196, R200).
-/

namespace Sys2Proof.Machine

/-! ### Usable slots and placement (R203, R204) -/

/-- Bad heddle slots of a harness slot 66 * PGB + PH. -/
def Dev.badPks (d : Dev) (slot : Nat) : List Nat := (List.range 33).filter (fun pk => d.rel.badHeddle.contains (slot * 33 + pk))

/-- A harness slot is usable: its logic is good, at least 32 heddle slots are good (R203), its panel has its supply. -/
def Dev.slotUsable (d : Dev) (pgb ph : Nat) : Bool :=
  let slot := 66 * pgb + ph
  !d.rel.badHarness.contains slot && (d.badPks slot).length ≤ 1 && !d.plat.panelBad.testBit (pgb / 32)

/-- Usable slots of a physical beam, ascending. -/
def Dev.usable (d : Dev) (pgb : Nat) : List Nat := (List.range 66).filter (d.slotUsable pgb)

/-- Heddle maps of the usable slots of a physical beam: good heddle slots in ascending order (R203). -/
def Dev.heddleMaps (d : Dev) (pgb : Nat) : SMap Nat :=
  (d.usable pgb).flatMap (fun ph =>
    match d.badPks (66 * pgb + ph) with
    | [] => []
    | b :: _ => ((List.range 32).filter (fun k => b ≤ k)).map (fun k => (32 * (66 * pgb + ph) + k, k + 2)))

/-- A logical beam put on a physical beam: harness map, heddle maps, spares (R203). -/
def Dev.placeBeam (d : Dev) (l : Loom) (gb pgb : Nat) : Loom :=
  let u := SMap.get 0 l.need gb
  let us := d.usable pgb
  let hm := (List.range u).foldl (fun m h =>
    let ph := us.getD h 0
    SMap.put 0 m (64 * gb + h) (if ph = h then 0 else ph + 1)) (l.hmap.filter (fun e => e.1 / 64 != gb))
  let hd := (d.heddleMaps pgb).foldl (fun m e => SMap.put 0 m e.1 e.2) (l.repl.filter (fun e => e.1 / 32 / 66 != pgb))
  let sp := ((us.drop u).take 2).foldl (fun m ph => SMap.put false m (66 * pgb + ph) true)
    (l.spare.filter (fun e => e.1 / 66 != pgb))
  { l with hmap := hm, repl := hd, spare := sp, bmap := SMap.put 0 l.bmap gb (if pgb = gb then 0 else pgb + 1) }

/-- A logical beam fits a physical beam. -/
def Dev.fits (d : Dev) (l : Loom) (gb pgb : Nat) : Bool := SMap.get 0 l.need gb ≤ (d.usable pgb).length

/-- Where a swappable beam goes: the lowest free physical beam that it fits, on its own panel first (R204): the
panel of its logical number (DESIGN CHOICE, assumption log 12). -/
def Dev.swapTarget (d : Dev) (l : Loom) (gb : Nat) (taken : List Nat) : Option Nat :=
  let free := fun p => !taken.contains p && d.fits l gb p
  match ((List.range 32).map (fun i => gb / 32 * 32 + i)).find? free with
  | some p => some p
  | none => (List.range 128).find? free

/-- Placement of the beams of a list, ascending (DESIGN CHOICE, assumption log 12); the logical beam that does not fit
(R203, R204). `taken`: physical beams
occupied; `swap`: the beam is swappable. -/
def Dev.placeAll (d : Dev) (swap : Nat → Bool) : List Nat → Loom → List Nat → Except Nat Loom
  | [], l, _ => .ok l
  | gb :: t, l, taken =>
    if d.fits l gb gb then d.placeAll swap t (d.placeBeam l gb gb) taken
    else if !swap gb then .error gb
    else match d.swapTarget l gb taken with
      | none => .error gb
      | some p => d.placeAll swap t (d.placeBeam l gb p) (p :: taken)

/-- Placement of every mapped beam (R203, R204). -/
def Dev.place (d : Dev) (l : Loom) (swap : Nat → Bool) : Except Nat Loom :=
  let gbs := l.mappedBeams
  d.placeAll swap gbs { l with hmap := [], repl := [], spare := [], bmap := [] } (gbs.filter (fun gb => d.fits l gb gb))

/-! ### Ring hops and link loads (04 R108, R116) -/

/-- Cost in tp of the hop that leaves a stop; `cross` that of a panel crossing (R108). -/
def hopCost (cross ring s : Nat) : Nat := if (if ring < 4 then s % 32 == 31 else s % 32 == 0) then cross else 1

/-- Cost of n hops from a stop. -/
def hopsCost (cross ring : Nat) : Nat → Nat → Nat
  | _, 0 => 0
  | s, n + 1 => hopCost cross ring s + hopsCost cross ring (ringNext ring s) n

/-- Hops from stop a to stop b in a ring's direction. -/
def hopCount (ring a b : Nat) : Nat := if ring < 4 then (b + 128 - a) % 128 else (a + 128 - b) % 128

/-- WEFT_IN flows on a ring, each once: link and flow (R116, R117). -/
def Loom.weftFlows (l : Loom) (ring : Nat) : List (Nat × Nat) :=
  ((l.entries.filter (fun e => Slot.kind e.2 == kWEFT_IN && Slot.ring e.2 == ring)).map (fun e =>
    (Slot.link e.2, Slot.flow e.2))).eraseDups

/-- The entries whose bundles cross the link that leaves a stop: local bundles go all the way round, WEFT_OUT bundles up
to the link that carries the gateway (R116). -/
def Loom.crossing (l : Loom) (ring stop : Nat) : SMap Word64 :=
  l.entries.filter (fun e => Slot.ring e.2 == ring && (Slot.kind e.2 == kINJECT ||
    (Slot.kind e.2 == kWEFT_OUT &&
      hopCount ring (l.pgb (e.1 / 1024)) stop ≤ hopCount ring (l.pgb (e.1 / 1024)) (gwStop ring))))

/-- N of the link that leaves a stop (R116, R124). -/
def Loom.linkLoad (l : Loom) (ring stop : Nat) : Nat := (l.crossing ring stop).length + (l.weftFlows ring).length

/-- The busiest link: load, ring, stop; the lowest ring, then the lowest stop (R124). -/
def Loom.linkMax (l : Loom) : Nat × Nat × Nat :=
  if l.entries.isEmpty then (0, 0, 0)
  else (List.range 8).foldl (fun b r => (List.range 128).foldl (fun (b : Nat × Nat × Nat) s =>
    let n := l.linkLoad r s
    if b.1 < n then (n, r, s) else b) b) (0, 0, 0)

/-! ### The latency descriptor (R196) -/

/-- Entry i of the descriptor of a stepping, 0 A1, 1 B0. -/
def latEntry (step i : Nat) : Nat :=
  if i = 0 then (if step = 0 then 105 else 100)
  else if i = 16 then (if step = 0 then 3 else 4)
  else if i < 21 then [0, 5, 12, 8, 1, 1, 4, 2, 10, 3, 3, 3, 4, 1, 2, 1, 0, 1, 12, 2, 5].getD i 0
  else if 32 ≤ i ∧ i < 46 then [16, 32, 32, 16, 256, 64, 64, 256, 64, 32, 1, 4096, 1024, 4096].getD (i - 32) 0
  else 0

/-! ### The critical path (R200) -/

/-- A time in tp and the EDGE picks with SAMPLES > 0 on the chain that sets it. -/
abbrev PathT := Nat × Nat

/-- The later of two times; of equal times, the one whose chain holds more such picks. -/
def pathMax (a b : PathT) : PathT := if a.1 < b.1 ∨ (a.1 = b.1 ∧ a.2 < b.2) then b else a

/-- A time moved on. -/
def later (n : Nat) (a : PathT) : PathT := (a.1 + n, a.2)

/-- Completions found so far, by key 2048 * heddle + pick. -/
abbrev PathTab := SMap PathT

/-- close(hn, p) of lane j (04 R100), and of all 32 heddles. -/
def pathLane (t : PathTab) (hn j p : Nat) : PathT :=
  [j, j + 8, j + 16, j + 24].foldl (fun m k => pathMax m (SMap.get (0, 0) t (hkOf hn k * 2048 + p))) (0, 0)
def pathAll (t : PathTab) (hn p : Nat) : PathT :=
  (List.range 32).foldl (fun m k => pathMax m (SMap.get (0, 0) t (hkOf hn k * 2048 + p))) (0, 0)

/-- The INJECT entry of a ring and flow. -/
def Loom.injector (l : Loom) (ring flow : Nat) : Option (Nat × Word64) :=
  l.entries.find? (fun e => Slot.kind e.2 == kINJECT && Slot.ring e.2 == ring && Slot.flow e.2 == flow)

/-- The EXTRACT entry of a harness's loom-receive bundle. -/
def Loom.extractor (l : Loom) (hn b : Nat) : Option Word64 :=
  ((l.entriesOf (hn / 64)).find? (fun e => Slot.kind e.2 == kEXTRACT && Slot.harness e.2 == hn % 64 &&
    Slot.bundle e.2 == b)).map Prod.snd

/-- ready() of the read of an address by harness hn at pick q; `lat` gives L of a harness. -/
def Loom.pathReady (l : Loom) (lat : Nat → Nat) (cross : Nat) (t : PathTab) (hn q x : Nat) : PathT :=
  if 0x800 ≤ x ∧ x < 0xA00 then
    match winProducer q ((x - 0x800) / 32) with
    | none => (0, 0)
    | some p => later 1 (SMap.get (0, 0) t (hkOf hn (x % 32) * 2048 + p))
  else if 0xA00 ≤ x ∧ x < 0xB00 then
    match brxPull q ((x - 0xA00) / 8) with
    | none => (0, 0)
    | some p =>
      let lt := lat hn
      if p < lt then (0, 0)
      else later lt ((List.range 8).foldl (fun m j =>
        let s := routeSel (l.stored hn 32 p) j
        pathMax m (pathLane t (hnOf (hn / 64) s.1) s.2 (p - lt))) (0, 0))
  else if 0xB00 ≤ x ∧ x < 0xC00 then
    match l.extractor hn ((x - 0xB00) / 8) with
    | none => (0, 0)
    | some e => match l.injector (Slot.ring e) (Slot.flow e) with
      | none => (0, 0)
      | some i =>
        let a := l.pgb (i.1 / 1024)
        let r := Slot.ring e
        later (2 + hopsCost cross r a (hopCount r a (l.pgb (hn / 64))) + 1)
          (pathAll t (hnOf (i.1 / 1024) (Slot.harness i.2)) (Slot.pick i.2))
  else (0, 0)

/-- Cost of a pick in tp: indexes 4 to 11 of the descriptor (R196, 03 R91). -/
def pickCost (w0 : PickWord) : PickKind → Nat
  | .wide _ =>
    let op := PickW.op w0
    if op = opMRD then 4 else if op = opMWR then 2 else if op = opDRD then (if (PickW.param w0).testBit 0 then 3 else 10) else 3
  | _ => 1

/-- The start of heddle k's pick p, before a handshake. -/
def Loom.pathStart (l : Loom) (lat : Nat → Nat) (cross : Nat) (t : PathTab) (hn k p : Nat) : PathT :=
  let w0 := l.stored hn 0 p
  let w := l.stored hn k p
  let s0 := if p = 0 then (0, 0) else SMap.get (0, 0) t (hkOf hn k * 2048 + (p - 1))
  (fieldsRead (pickKind w0 w) (PickW.op w0) k).foldl (fun s i =>
    pathMax s (l.pathReady lat cross t hn p (PickW.fieldOf w i))) s0

/-- Completions of pick p of a harness's 32 heddles. -/
def Loom.pathPick (l : Loom) (lat : Nat → Nat) (cross : Nat) (t : PathTab) (hn p : Nat) : PathTab :=
  let w0 := l.stored hn 0 p
  let starts := (List.range 32).map (fun k => l.pathStart lat cross t hn k p)
  let wide := PickW.special w0 && hwOp (PickW.op w0)
  let close := starts.foldl pathMax (0, 0)
  (List.range 32).map (fun k =>
    let w := l.stored hn k p
    let kd := pickKind w0 w
    let s := if wide then close else starts.getD k (0, 0)
    let e := match kd with
      | .edge => b2n (PickW.param w % 16 != 0)
      | _ => 0
    (hkOf hn k * 2048 + p, (s.1 + pickCost w0 kd, s.2 + e)))

/-- Harnesses that are mapped, ascending. -/
def Loom.mappedHns (l : Loom) : List Nat := l.need.flatMap (fun e => (List.range (min e.2 64)).map (hnOf e.1))

/-- Every completion of an image of depth D. -/
def Loom.pathTab (l : Loom) (lat : Nat → Nat) (cross depth : Nat) : PathTab :=
  (List.range depth).foldl (fun t p => l.mappedHns.flatMap (fun hn => l.pathPick lat cross t hn p) ++ t) []

/-- first() of the link that leaves a stop (R200): the earliest time a bundle reaches it. -/
def Loom.pathFirst (l : Loom) (cross : Nat) (t : PathTab) (ring stop : Nat) : PathT :=
  if !(l.weftFlows ring).isEmpty then (0, 0)
  else
    let ts := (l.crossing ring stop).map (fun e =>
      let a := l.pgb (e.1 / 1024)
      later (2 + hopsCost cross ring a (hopCount ring a stop))
        (pathAll t (hnOf (e.1 / 1024) (Slot.harness e.2)) (Slot.pick e.2)))
    match ts with
    | [] => (0, 0)
    | x :: r => r.foldl (fun m y => if y.1 < m.1 ∨ (y.1 = m.1 ∧ m.2 < y.2) then y else m) x

/-- C, C_ring and E on a stepping (R200). DESIGN CHOICE, assumption log 12: of chains of equal cost E is the greatest count of EDGE
picks. -/
def Loom.critical (l : Loom) (lat : Nat → Nat) (step depth : Nat) : Nat × Nat × Nat :=
  let cross := latEntry step 16
  let t := l.pathTab lat cross depth
  let graph := l.mappedHns.foldl (fun m hn => pathMax m (pathAll t hn (depth - 1))) (0, 0)
  let ring := if l.entries.isEmpty then (0, 0)
    else (List.range 8).foldl (fun m r => (List.range 128).foldl (fun m s =>
      let n := l.linkLoad r s
      if n = 0 then m else pathMax m (later ((n + 7) / 8) (l.pathFirst cross t r s))) m) (0, 0)
  let c := pathMax graph ring
  (c.1, ring.1, c.2)

end Sys2Proof.Machine
end

