-- ==== Sys2Proof/Machine/Image.lean ====
section
/-!
DEFINITION. Prile images (08 R222 to R230): header, section table, sections, footer, relocation; the checks of 07 R206,
09 R279, 11 R326, R342 and 12 R376; what the loader builds of an image.
-/

namespace Sys2Proof.Machine

/-- Why a catalogue entry fails: the event and its data field but for slot, entry and bay (R240). -/
structure LoadFail where
  code : Nat
  data : Nat
  deriving DecidableEq, Repr

/-- A failure with its DETAIL (R240). -/
def failD (code detail : Nat) : LoadFail := ⟨code, detail % 2 ^ 28 * 2 ^ 16⟩

/-- A failure of a check of 07 R206, with its position. -/
def failP (code gb h k p : Nat) : LoadFail := ⟨code, posOf gb h k p⟩

/-- Every check of a list passes, or the first that fails. -/
def checks : List (Option LoadFail) → Except LoadFail Unit
  | [] => .ok ()
  | some f :: _ => .error f
  | none :: t => checks t

/-- A check as a list element. -/
def failIf (b : Bool) (f : LoadFail) : Option LoadFail := if b then some f else none

/-! ### The header (R222) -/

/-- The header's fields. -/
def H.imageId (h : List Byte) : Nat := leAt h 8 8
def H.catVersion (h : List Byte) : Nat := leAt h 16 4
def H.stepMask (h : List Byte) : Nat := leAt h 24 1
def H.depth (h : List Byte) : Nat := leAt h 26 2
def H.sections (h : List Byte) : Nat := leAt h 28 2
def H.lag (h : List Byte) : Nat := leAt h 30 1
def H.bayImage (h : List Byte) : Nat := leAt h 31 1
def H.total (h : List Byte) : Nat := leAt h 32 8
def H.baseId (h : List Byte) : Nat := leAt h 40 8
def H.lockSet (h : List Byte) : Nat := leAt h 64 16
/-- U and the swappable mark of a beam (07 R203, R204). -/
def H.need (h : List Byte) (gb : Nat) : Nat := leAt h (80 + gb) 1 % 128
def H.swap (h : List Byte) (gb : Nat) : Bool := bitN (leAt h (80 + gb) 1) 7

/-- The stepping present is accepted (R222). -/
def stepOk (mask : Nat) : Bool := mask < 4 && (mask == 3 || mask.testBit Config.step)

/-- The header's own checks, in order of event and reason (R222, R230). `bay`: the bay of a bay image. -/
def Dev.checkHeader (d : Dev) (h : List Byte) (c : CatEntry) (bay : Option Nat) : Except LoadFail Unit :=
  checks [
    failIf (leAt h 0 4 != 0x4C525044) (failD 0x101 1),
    failIf (leAt h 4 2 != 1 || leAt h 52 4 != 0 || leAt h 208 44 != 0 || 1 < leAt h 25 1 || 4 < H.lag h ||
      H.sections h < 1 || 1024 < H.sections h || H.total h < 256 + 32 * H.sections h + 16) (failD 0x101 2),
    failIf (leAt h 6 2 != 256) (failD 0x101 3),
    failIf (crc32c (h.take 252) != leAt h 252 4) (failD 0x101 4),
    failIf (leAt h 20 4 != (d.reg R.CHIP_ID).toNat) (failD 0x102 (leAt h 20 4)),
    failIf (!stepOk (H.stepMask h)) (failD 0x103 (H.stepMask h)),
    failIf (H.imageId h != c.imageId) (failD 0x104 1),
    failIf (H.catVersion h != c.catVersion) (failD 0x104 2),
    failIf (match bay with
      | none => H.bayImage h != 0xFF || H.baseId h != 0
      | some b => H.bayImage h != b) (failD 0x104 3)]

/-! ### The section table (R223, R224, R505) -/

/-- A section-table entry. -/
structure SecEntry where
  typ : Nat
  flags : Nat
  scope : Nat
  off : Nat
  stored : Nat
  raw : Nat
  deriving DecidableEq, Repr

/-- The n entries of a table. -/
def secTable (t : List Byte) (n : Nat) : List SecEntry :=
  (List.range n).map (fun i => ⟨leAt t (32 * i) 2, leAt t (32 * i + 2) 2, leAt t (32 * i + 4) 4, leAt t (32 * i + 8) 8,
    leAt t (32 * i + 16) 8, leAt t (32 * i + 24) 8⟩)

/-- Section types (R224). -/
def tyHEDDLE : Nat := 1
def tyDRAW : Nat := 2
def tySLOT : Nat := 3
def tyHCFG : Nat := 4
def tySHED : Nat := 5
def tyBEAM : Nat := 6
def tyDEEP : Nat := 7
def tyHBM : Nat := 8
def tyPORT : Nat := 9
def tyRELOC : Nat := 10
def tyCODE : Nat := 11
def tyBAYS : Nat := 12
def tyFAIL : Nat := 13
def tyCAP : Nat := 14

/-- A type scoped to a beam; a known type. -/
def perBeam (t : Nat) : Bool := 1 ≤ t && t ≤ 6
def knownType (t : Nat) : Bool := 1 ≤ t && t ≤ 14

/-- The tests of check 1 of 07 R206 that need only the header and the table (R230). -/
def checkEarly (h : List Byte) (t : List SecEntry) : Except LoadFail Unit :=
  let gbs := List.range 128
  let miss := fun gb => [tyHEDDLE, tyDRAW, tyHCFG].any (fun ty => !t.any (fun e => e.typ == ty && e.scope == gb))
  checks ([failIf (H.depth h < 1 || 2048 < H.depth h) (failP 0x135 0 0 0 0)] ++
    gbs.map (fun gb => failIf (64 < H.need h gb) (failP 0x135 gb 0 0 0)) ++
    gbs.map (fun gb => failIf (H.need h gb != 0 && miss gb) (failP 0x135 gb 0 0 0)) ++
    t.map (fun e => failIf (perBeam e.typ && e.scope < 128 && H.need h e.scope == 0) (failP 0x135 e.scope 0 0 0)))

/-- The size rule of R505. -/
def rawLenOk (h : List Byte) (e : SecEntry) : Bool :=
  let u := H.need h e.scope
  let n := e.raw
  match e.typ with
  | 1 => n == u * 32 * H.depth h * 9
  | 2 => n == u * H.depth h * 9
  | 3 => n % 8 == 0 && n ≤ 8192
  | 4 => n == 72
  | 5 => n == u * 32 * 256
  | 6 => n % 4 == 0 && n ≤ 1048576
  | 7 => n == 1024
  | 12 => n == 512
  | 10 => n % 16 == 0
  | 13 => n % 16 == 0
  | 14 => 640 ≤ n && (n - 640) % 8 == 0
  | 8 => n % 8 == 0
  | 9 => n % 8 == 0
  | 11 => n % 8 == 0
  | _ => true

/-- Entry i of the table breaks a rule of R223, given the entries before it. -/
def secBad (h : List Byte) (before : List SecEntry) (i : Nat) (e : SecEntry) : Bool :=
  let known := knownType e.typ
  let start := match before.getLast? with
    | none => 256 + 32 * H.sections h
    | some p => p.off + p.stored
  (!known && !bitN e.flags 15) || e.flags % 0x8000 / 2 != 0 ||
    (known && (if perBeam e.typ then 128 ≤ e.scope else e.scope != 0xFFFFFFFF)) ||
    e.off % 8 != 0 || (!bitN e.flags 0 && e.raw != e.stored) || e.off < start || H.total h < e.off + e.stored + 16 ||
    !rawLenOk h e || before.any (fun p => p.typ == e.typ && p.scope == e.scope) || (e.typ == tyDEEP && i != 0)

/-- The section-table check: the first failing entry (R223, R240). -/
def checkTable (h : List Byte) (t : List SecEntry) : Except LoadFail Unit :=
  checks ((List.range t.length).map (fun i => match t[i]? with
    | some e => failIf (secBad h (t.take i) i e) (failD 0x105 i)
    | none => none))

/-! ### Reading (R230) -/

/-- n bytes of the entry from an offset; `none`: the read would reach past its end. Sectors that the medium's bytes do
not list read 0 (assumption log 12). -/
def readEntry (m : List Byte) (c : CatEntry) (off n : Nat) : Option (List Byte) :=
  if c.sectors * 512 < off + n then none
  else
    let bs := (m.drop off).take n
    some (bs ++ List.replicate (n - bs.length) 0)

/-- The failure of such a read: every byte of the entry has been read (R230, R240). -/
def failEnd (c : CatEntry) : LoadFail := failD 0x107 (c.sectors * 512 / 4096)

/-- The records of an INIT_HBM section fill it exactly: address and data (R224, R505). -/
def hbmRecords : Nat → List Byte → Option (List (Nat × List Byte))
  | 0, _ => none
  | n + 1, bs =>
    if bs.isEmpty then some []
    else
      let len := leAt bs 8 8
      let full := 16 + (len + 7) / 8 * 8
      if bs.length < full then none
      else (hbmRecords n (bs.drop full)).map (fun t => (leAt bs 0 8, (bs.drop 16).take len) :: t)

/-! ### The image cache (R229) -/

/-- TARGET = 0 windows of a DEEP_WINDOWS section, model base added: first address, and the first after the window
(R228). -/
def deepRanges (deep : List Byte) (mb : Nat) : List (Nat × Nat) :=
  ((List.range (deep.length / 8)).map (fun i => BitVec.ofNat 64 (leAt deep (8 * i) 8))).filterMap (fun w =>
    if Win.valid w && !Win.mailbox w then some (Win.lo w + mb, Win.hi w + mb) else none)

/-- Two ranges of addresses overlap. -/
def overlap (a b c d : Nat) : Bool := a < d && c < b && a < b && c < d

/-- The highest 256 MiB-aligned base below `top` at which `size` bytes overlap none of the ranges (R229). -/
def placeBelow (top size : Nat) (rs : List (Nat × Nat)) : Option Nat :=
  let unit := 0x10000000
  ((List.range (top / unit)).reverse.map (· * unit)).find? (fun b =>
    b + size ≤ top && !rs.any (fun r => overlap b (b + size) r.1 r.2))

/-- Size of the image cache: header, table and every section but INIT_HBM, in multiples of 256 MiB (R229). -/
def cacheSize (t : List SecEntry) : Nat :=
  let n := 256 + 32 * t.length + (t.filter (fun e => e.typ != tyHBM)).foldl (fun n e => n + e.raw) 0
  (n + 0xFFFFFFF) / 0x10000000 * 0x10000000

/-- Bytes of the image cache that sections fill, header and table included (R229). -/
def cacheLen (ss : List Section) : Nat :=
  256 + 32 * ss.length + ((ss.filter (fun s => s.typ != tyHBM)).map (fun s => s.raw.length)).sum

/-! ### Relocation (R227) -/

/-- A section of a type and scope; its raw content. -/
def secOf (ss : List Section) (typ scope : Nat) : Option (List Byte) :=
  (ss.find? (fun s => s.typ == typ && s.scope == scope)).map Section.raw
def devSec (ss : List Section) (typ : Nat) : List Byte := (secOf ss typ 0xFFFFFFFF).getD []

/-- Bytes of a list replaced from an offset. -/
def patchBytes (bs : List Byte) (off : Nat) (new : List Byte) : List Byte :=
  bs.take off ++ new ++ bs.drop (off + new.length)

/-- Logical lanes that a port map names. -/
def lanesUsed (es : List Word64) : List Nat :=
  (es.filterMap (fun e => if PM.kind e = kLANE then some (PM.lane e)
    else if PM.kind e = kPUT_WARP then some (PM.putLane e) else if PM.kind e = kIN_WARP then some (PM.inLane e) else none)).eraseDups

/-- One record applied (R227). The LANE and LINK fields of the port map, the capture configuration and the slot tables
are checked and left logical: the model translates them at each use (assumption log 13). -/
def Dev.relocate1 (d : Dev) (mb : Nat) (r : List Byte) (ss : List Section) : Except LoadFail (List Section) :=
  let kind := leAt r 0 1
  let width := leAt r 1 1
  let sec := leAt r 2 2
  let bit := leAt r 4 1
  let off := leAt r 8 8
  let fail := failD 0x13B 0
  match ss[sec]? with
  | none => .error fail
  | some s =>
    if !knownType s.typ then .ok ss
    else if kind < 1 ∨ 4 < kind ∨ width < 1 ∨ 64 < width ∨ 7 < bit ∨ leAt r 5 3 ≠ 0 ∨
        8 * s.raw.length < 8 * off + bit + width then .error fail
    else
      let n := (bit + width + 7) / 8
      let old := leAt s.raw off n
      let v := old / 2 ^ bit % 2 ^ width
      let new : Option Nat :=
        if kind = 1 then some (v + mb)
        else if kind = 2 then (if v < 128 ∧ d.phys v < 128 then some (d.phys v) else none)
        else if kind = 3 then (if v < 4 then some (((d.charter.map Charter.linkMap).getD []).getD v v) else none)
        else if (d.gpioCfg v).user = 1 ∧ v < 48 then some v else none
      match new with
      | none => .error fail
      | some x =>
        if 2 ^ width ≤ x then .error fail
        else if (kind = 2 ∨ kind = 3) ∧ (s.typ = tyPORT ∨ s.typ = tySLOT) then .ok ss
        else
          let word := old - v * 2 ^ bit + x * 2 ^ bit
          .ok (ss.set sec { s with raw := patchBytes s.raw off (leBytes n word) })

/-- The records of a list applied in order. -/
def Dev.relocateAll (d : Dev) (mb : Nat) : List (List Byte) → List Section → Except LoadFail (List Section)
  | [], ss => .ok ss
  | r :: t, ss => match d.relocate1 mb r ss with
    | .error f => .error f
    | .ok ss => d.relocateAll mb t ss

/-- A list of bytes cut into pieces of n. -/
def pieces (n : Nat) (bs : List Byte) : List (List Byte) :=
  (List.range (bs.length / n)).map (fun i => (bs.drop (n * i)).take n)

/-- The words of 64 bits of a section. -/
def words64 (bs : List Byte) : List Word64 := (pieces 8 bs).map (fun x => BitVec.ofNat 64 (leNat x))

/-- Relocation; LANEMAP gives a lane for every lane that the port map names, and an INIT_HBM record must lie wholly inside a TARGET = 0
window (R227, R228). -/
def Dev.relocate (d : Dev) (mb : Nat) (ss : List Section) : Except LoadFail (List Section) :=
  match d.relocateAll mb (pieces 16 (devSec ss tyRELOC)) ss with
  | .error f => .error f
  | .ok ss =>
    let wins := deepRanges (devSec ss tyDEEP) mb
    let recs := (hbmRecords ((devSec ss tyHBM).length + 1) (devSec ss tyHBM)).getD []
    match checks (failIf ((lanesUsed (words64 (devSec ss tyPORT))).any (fun l => 128 ≤ d.phys l)) (failD 0x13B 0) :: recs.map (fun x =>
        failIf (!wins.any (fun w => w.1 ≤ x.1 + mb && x.1 + mb + x.2.length ≤ w.2)) (failD 0x13A 0))) with
    | .error f => .error f
    | .ok _ => .ok ss

/-! ### The loom of an image (R231) -/

/-- The 9-byte words of a section, as (key, word) pairs; word i has key f i (03 R66). -/
def words72 (bs : List Byte) (f : Nat → Nat) : SMap PickWord :=
  ((List.range (bs.length / 9)).map (fun i => (f i, BitVec.ofNat 72 (leAt bs (9 * i) 9)))).filter (fun e => e.2 != 0)

/-- Jacquard words of a beam's harnesses: streams of each harness, then its draw stream. -/
def jacOf (ss : List Section) (depth u gb : Nat) : SMap PickWord :=
  let hs := (secOf ss tyHEDDLE gb).getD []
  let ds := (secOf ss tyDRAW gb).getD []
  (List.range u).flatMap (fun h =>
    words72 ((hs.drop (h * 32 * depth * 9)).take (32 * depth * 9)) (fun i => jacKey (hnOf gb h) (i / depth) (i % depth)) ++
    words72 ((ds.drop (h * depth * 9)).take (depth * 9)) (fun i => jacKey (hnOf gb h) 32 i))

/-- Initial shed entries that are 1 (R224). -/
def shedOf (ss : List Section) (gb : Nat) : SMap Bool :=
  let bs := (secOf ss tySHED gb).getD []
  (List.range bs.length).flatMap (fun j =>
    ((List.range 8).filter (fun b => (bs.getD j 0).toNat.testBit b)).map (fun b =>
      (hkOf (hnOf gb 0) (j / 256) * 2048 + 8 * (j % 256) + b, true)))

/-- Slot-table entries of a beam (R224). -/
def slotsOf (ss : List Section) (gb : Nat) : SMap Word64 :=
  let ws := words64 ((secOf ss tySLOT gb).getD [])
  ((List.range ws.length).map (fun i => (1024 * gb + i, ws.getD i 0))).filter (fun e => e.2 != 0)

/-- The deep window descriptors of the 128 beams, model base added to BASE where TARGET = 0 (R228; 05 R131). A beam whose
descriptor no section gives has one of 0, with the base added (DEDUCED, log 12). -/
def dwinOf (ss : List Section) (mb : Nat) : SMap Word64 :=
  let ws := words64 (devSec ss tyDEEP)
  ((List.range 128).map (fun gb =>
    let w := ws.getD gb 0
    (gb, if Win.mailbox w then w
      else BitVec.ofNat 64 (w.toNat - Win.base w + (Win.base w + mb / 256) % 2 ^ 30)))).filter (fun e => e.2 != 0)

/-- Bays: key GB, bay + 1 (R224). -/
def baysOf (ss : List Section) : SMap Nat :=
  let bs := devSec ss tyBAYS
  (List.range 128).filterMap (fun gb =>
    ((List.range 32).find? (fun b => bitN (leAt bs (16 * b) 16) gb)).map (fun b => (gb, b + 1)))

/-- The loom that the loader writes, before placement (R231). -/
def imageLoom (h : List Byte) (ss : List Section) (mb : Nat) : Loom :=
  let gbs := (List.range 128).filter (fun gb => H.need h gb != 0)
  { Loom.empty with
    need := gbs.map (fun gb => (gb, H.need h gb)), jac := gbs.flatMap (fun gb => jacOf ss (H.depth h) (H.need h gb) gb),
    initShed := gbs.flatMap (shedOf ss), slots := gbs.flatMap (slotsOf ss), dwin := dwinOf ss mb, bay := baysOf ss }

/-- HARNESS_CFG of a harness: LANE_MERGE, and L - 2 of its group (R224). -/
def hcfgMerge (ss : List Section) (hn : Nat) : Nat := leAt ((secOf ss tyHCFG (hn / 64)).getD []) (hn % 64) 1 % 4
def hcfgLat (ss : List Section) (hn : Nat) : Nat := leAt ((secOf ss tyHCFG (hn / 64)).getD []) (64 + hn % 64 / 8) 1 % 4

/-! ### Checks 2 to 7 of 07 R206 -/

/-- Check 2: selectors name mapped harnesses of the beam (07 R198 obligation 3). -/
def Loom.checkRoutes (l : Loom) (depth : Nat) (hns : List Nat) : List (Option LoadFail) :=
  hns.flatMap (fun hn => (List.range depth).map (fun p =>
    failIf ((List.range 8).any (fun j => !l.mapped (hnOf (hn / 64) (routeSel (l.stored hn 32 p) j).1)))
      (failP 0x132 (hn / 64) (hn % 64) 0 p)))

/-- Fields that R109 requires to be 0 for an entry's KIND are 0, and reserved bits. -/
def slotFieldsOk (s : Word64) : Bool :=
  let k := Slot.kind s
  s.toNat % 2 ^ 13 == 0 && (k == kINJECT || k == kWEFT_OUT || Slot.pick s == 0) &&
    (k == kEXTRACT || k == kWEFT_IN || (Slot.bundle s == 0 && Slot.bdef s == 0)) &&
    (k == kWEFT_OUT || k == kWEFT_IN || Slot.link s == 0) && (k == kEXTRACT || Slot.bmode s == 0)

/-- A slot-table entry that clashes with an earlier one (04 R112). -/
def slotClash (a b : Nat × Word64) : Bool :=
  let s := a.2
  let t := b.2
  let stop := a.1 / 1024 == b.1 / 1024
  Slot.kind s == Slot.kind t &&
    (if Slot.kind s = kINJECT then Slot.ring s == Slot.ring t && Slot.flow s == Slot.flow t
     else if Slot.kind s = kWEFT_OUT then Slot.link s == Slot.link t && Slot.flow s == Slot.flow t
     else (stop && Slot.harness s == Slot.harness t && Slot.bundle s == Slot.bundle t) ||
       (Slot.kind s == kWEFT_IN && Slot.link s == Slot.link t && Slot.flow s == Slot.flow t && Slot.ring s != Slot.ring t))

/-- Check 3: slot tables (04 R112). `only`: the entries to be reported. DESIGN CHOICE, assumption log 12: the lowest entry that fails is
reported, a clash at its later entry, with the beam of the stop and the entry's HARNESS and PICK as position. -/
def Loom.checkSlots (l : Loom) (depth : Nat) (only : Nat → Bool) : List (Option LoadFail) :=
  let es := l.entries
  (List.range es.length).map (fun i => match es[i]? with
    | none => none
    | some e =>
      let s := e.2
      failIf (only (e.1 / 1024) && (depth ≤ Slot.pick s || !l.mapped (hnOf (e.1 / 1024) (Slot.harness s)) || !slotFieldsOk s ||
          (es.take i).any (fun x => slotClash x e) ||
          (Slot.kind s == kEXTRACT && (l.injector (Slot.ring s) (Slot.flow s)).isNone)))
        (failP 0x131 (e.1 / 1024) (Slot.harness s) 0 (Slot.pick s)))

/-- Every pick of the harnesses of a list: harness, heddle, pick, word. DESIGN CHOICE, assumption log 12: of several picks that fail one
check, the first in this order is reported. -/
def Loom.allPicks (l : Loom) (depth : Nat) (hns : List Nat) : List (Nat × Nat × Nat × PickWord) :=
  hns.flatMap (fun hn => (List.range depth).flatMap (fun p => (List.range 32).map (fun k => (hn, k, p, l.stored hn k p))))

/-- The word holds an opcode. -/
def PickW.isOp (w : PickWord) (op : Nat) : Bool := PickW.special w && PickW.op w == op

/-- Check 4: deep window descriptors; DRD and DWR need one (05 R133). -/
def Loom.checkWindows (l : Loom) (depth mb : Nat) (raw : List Word64) : List (Option LoadFail) :=
  (List.range raw.length).map (fun gb =>
    let w := raw.getD gb 0
    let lo := Win.lo w + mb
    let hi := Win.hi w + mb
    failIf (Win.valid w && (bitsN w.toNat 51 30 != 0 ||
        (if Win.mailbox w then 15 < Win.width w || Win.base w != 0
         else bitsN w.toNat 56 52 != 0 || hbmEnd < hi || overlap lo hi spillBase hbmEnd))) (failP 0x133 gb 0 0 0)) ++
  (l.allPicks depth l.mappedHns).map (fun x =>
    failIf ((PickW.isOp x.2.2.2 opDRD || PickW.isOp x.2.2.2 opDWR) && !Win.valid (l.win64 (x.1 / 64)))
      (failP 0x133 (x.1 / 64) (x.1 % 64) x.2.1 x.2.2.1))

/-- Check 5: FAIL names a map that the image defines (03 R88). -/
def Loom.checkFails (l : Loom) (depth : Nat) (maps : List Nat) : List (Option LoadFail) :=
  (l.allPicks depth l.mappedHns).map (fun x =>
    failIf (PickW.isOp x.2.2.2 opFAIL && !maps.contains (PickW.param x.2.2.2)) (failP 0x136 (x.1 / 64) (x.1 % 64) x.2.1 x.2.2.1))

/-- Check 6: a loom-receive read comes after its bundle's drive pick (07 R198 obligation 6). -/
def Loom.checkReads (l : Loom) (depth : Nat) (hns : List Nat) : List (Option LoadFail) :=
  (l.allPicks depth hns).map (fun x =>
    let w0 := l.stored x.1 0 x.2.2.1
    let early := (fieldsRead (pickKind w0 x.2.2.2) (PickW.op w0) x.2.1).any (fun i =>
      let a := PickW.fieldOf x.2.2.2 i
      0xB00 ≤ a && a < 0xC00 && (match l.extractor x.1 ((a - 0xB00) / 8) with
        | none => false
        | some e => match l.injector (Slot.ring e) (Slot.flow e) with
          | none => false
          | some j => x.2.2.1 ≤ Slot.pick j.2))
    failIf early (failP 0x137 (x.1 / 64) (x.1 % 64) x.2.1 x.2.2.1))

/-- Check 7: bays are disjoint and hold mapped beams only (07 R205). -/
def checkBays (h : List Byte) (bs : List Byte) : List (Option LoadFail) :=
  (List.range 128).map (fun gb =>
    let n := ((List.range 32).filter (fun b => bitN (leAt bs (16 * b) 16) gb)).length
    failIf (1 < n || (n == 1 && H.need h gb == 0)) (failP 0x139 gb 0 0 0))

/-! ### The port map (09 R279) -/

/-- Reserved bits of an entry, by kind: its lowest used bit (09 R277). -/
def pmLow (kind : Nat) : Nat := [64, 39, 7, 29, 10, 33, 30, 26].getD kind 64

/-- The PUT slots an entry ties, the body bits and pins it drives, the port-in slots it fills. -/
def pmPuts (e : Word64) : List Nat :=
  if PM.kind e = kPUT_WARP then (List.range (PM.putRun e)).map (fun i => 4096 * PM.hn e + PM.putSlot e + i)
  else if PM.kind e = kPUT_GPIO then [4096 * PM.hn e + PM.putSlot e] else []
def pmBody (e : Word64) : List Nat :=
  if PM.kind e = kPUT_WARP then (List.range (PM.putRun e)).map (fun i => 8192 * PM.putLane e + PM.putBit e + i) else []
def pmIns (e : Word64) : List Nat :=
  if PM.kind e = kIN_WARP then (List.range (PM.inRun e)).map (fun i => 256 * PM.hn e + PM.inSlot e + i)
  else if PM.kind e = kIN_GPIO ∨ PM.kind e = kIN_STATUS then [256 * PM.hn e + PM.inSlot e] else []

/-- The lane that a PUT_WARP or IN_WARP entry names. -/
def pmNames (e : Word64) : Option Nat :=
  if PM.kind e = kPUT_WARP then some (PM.putLane e) else if PM.kind e = kIN_WARP then some (PM.inLane e) else none

/-- Two lists of numbers share one. -/
def meet (a b : List Nat) : Bool := a.any b.contains

/-- Ranges of an entry, given B of the lane that it names (09 R279). -/
def pmRangeBad (e : Word64) (b : Nat) : Bool :=
  if PM.kind e = kPUT_WARP then 4096 < PM.putSlot e + PM.putRun e || 128 * b < PM.putBit e + PM.putRun e
  else if PM.kind e = kIN_WARP then 256 < PM.inSlot e + PM.inRun e ||
    (if PM.inBit e < 4096 then 64 * b < PM.inBit e + PM.inRun e else 6144 < PM.inBit e + PM.inRun e)
  else if PM.kind e = kPUT_INIT then 4096 < PM.putSlot e + PM.initRun e
  else false

/-- Entry i of a port map breaks a rule of 09 R279. -/
def Dev.pmBad (d : Dev) (l : Loom) (es : List Word64) (i : Nat) (e : Word64) : Bool :=
  let k := PM.kind e
  let before := es.take i
  let lanes := fun x => es.filter (fun y => PM.kind y == kLANE && PM.lane y == x)
  let b := match pmNames e with
    | some x => match lanes x with
      | y :: _ => PM.bm1 y + 1
      | [] => 0
    | none => 0
  let pin := if k = kPUT_GPIO then PM.putPin e else PM.inPin e
  k == 0 || 8 ≤ k || e.toNat % 2 ^ pmLow k != 0 ||
    (k == kLANE && (before.any (fun y => PM.kind y == kLANE && PM.lane y == PM.lane e)) &&
      es.any (fun y => pmNames y == some (PM.lane e))) ||
    (k != kLANE && !l.mapped (PM.hn e)) ||
    (match pmNames e with
      | some x => (lanes x).length != 1
      | none => false) ||
    pmRangeBad e b ||
    ((k == kPUT_GPIO || k == kIN_GPIO) && (48 ≤ pin || (d.gpioCfg pin).user != 1)) ||
    (k == kIN_STATUS && 32 ≤ PM.inSrc e && PM.inSrc e < 128) ||
    before.any (fun y => meet (pmBody y) (pmBody e) || meet (pmIns y) (pmIns e) ||
      (PM.kind y == kPUT_GPIO && k == kPUT_GPIO && PM.putPin y == PM.putPin e) ||
      (PM.kind y != k && meet (pmPuts y) (pmPuts e)))

/-- The port map, then the lock set: each lane has a physical lane (06 R166). -/
def Dev.checkPorts (d : Dev) (l : Loom) (es : List Word64) (lockSet : Nat) : List (Option LoadFail) :=
  (List.range es.length).map (fun i => match es[i]? with
    | some e => failIf (d.pmBad l es i e) ⟨0x13C, i % 4096 * 2 ^ 16⟩
    | none => none) ++
  (List.range 128).map (fun j => failIf (lockSet.testBit j && d.phys j == 0xFF) ⟨0x13C, 2 ^ 43 + j * 2 ^ 16⟩)

/-! ### Fail maps and capture (11 R326, R327, R342) -/

/-- A fail-map descriptor: map, ROW_BITS, CW_BITS, base address with the model base. -/
structure MapDesc where
  map : Nat
  row : Nat
  cw : Nat
  base : Nat
  deriving DecidableEq, Repr

def mapDescs (bs : List Byte) (mb : Nat) : List MapDesc :=
  (pieces 16 bs).map (fun x => ⟨leAt x 0 1, leAt x 1 1, leAt x 2 1, leAt x 8 8 + mb⟩)

def MapDesc.top (m : MapDesc) : Nat := m.base + 4 * 2 ^ (min 63 (m.row + m.cw))

/-- The ranges that fail maps and buffers keep clear of, but for the image cache: deep windows and the spill region. -/
def fixedRanges (deep : List Byte) (mb : Nat) : List (Nat × Nat) := (spillBase, hbmEnd) :: deepRanges deep mb

/-- Fail-map descriptors (11 R342). -/
def checkMaps (bs : List Byte) (mb : Nat) (fixed : List (Nat × Nat)) (cache : Nat × Nat) : List (Option LoadFail) :=
  let ms := mapDescs bs mb
  (List.range ms.length).map (fun i => match ms[i]? with
    | none => none
    | some m =>
      let x := (bs.drop (16 * i)).take 16
      if leAt x 3 5 ≠ 0 ∨ m.row < 1 ∨ 24 < m.row ∨ 20 < m.cw ∨ 30 < m.row + m.cw ∨ leAt x 8 8 % 256 ≠ 0 ∨
          (ms.take i).any (fun y => y.map == m.map) ∨ hbmEnd < m.top ∨
          (ms.take i).any (fun y => overlap y.base y.top m.base m.top) ∨
          fixed.any (fun r => overlap r.1 r.2 m.base m.top) then some ⟨0x13E, i % 4096 * 2 ^ 16⟩
      else failIf (overlap cache.1 cache.2 m.base m.top) (failD 0x13A 0))

/-- Word w of unit u's descriptor (11 R325). -/
def capWord (bs : List Byte) (u w : Nat) : Nat := leAt bs (40 * u + 4 * w) 4

/-- A unit's buffer, model base added: first address, the first after it; none for a unit that is OFF. -/
def capBuf (bs : List Byte) (mb u : Nat) : Option (Nat × Nat) :=
  let cfg := capWord bs u 0
  if cfg % 4 = 1 ∨ cfg % 4 = 2 then
    let b := capWord bs u 1 * 256 + mb
    some (b, b + 2 ^ bitsN cfg 9 5)
  else none

/-- Unit descriptors (11 R326). The fields of every descriptor are checked; a unit that is OFF has no buffer to check. -/
def checkUnits (bs : List Byte) (mb : Nat) (maps : List MapDesc) (fixed : List (Nat × Nat)) (cache : Nat × Nat) :
    List (Option LoadFail) :=
  if bs.isEmpty then []
  else (List.range 16).map (fun u =>
    let cfg := capWord bs u 0
    let size := bitsN cfg 9 5
    let reserved := bitsN cfg 11 10 != 0 || bitsN cfg 3 2 != 0 || bitsN (capWord bs u 1) 31 30 != 0 ||
      bitsN (capWord bs u 4) 5 4 != 0 || bitsN (capWord bs u 9) 31 16 != 0
    let fields := reserved || decide (size < 16) || decide (2 ^ size < capWord bs u 2 + capWord bs u 3 + 65536)
    match capBuf bs mb u with
    | none => failIf fields ⟨0x13E, u * 2 ^ 16⟩
    | some r =>
      if fields ∨ r.1 % 2 ^ size ≠ 0 ∨ hbmEnd < r.2 ∨
          (List.range u).any (fun v => match capBuf bs mb v with
            | some y => overlap y.1 y.2 r.1 r.2
            | none => false) ∨
          maps.any (fun m => overlap m.base m.top r.1 r.2) ∨ fixed.any (fun y => overlap y.1 y.2 r.1 r.2) then
        some ⟨0x13E, u * 2 ^ 16⟩
      else failIf (overlap cache.1 cache.2 r.1 r.2) (failD 0x13A 0))

/-- Probe bits that an entry takes (11 R327). -/
def pbBits (e : Word64) : Nat := if Pb.kind e = kTAP then 1 else if Pb.kind e = kPIN_CMP then 2 else if Pb.kind e = kPIN_DRV then 4 else 0

/-- Lowest used bit of a probe entry, by kind. -/
def pbLow (kind : Nat) : Nat := [64, 17, 28, 28, 30].getD kind 64

/-- Probe entry i breaks 11 R327. -/
def Dev.probeBad (d : Dev) (bs : List Byte) (l : Loom) (ports es : List Word64) (i : Nat) (e : Word64) : Bool :=
  let k := Pb.kind e
  let cfg := capWord bs (Pb.unit e) 0
  let before := (es.take i).filter (fun y => Pb.unit y == Pb.unit e)
  let lane := ports.find? (fun y => PM.kind y == kLANE && d.phys (PM.lane y) == Pb.lane e)
  k == 0 || 5 ≤ k || e.toNat % 2 ^ pbLow k != 0 ||
    cfg % 4 != (if k = kSTREAM then 2 else 1) ||
    (if k = kSTREAM then
      bitsN cfg 17 12 < Pb.pos e || before.any (fun y => Pb.pos y == Pb.pos e)
     else
      32 * (bitsN cfg 22 18 + 1) < Pb.pos e + pbBits e ||
        before.any (fun y => overlap (Pb.pos y) (Pb.pos y + pbBits y) (Pb.pos e) (Pb.pos e + pbBits e))) ||
    (if k = kTAP then !l.mapped (hnOf (Pb.gb e) (Pb.harness e))
     else match lane with
      | none => true
      | some y => (k == kPIN_CMP || k == kPIN_DRV) && PM.bm1 y + 1 ≤ Pb.cycle e)

/-- Probe entries; a SAMPLE unit has every stream 0 to NSTREAM (11 R327). -/
def Dev.checkProbes (d : Dev) (bs : List Byte) (l : Loom) (ports es : List Word64) : List (Option LoadFail) :=
  (List.range es.length).map (fun i => match es[i]? with
    | some e => failIf (d.probeBad bs l ports es i e) ⟨0x13E, i % 4096 * 2 ^ 16⟩
    | none => none) ++
  (if bs.isEmpty then [] else (List.range 16).map (fun u =>
    let cfg := capWord bs u 0
    failIf (cfg % 4 == 2 && !(List.range (bitsN cfg 17 12 + 1)).all (fun s =>
        es.any (fun e => Pb.unit e == u && Pb.kind e == kSTREAM && Pb.pos e == s))) ⟨0x13E, u * 2 ^ 16⟩))

/-! ### Shuttle code (12 R376) -/

/-- The records of a SHUTTLE_CODE section: kind and body; `none` where one does not fill its place or a reserved byte is
set. -/
def codeRecords : Nat → List Byte → Option (List (Nat × List Byte))
  | 0, _ => none
  | n + 1, bs =>
    if bs.isEmpty then some []
    else
      let len := leAt bs 4 4
      let full := (8 + len + 7) / 8 * 8
      if bs.length < full ∨ leAt bs 2 2 ≠ 0 ∨ !((bs.drop (8 + len)).take (full - 8 - len)).all (· == 0) then none
      else (codeRecords n (bs.drop full)).map (fun t => (leAt bs 0 2, (bs.drop 8).take len) :: t)

/-- A value of CLM_BANK_OWNER meets 12 R367, R379, for bank n = 32c + b. -/
def ownerOk (n v : Nat) : Bool :=
  let kind := bitsN v 9 8
  let id := bitsN v 6 0
  v < 1024 && !bitN v 7 && (kind == 1 || (kind == 2 && id < 32) || (id == 0 && (kind == 0 || (kind == 3 && 30 ≤ n % 32))))

/-- Device address of a SEGMENT's first byte; `none` where it runs outside its destination (12 R376). -/
def segAddr (b : List Byte) : Option Nat :=
  let dest := leAt b 0 1
  let unit := leAt b 2 2
  let off := leAt b 8 8
  let n := b.length - 16
  if dest = 0 then (if unit = 0 ∧ off + n ≤ hbmEnd then some off else none)
  else if dest = 1 then (if unit < 128 ∧ off + n ≤ 0x40000 then some (0x6100000000 + unit * 0x40000 + off) else none)
  else if dest = 2 then (if unit < 512 ∧ off + n ≤ 0x20000 then some (clusterBase + unit * 0x20000 + off) else none)
  else none

/-- A reserved bit of a descriptor is set (12 R370, R376). -/
def descReserved (b : List Byte) : Bool := leAt b 18 1 / 8 % 16 != 0 || leAt b 19 1 / 8 != 0 || leAt b 26 2 != 0

/-- A record meets 12 R376. -/
def codeRecOk (cache : Nat × Nat) (r : Nat × List Byte) : Bool :=
  let b := r.2
  let n := b.length
  match r.1 with
  | 1 => 16 ≤ n && leAt b 1 1 == 0 && leAt b 4 4 == 0 && (match segAddr b with
      | none => false
      | some a => !(a < hbmEnd && (overlap a (a + n - 16) spillBase hbmEnd || overlap a (a + n - 16) cache.1 cache.2)))
  | 2 => n == 40 && leAt b 1 7 == 0 && !descReserved (b.drop 8)
  | 3 => n == 16 && leAt b 0 1 < 64 && leAt b 1 7 == 0
  | 4 => n == 32 && !descReserved b
  | 5 => n == 2048 && (List.range 512).all (fun i => ownerOk i (leAt b (4 * i) 4))
  | 6 => n == 8
  | _ => false

/-- Shuttle code (12 R376). -/
def checkCode (cache : Nat × Nat) (bs : List Byte) : List (Option LoadFail) :=
  match codeRecords (bs.length + 1) bs with
  | none => [some (failD 0x13F 0)]
  | some rs => rs.map (fun r => failIf (!codeRecOk cache r) (failD 0x13F 0))

/-! ### All checks of an entry (R230) -/

/-- Placement and the checks of 07 R206 in order, then those of the port map, fail maps, capture and shuttle code. The
loom that the image makes. -/
def Dev.placeAndCheck (d : Dev) (h : List Byte) (ss : List Section) (mb : Nat) (cache : Nat × Nat) : Except LoadFail Loom :=
  let l := imageLoom h ss mb
  let dep := H.depth h
  let fixed := fixedRanges (devSec ss tyDEEP) mb
  let maps := mapDescs (devSec ss tyFAIL) mb
  let ports := words64 (devSec ss tyPORT)
  let cap := devSec ss tyCAP
  let probes := words64 (cap.drop 640)
  match checks (l.checkRoutes dep l.mappedHns ++ l.checkSlots dep (fun _ => true) ++
      l.checkWindows dep mb (words64 (devSec ss tyDEEP)) ++ l.checkFails dep (maps.map MapDesc.map) ++
      l.checkReads dep l.mappedHns ++ checkBays h (devSec ss tyBAYS)) with
  | .error f => .error f
  | .ok _ => match d.place l (H.swap h) with
    | .error gb => .error (failP 0x138 gb 0 0 0)
    | .ok l => match checks (d.checkPorts l ports (H.lockSet h) ++ checkMaps (devSec ss tyFAIL) mb fixed cache ++
        checkUnits cap mb maps fixed cache ++ d.checkProbes cap l ports probes ++ checkCode cache (devSec ss tyCODE)) with
      | .error f => .error f
      | .ok _ => .ok l

/-- The sections of a table read in order, inflated; `bytes`: the medium (R230). -/
def readSections (m : List Byte) (c : CatEntry) : Nat → List SecEntry → Except LoadFail (List Section)
  | _, [] => .ok []
  | i, e :: t =>
    match readEntry m c e.off e.stored with
    | none => .error (failEnd c)
    | some bs =>
      let raw := if !knownType e.typ then some bs else if bitN e.flags 0 then inflate bs e.raw else some bs
      match raw with
      | none => .error (failD 0x10A i)
      | some r =>
        if e.typ = tyHBM ∧ (hbmRecords (r.length + 1) r).isNone then .error (failD 0x105 i)
        else match readSections m c (i + 1) t with
          | .error f => .error f
          | .ok ss => .ok (⟨e.typ, e.flags, e.scope, r⟩ :: ss)

/-- The footer: magic and length, then the CRC over everything before it (R226). -/
def checkFooter (m : List Byte) (c : CatEntry) (total : Nat) : Except LoadFail Unit :=
  match readEntry m c 0 total with
  | none => .error (failEnd c)
  | some bs =>
    let f := bs.drop (total - 16)
    let crc := crc32c (bs.take (total - 16))
    checks [failIf (leAt f 0 4 != 0x444E454C || leAt f 8 8 != total) (failD 0x108 0), failIf (leAt f 4 4 != crc) (failD 0x109 crc)]

/-- Header and table of an entry, checked (R230). `bay`: for a bay image. -/
def Dev.readTable (d : Dev) (m : List Byte) (c : CatEntry) (bay : Option Nat) : Except LoadFail (List Byte × List SecEntry) :=
  match readEntry m c 0 256 with
  | none => .error (failEnd c)
  | some h => match d.checkHeader h c bay with
    | .error f => .error f
    | .ok _ => match readEntry m c 256 (32 * H.sections h) with
      | none => .error (failEnd c)
      | some tb => .ok (h, secTable tb (H.sections h))

/-- The sections of an entry up to its deep windows decide where the image cache lies; a failure of that placement comes
before the failure of any later section (R229, R230). -/
def placeCache (m : List Byte) (c : CatEntry) (t : List SecEntry) (mb : Nat) : Except LoadFail (Nat × Nat) :=
  let size := cacheSize t
  let deep : Except LoadFail (List Byte) := match t with
    | e :: _ => if e.typ = tyDEEP then (match readSections m c 0 [e] with
        | .ok (s :: _) => .ok s.raw
        | .ok [] => .ok []
        | .error f => .error f) else .ok []
    | [] => .ok []
  match deep with
  | .error f => .error f
  | .ok ws => match placeBelow spillBase size (deepRanges ws mb) with
    | none => .error (failD 0x13A 0)
    | some b => .ok (b, b + size)

/-- Sections of a table read in order up to the first that fails. -/
def readUpTo (m : List Byte) (c : CatEntry) : List SecEntry → List Section
  | [] => []
  | e :: t => match readSections m c 0 [e] with
    | .ok ss => ss ++ readUpTo m c t
    | .error _ => []

/-- The sections that an attempt at an entry streams, one that fails included; no section before the placement of the image cache
(R229, R230). -/
def Dev.streamed (d : Dev) (m : List Byte) (c : CatEntry) (mb : Nat) : List Section :=
  match d.readTable m c none with
  | .error _ => []
  | .ok (h, t) => match checkEarly h t, checkTable h t, placeCache m c t mb with
    | .ok _, .ok _, .ok _ => readUpTo m c t
    | _, _, _ => []

/-- Where the image cache of an entry lies; 0 for an entry that is not read so far. -/
def Dev.streamBase (d : Dev) (m : List Byte) (c : CatEntry) (mb : Nat) : Nat :=
  match d.readTable m c none with
  | .error _ => 0
  | .ok (_, t) => match placeCache m c t mb with
    | .error _ => 0
    | .ok b => b.1

/-- What one catalogue entry of a full image gives: the image, its loom, and the range of the image cache; or why it fails
(R230). -/
def Dev.tryEntry (d : Dev) (m : List Byte) (c : CatEntry) (mb : Nat) :
    Except LoadFail (Image × Loom × (Nat × Nat)) :=
  match d.readTable m c none with
  | .error f => .error f
  | .ok (h, t) => match checkEarly h t with
    | .error f => .error f
    | .ok _ => match checkTable h t with
      | .error f => .error f
      | .ok _ => match placeCache m c t mb with
        | .error f => .error f
        | .ok cache => match readSections m c 0 t with
          | .error f => .error f
          | .ok ss => match checkFooter m c (H.total h) with
            | .error f => .error f
            | .ok _ => match d.relocate mb ss with
              | .error f => .error f
              | .ok ss => match d.placeAndCheck h ss mb cache with
                | .error f => .error f
                | .ok l => .ok (⟨h, ss⟩, l, cache)

end Sys2Proof.Machine
end

