-- ==== Sys2Proof/Machine/Sched.lean ====
section
/-!
DEFINITION. The work scheduler (12 R370 to R375): work items, posting, dispatch, completion, triggers; and what trace
shows of a shuttle's privilege and sleep (15 R464, R466).
-/

namespace Sys2Proof.Machine

/-! ### Descriptors (R370) -/

def Desc.fld (x : BitVec 256) (hi lo : Nat) : Nat := bitsN x.toNat hi lo
def Desc.entry (x : BitVec 256) : Nat := Desc.fld x 63 0
def Desc.arg (x : BitVec 256) : Nat := Desc.fld x 127 64
def Desc.cls (x : BitVec 256) : Nat := Desc.fld x 143 128
def Desc.prio (x : BitVec 256) : Nat := Desc.fld x 146 144
def Desc.priv (x : BitVec 256) : Bool := bitN x.toNat 151
def Desc.affine (x : BitVec 256) : Bool := bitN x.toNat 152
def Desc.notify (x : BitVec 256) : Bool := bitN x.toNat 153
def Desc.count (x : BitVec 256) : Bool := bitN x.toNat 154
def Desc.clusters (x : BitVec 256) : Nat := Desc.fld x 175 160
def Desc.target (x : BitVec 256) : Nat := Desc.fld x 183 176
def Desc.counter (x : BitVec 256) : Nat := Desc.fld x 191 184
def Desc.chain (x : BitVec 256) : Nat := Desc.fld x 207 192

/-- The descriptor with PRIV as given. -/
def Desc.withPriv (x : BitVec 256) (p : Bool) : BitVec 256 :=
  BitVec.ofNat 256 (x.toNat - b2n (Desc.priv x) * 2 ^ 151 + b2n p * 2 ^ 151)

/-- No reserved bit is set (R370, R371): bits that a field's range does not use count as reserved. -/
def Desc.clean (x : BitVec 256) : Bool :=
  Desc.fld x 150 147 == 0 && Desc.fld x 159 155 == 0 && Desc.fld x 223 208 == 0 && Desc.target x < 128 &&
    Desc.counter x < 64 && (Desc.chain x < 256 || Desc.chain x == 0xFFFF)

/-! ### Shuttles that can run items -/

/-- Cluster c is FULL (R369, R379). -/
def Dev.full (d : Dev) (c : Nat) : Bool := (d.fld F.CLM_CFG_FULL).testBit c

/-- A shuttle that is not gated (R369; 14 R427). -/
def Dev.shActive (d : Dev) (s : Nat) : Bool :=
  s < 128 && !d.rel.badShuttle.contains s && !d.rel.badCluster.contains (s / 8) && (d.full (s / 8) || s % 8 < 4)

/-- CLUSTERS allows a shuttle. -/
def Desc.allows (x : BitVec 256) (s : Nat) : Bool := Desc.clusters x == 0 || (Desc.clusters x).testBit (s / 8)

/-- Active shuttles that a descriptor allows, ascending. -/
def Dev.eligible (d : Dev) (x : BitVec 256) : List Nat := (List.range 128).filter (fun s => d.shActive s && Desc.allows x s)

/-- A free shuttle: it holds no item (R372). The device runs (15 R453). -/
def Dev.shFree (d : Dev) (s : Nat) : Bool := d.shActive s && (d.sh s).item.isNone

/-! ### Posting (R371, R373, R374) -/

/-- The data of events 0x701 to 0x705 (R377). -/
def shData (s cause cls : Nat) : Nat := s % 128 + cause % 16 * 256 + cls % 65536 * 4096

/-- Items queued and not yet dispatched. -/
def Dev.occ (d : Dev) : Nat := d.hubd.sched.store.length

/-- The store is full for a new posting: held chains go first (R371, R373). -/
def Dev.storeFull (d : Dev) : Bool := 65536 ≤ d.occ + d.hubd.sched.held.length

/-- A free index of the store: which one the spec leaves open (assumption log 2). -/
def freeIndex (used : List Nat) (start : Nat) : Nat :=
  ((List.range 65536).map (fun i => (start + i) % 65536)).find? (fun i => !used.contains i) |>.getD 0

/-- An item put at the end of the store. -/
def Dev.queueItem (d : Dev) (x : BitVec 256) (firings : Nat) (trig : Option Nat) : Dev :=
  let used := d.hubd.sched.store.map Item.idx
  let it : Item := ⟨freeIndex used (Config.freeWord d.freeCtr).toNat, x, firings, trig, false⟩
  { d.onSched (fun s => { s with store := s.store ++ [it] }) with freeCtr := d.freeCtr + 1 }

/-- What a posting comes to. -/
inductive Posted where
  | posted
  | full
  | refused
  deriving DecidableEq, Repr

/-- A posting on behalf of shuttle s (0 where none is) (R371). -/
def Dev.post (d : Dev) (s : Nat) (x : BitVec 256) (firings : Nat) (trig : Option Nat) : Dev × Posted :=
  if !Desc.clean x ∨ (d.eligible x).isEmpty then (d.event bWSC 0 0x705 (shData s 0 (Desc.cls x)), .refused)
  else if d.storeFull then (d, .full)
  else (d.queueItem x firings trig, .posted)

/-- Template t (R370). -/
def Dev.template (d : Dev) (t : Nat) : BitVec 256 := SMap.get 0 d.hubd.sched.templates t

/-- The next source that has fired is acted on: its item is posted, or its FIRINGS or WSC_TRIG_PEND rises (R374). -/
def Dev.triggerFiring (d : Dev) : Dev :=
  match d.hubd.sched.fired with
  | [] => d
  | e :: t =>
    let d := d.onSched (fun s => { s with fired := t })
    let sat := fun (d : Dev) (n : Nat) => if n = 2 ^ 32 - 1 then d.setFld F.WSC_STATUS_TRIG_SAT 1 else d
    match d.hubd.sched.store.find? (fun i => i.trig == some e) with
    | some i =>
      sat (d.onSched (fun s => { s with store := s.store.map (fun x =>
        if x.trig == some e then { x with firings := satAdd 32 x.firings 1 } else x) })) i.firings
    | none =>
      let pend := d.fld (F.WSC_TRIG_PEND_COUNT.at e)
      if d.storeFull ∨ pend ≠ 0 then sat (d.setFld (F.WSC_TRIG_PEND_COUNT.at e) (satAdd 32 pend 1)) pend
      else (d.post 0 (d.template (d.fld (F.WSC_TRIG_LO_TEMPLATE.at e))) 1 (some e)).1

/-- An entry has freed: the oldest held chain is posted, or the pending firings of the lowest trigger entry (R373,
R374). -/
def Dev.heldPost (d : Dev) : Dev :=
  if 65536 ≤ d.occ then d
  else match d.hubd.sched.held with
  | x :: t => (d.onSched (fun s => { s with held := t })).queueItem x 0 none
  | [] =>
    match (List.range 64).find? (fun e => d.fld (F.WSC_TRIG_PEND_COUNT.at e) != 0) with
    | none => d
    | some e =>
      let n := d.fld (F.WSC_TRIG_PEND_COUNT.at e)
      ((d.setFld (F.WSC_TRIG_PEND_COUNT.at e) 0).post 0 (d.template (d.fld (F.WSC_TRIG_LO_TEMPLATE.at e))) n (some e)).1

/-- CANCEL of a class (R375). -/
def Dev.wscCancel (d : Dev) (cls : Nat) : Dev :=
  let gone := d.hubd.sched.store.filter (fun i => Desc.cls i.desc == cls % 65536)
  (d.onSched (fun s => { s with store := s.store.filter (fun i => Desc.cls i.desc != cls % 65536) })).setFld
    F.WSC_CMD_STATUS_REMOVED gone.length

/-- A write of WSC_POST_DATA: the next of 8 descriptor words (R379). -/
def Dev.wscPostData (d : Dev) (w : Word) : Dev :=
  d.onSched (fun s => if s.post.length < 8 then { s with post := s.post ++ [w] } else s)

/-- A write of WSC_POST_CMD by a master (R371, R379): words not written are 0; PRIV = 1 only with OWNER authority, and from a shuttle
ignored with 0x806 (01 R16). -/
def Dev.wscPost (d : Dev) (go owner : Bool) (mid : Nat) : Dev :=
  let x := BitVec.ofNat 256 (d.hubd.sched.post.foldr (fun w n => w.toNat + 2 ^ 32 * n) 0)
  let ignored := go && Desc.priv x && decide (mid < 128)
  let d := if ignored then d.access 0x806 mid R.WSC_POST_CMD else d.onSched (fun s => { s with post := [] })
  if !go || ignored then d
  else if Desc.priv x ∧ !owner then (d.event bWSC 0 0x705 (shData 0 0 (Desc.cls x))).setFld F.WSC_POST_STATUS_STATUS 3
  else
    let (d, r) := d.post 0 x 0 none
    d.setFld F.WSC_POST_STATUS_STATUS (match r with
      | .posted => 1
      | .full => 2
      | .refused => 3)

/-! ### Trace of privilege and sleep (15 R464, R466) -/

/-- STATE of a shuttle (R379): 0 GATED, 1 FREE, 2 RUNNING, 3 WAIT, 4 TRAPPED. -/
def Dev.shState (d : Dev) (s : Nat) : Nat :=
  let x := d.sh s
  if !d.shActive s then 0 else if x.item.isNone then 1 else if x.wait.isSome then 3 else if x.inTrap then 4 else 2

/-- The running item's index and class. -/
def Shuttle.itemIdx (x : Shuttle) : Nat := (x.item.map Item.idx).getD 0
def Shuttle.cls (x : Shuttle) : Nat := (x.item.map (fun i => Desc.cls i.desc)).getD 0

/-- The SYNC packet of a shuttle. -/
def Dev.traceSync (d : Dev) (s : Nat) : Dev :=
  let x := d.sh s
  d.traceSh s false tpSYNC (x.itemIdx + x.cls * 2 ^ 32 + b2n x.priv * 2 ^ 48 + d.shState s * 2 ^ 56)

/-- The shuttle's privilege set; entering FIRMWARE hides it, returning to KERNEL shows it with SYNC, unless FW_VIS is 1
(15 R464). -/
def Dev.setPriv (d : Dev) (s : Nat) (fw : Bool) : Dev :=
  let d := d.onSh s (fun x => { x with priv := fw })
  if d.fld F.TRC_CTL_FW_VIS = 1 then d.onSh s (fun x => { x with hidden := false })
  else if fw ∧ !(d.sh s).hidden then (d.traceSh s false tpHIDE 0).onSh s (fun x => { x with hidden := true })
  else if !fw ∧ (d.sh s).hidden then (d.onSh s (fun x => { x with hidden := false })).traceSync s
  else d

/-- The clock of a WAITing shuttle stops once its cluster's FIFO has drained: SLEEP (15 R466). -/
def Dev.sleepCheck (d : Dev) (c : Nat) : Dev :=
  (List.range 8).foldl (fun d i =>
    let s := 8 * c + i
    let x := d.sh s
    if x.wait.isSome ∧ !x.slept ∧ (SMap.get [] d.hubd.trc.fifo c).isEmpty ∧ !d.hubd.trc.owed.any (fun y => y.1 == c) then
      (d.onSh s (fun x => { x with slept := true })).traceSh s true tpSLEEP 1
    else d) d

/-! ### Dispatch (R371, R372) -/

/-- The shuttle that an item may go to now, if any (R372). -/
def Dev.shuttleFor (d : Dev) (i : Item) : Option Nat :=
  let lowest := (d.eligible i.desc).find? d.shFree
  let aff := SMap.get 0 d.hubd.sched.affine (Desc.cls i.desc)
  if Desc.affine i.desc ∧ aff ≠ 0 ∧ !i.aged ∧ d.shActive (aff - 1) ∧ Desc.allows i.desc (aff - 1) then
    (if d.shFree (aff - 1) then some (aff - 1) else none)
  else lowest

/-- The item that is dispatched next, with its place in the store and its shuttle: highest priority first, in order of
posting (R372). -/
def Dev.nextItem (d : Dev) : Option (Nat × Item × Nat) :=
  (List.range 8).reverse.findSome? (fun p => (List.range d.occ).findSome? (fun n =>
    match d.hubd.sched.store[n]? with
    | none => none
    | some i => if Desc.prio i.desc = p then (d.shuttleFor i).map (fun s => (n, i, s)) else none))

/-- Cycles of 0.5 ns of the shuttles' clock (12 R358): two in a TIME cycle. -/
def Dev.shCycles (d : Dev) : BitVec 64 := BitVec.ofNat 64 (2 * d.nowNs)

/-- A queued item is dispatched to a free shuttle (R371, R372); not while the device enters, holds or leaves LOW (15
R453). -/
def Dev.itemDispatch (d : Dev) : Dev :=
  match (if d.fld F.PWR_STATUS_DEV = 0 ∧ d.plat.trans = 0 then d.nextItem else none) with
  | none => d
  | some (n, i, s) =>
    let d := d.onSched (fun q => { q with store := q.store.eraseIdx n })
    let g : SMap (BitVec 64) := [(1, BitVec.ofNat 64 (Desc.arg i.desc)), (2, BitVec.ofNat 64 i.firings),
      (3, BitVec.ofNat 64 i.idx)].foldl (fun m e => SMap.put 0 m e.1 e.2) []
    let d := d.onSh s (fun x => { x with
      g := g, pc := BitVec.ofNat 64 (Desc.entry i.desc), acc := [], ofs := [], ovf := 0
      cwItem := BitVec.ofNat 64 i.idx, cyc0 := d.shCycles, cwClass := BitVec.ofNat 64 (Desc.cls i.desc), item := some i, fresh := false
      inTrap := false, wait := none, slept := false })
    let d := { d with ldr := { d.ldr with code := true } }
    (d.setPriv s (Desc.priv i.desc)).traceSh s false tpDISPATCH
      (i.idx + Desc.cls i.desc * 2 ^ 32 + bitsN i.desc.toNat 151 144 * 2 ^ 48)

/-- The item at the head of a level is affine and has waited AGE there (R372). -/
def Dev.ageExpiry (d : Dev) (level : Nat) : Dev :=
  match d.hubd.sched.store.findIdx? (fun i => Desc.prio i.desc == level) with
  | none => d
  | some n =>
    match d.hubd.sched.store[n]? with
    | none => d
    | some i =>
      if !Desc.affine i.desc ∨ i.aged ∨ (d.shuttleFor i).isSome then d
      else d.onSched (fun q => { q with store := q.store.set n { i with aged := true } })

/-! ### Completion (R373) -/

/-- An item ends DONE or FAULTED: counter, event flag, chain, then the shuttle is free. Its stores are visible before
(R373). -/
def Dev.complete (d : Dev) (s : Nat) (faulted : Bool) : Dev :=
  match (d.sh s).item with
  | none => d
  | some i =>
    let x := i.desc
    let d := d.traceSh s true tpCOMPLETE (i.idx + Desc.cls x * 2 ^ 32 + b2n faulted * 2 ^ 48)
    let d := if Desc.count x then d.addFld (F.WSC_CNT_COUNT.at (Desc.counter x)) 1 else d
    let d := if Desc.notify x then d.onSh (Desc.target x) (fun t => { t with evt := true }) else d
    let d := if faulted ∨ Desc.chain x = 0xFFFF then d
      else
        let t := d.template (Desc.chain x)
        if !Desc.clean t ∨ (d.eligible t).isEmpty then d.event bWSC 0 0x705 (shData s 0 (Desc.cls t))
        else if d.storeFull then d.onSched (fun q => { q with held := q.held ++ [t] })
        else d.queueItem t 0 none
    let d := (d.addFld (F.SHT_ITEMS_COUNT.at s) 1).onSched (fun q => { q with affine := SMap.put 0 q.affine (Desc.cls x) (s + 1) })
    d.onSh s (fun t => { t with item := none, inTrap := false, fresh := false, wait := none, slept := false })

end Sys2Proof.Machine
end

