-- ==== Sys2Proof/Machine/Treadle.lean ====
section
/-!
DEFINITION. The treadle's commands and slots (06 R157 to R173), weave starts and recoveries (06 R183 to R188; 10 R302; 16
R479), halt inputs.
-/

namespace Sys2Proof.Machine

/-! ### Slots (06 R160, R161, R163) -/

/-- The first value S_0 + k * PERIOD whose signed difference from T is 0 or more; `n` bounds the search. -/
def anchorFrom : Nat → Word → Word → Word → Word
  | 0, s, _, _ => s
  | n + 1, s, p, t => if 0 ≤ sgn 32 (s - t).toNat then s else anchorFrom n (s + p) p t

/-- The first slot start from s on that does not lie before T (06 R160). The search jumps whole periods first: every step adds PERIOD. -/
def gridFrom (s p t : Word) : Word :=
  let behind := (-(sgn 32 (s - t).toNat)).toNat
  let k := if p = 0 then 0 else (behind + p.toNat - 1) / p.toNat
  anchorFrom 2 (if sgn 32 (s - t).toNat < 0 then s + BitVec.ofNat 32 (k * p.toNat) else s) p t

/-- The grid anchored on T (06 R160). Of a T that has passed, the slot starts that have passed with it are behind: the next slot start is
the first at which the conditions can hold (06 R164). -/
def Dev.anchor (d : Dev) (t : Word) : Dev :=
  let p := d.reg R.TRD_PERIOD
  d.onTrd (fun r => { r with
    gridOn := true, nextSlot := gridFrom (gridFrom (d.reg R.TRD_FIRST) p t) p d.tb.tb, slotReached := false, tStart := t })

/-- The grid is interrupted: by an image load, WRST_N, or a change of MODE, PERIOD or FIRST (06 R160). -/
def Dev.gridStop (d : Dev) : Dev := d.onTrd (fun r => { r with gridOn := false, slotReached := false, inSlot := false })

/-- A slot passes without a release: HOLD frames, counted (06 R161, R163). -/
def Dev.skipSlot (d : Dev) : Dev :=
  (d.holdNamed.addFld F.TRD_HOLD_CNT_COUNT 1).onTrd (fun r => { r with skipped := r.skipped + 1, slotReached := false })

/-- OVR_ACT = FAULT at the end of a beat's slot, unless a throttle imposes STRETCH (06 R163). -/
def Dev.overrunFault (d : Dev) : Dev :=
  if d.trd.inSlot ∧ d.trd.skipped = 1 ∧ d.fld F.TRD_CTL_OVR_ACT = 1 ∧ d.fld F.TRD_STATUS_FSTRETCH = 0 then
    (d.setFld F.TRD_EVENTS_OVERRUN 1).requestHalt 4
  else d

/-- A slot start is reached (06 R160, R161, R163; 09 R272). -/
def Dev.slotStart (d : Dev) : Dev :=
  if !(d.trd.gridOn && d.fld F.TRD_CTL_MODE == 1 && d.reached d.trd.nextSlot) then d
  else
    let s := d.trd.nextSlot
    let d := d.noteReady
    let d := d.onTrd (fun r => { r with nextSlot := s + d.reg R.TRD_PERIOD })
    if d.ts = tsWaiting ∧ d.unmet6 = 0 then d.onTrd (fun r => { r with slotReached := true })
    else if d.ts = tsWaiting ∨ d.ts = tsBeat then d.skipSlot.overrunFault
    else if d.ts = tsStarting ∧ 0 ≤ sgn 32 (s - d.trd.tStart).toNat ∧ d.unmet ∈ [0, 7] then
      d.onTrd (fun r => { r with slotReached := true })
    else d.holdNamed

/-! ### START, STOP, CANCEL (06 R171) -/

/-- Named lanes not in L0 in both directions, or lock-set lanes whose receiver sleeps (06 R167; 09 R283). -/
def Dev.lanesAsleep (d : Dev) : Bool :=
  d.namedLanes.any (fun l => d.lanePwr (d.phys l) != 0) ||
    (d.pinLocked && (List.range 128).any (fun ph => d.locked ph && d.lanePwr ph % 4 / 2 == 1))

/-- A required link is not in use, or the STATUS frames report a leader at more than one position (10 R300). -/
def Dev.linksUnfit (d : Dev) : Bool :=
  d.usedLinks.any (fun l => !d.linkInUse (d.physLink l)) ||
    1 < (((d.usedLinks.map d.physLink).filter (fun p => (d.link p).nbrRole == roLeader)).map (fun p =>
      d.fld (F.WFT_LINK_STATUS_NBR.at p))).eraseDups.length + b2n (d.role == roLeader)

/-- Why a START is refused; 0: it is not (06 R171, R165, R167, R180, R191; 07 R208; 09 R283; 10 R300). `peer`: from the
leader of the weave. Arming is checked after these. -/
def Dev.startRefusal (d : Dev) (peer : Bool) : Nat :=
  let mode := d.fld F.TRD_CTL_MODE
  if (d.ts ≠ tsArmed ∧ d.ts ≠ tsHalted) ∨ d.trd.recovery ≠ 0 then 1
  else if d.trd.haltLow ∨ d.trd.parkLow then 5
  else if d.role = roMember ∧ !peer then 3
  else if mode = 3 ∨ (mode = 1 ∧ d.fld F.TRD_PERIOD_PERIOD < 50) ∨ (mode = 2 ∧ d.fld F.TRD_PIN_CFG_LAG = 0) then 8
  else if d.lanesAsleep then 1
  else if d.inWeave ∧ d.linksUnfit then 4
  else if d.inWeave ∧ mode = 1 ∧ d.fld F.PTP_STATUS_LOCKED = 0 then 6
  else 0

/-- The positions of the other members. -/
def Dev.others (d : Dev) : List Nat := (List.range d.weaveSize).filter (· != d.position)

/-- Peer commands to several positions. -/
def Dev.peerEach (d : Dev) (ps : List Nat) (cmd args : Nat) : Dev := ps.foldl (fun d p => d.peerSend p false cmd args) d

/-- The leader compares the settings with every member (06 R183). -/
def Dev.weaveCompare (d : Dev) : Dev :=
  let left := d.others.flatMap (fun p => [1, 2, 3, 4].map (fun i => (p, i)))
  let d := { d with weft := { d.weft with asked := [] } }
  let d := [1, 2, 3, 4].foldl (fun d i => d.peerEach d.others 1 i) d
  { d with weft := { d.weft with start := .compare left d.others none } }

/-- STARTING is left without a release: back to where the START came from (06 R158). -/
def Dev.startBack (d : Dev) (reason : Nat) (refused : Bool) : Dev :=
  let d := (d.setTs (if d.trd.fromHalted then tsHalted else tsArmed)).cmdStatus 1 (if refused then 4 else 3) reason
  (({ d with weft := { d.weft with start := .idle } }).onTrd (fun r => { r with
    timed := false, slotReached := false, recovery := 0, soloDue := false })).bayLeave

/-- The leader refuses its START on every device (16 R479); with reason 4 it writes event 0x235 (06 R183). -/
def Dev.weaveRefuse (d : Dev) (reason : Nat) : Dev :=
  ((if reason = 4 then d.event bTRD 0 0x235 0 else d).peerSend 0 true 3 reason).startBack reason true

/-- The peer START to a member whose settings agree (06 R183; 10 R302; assumption log 10). -/
def Dev.startMember (d : Dev) (p : Nat) : Dev := d.peerSend p false 2 (b2n d.weft.startTimed + d.weft.startT.toNat * 2 ^ 32)

/-- What is known of refusals once one more member has answered the peer START: the lowest position that refuses decides (16 R479). Reason
4, a required link that is not in use, does not come here: it ends the START at once (10 R300; 16 R482; assumption log 10). -/
def refusals (r : Option (Nat × Nat)) (src reason : Nat) : Option (Nat × Nat) :=
  if reason = 0 then r else match r with
    | some x => if src < x.1 then some (src, reason) else some x
    | none => some (src, reason)

/-- Every member has accepted or refused (06 R188; 16 R479). -/
def Dev.acceptDone (d : Dev) (refused : Option (Nat × Nat)) : Dev :=
  match refused with
  | some x => d.weaveRefuse x.2
  | none =>
    if d.trd.fromHalted then
      ({ d.peerEach d.others 1 0 with weft := { (d.peerEach d.others 1 0).weft with start := .counts d.others [] } })
    else { d with weft := { d.weft with start := .ready } }

/-- Every count is read: SOLO for the members one beat behind, or no recovery (06 R188). A leader that is behind runs its SOLO beat first,
from HALTED (06 R158; assumption log 10). -/
def Dev.countsDone (d : Dev) (got : List (Nat × Nat)) : Dev :=
  let all := got.map Prod.snd
  let m := all.foldl max d.loom.beat
  if all.any (fun c => c != m && c + 1 != m) || (d.loom.beat != m && d.loom.beat + 1 != m) then
    d.recoveryFails
  else
    let behind := (got.filter (fun x => x.2 + 1 == m)).map Prod.fst
    let d := d.peerEach behind 5 (m - 1)
    let d := { d with weft := { d.weft with start := .solo m behind } }
    if d.loom.beat + 1 = m then ((d.setTs tsHalted).onTrd (fun t => { t with soloDue := true })).soloRelease
    else (d.setTs tsStarting).soloSettle

/-- The phase of the leader's START moves on when nothing is left to answer. -/
def Dev.weaveStep (d : Dev) : Dev :=
  match d.weft.start with
  | .compare [] left r => { d with weft := { d.weft with start := .accept left r } }
  | .accept [] r => d.acceptDone r
  | .counts [] got => d.countsDone got
  | _ => d

/-- The phases that have nobody to wait for are passed at once. -/
def Dev.weaveSettle (d : Dev) : Dev := ((d.weaveStep).weaveStep).weaveStep

/-- The device holds a commit marker of a beat that it has not committed: it is a beat behind (06 R184, R188). -/
def Dev.behind (d : Dev) : Bool := d.weft.marks.any (fun x => d.loom.beat < x.2)

/-- A START that meets R171 is checked for arming, and then accepted (06 R160, R164, R165, R175, R188). `t`: the leader's
T for a peer START; `timed`: T lies ahead. In a recovery a device that knows itself a beat behind stays HALTED until its SOLO beat is
behind it, because the treadle enters SOLO from HALTED alone (06 R158; assumption log 10). -/
def Dev.startAccept (d : Dev) (timed : Bool) (t : Word) : Dev :=
  let from' := d.ts == tsHalted
  let late := timed && d.tooLate t
  let d := d.cmdStatus 1 1 0
  let wait := from' && d.inWeave && d.behind
  let d := (if wait then d else d.setTs tsStarting).onTrd (fun r => { r with
    fromHalted := from', tStart := t, timed := timed && !late, stopPend := false, soloDue := false
    recovery := if from' && d.inWeave then 1 else 0 })
  let d := if late then d.late else d
  let d := if d.fld F.TRD_CTL_MODE = 1 ∧ (!from' || !d.trd.gridOn) then d.anchor t else d
  if d.role = roLeader then
    ({ d with weft := { d.weft with startT := t, startTimed := timed } }).weaveCompare.weaveSettle
  else d

/-- The reason a START is refused with, arming included; the need is computed at every START (06 R165, R171). A member that refuses with
reason 4 writes event 0x235 when the leader's REFUSE reaches it, as every member does (06 R183). -/
def Dev.startDecide (d : Dev) (peer timed : Bool) (t : Word) : Dev × Nat :=
  let d := d.armCompute
  let r := d.startRefusal peer
  if r ≠ 0 then
    let d := if r = 4 ∧ !peer then d.event bTRD 0 0x235 0 else d
    let d := if r = 4 ∧ d.role = roLeader then d.peerSend 0 true 3 4 else d
    (d.cmdStatus 1 4 r, r)
  else if d.fld F.TRD_CTL_MODE = 1 ∧ !d.arm.2 then ((d.armFail false).cmdStatus 1 4 2, 2)
  else (d.startAccept timed t, 0)

/-- The panels of mapped beams begin to wake for a START (15 R449, R451). -/
def Dev.wakeMapped (d : Dev) : Dev := d.wakePanels ((List.range 4).filter d.panelHolds) 0

/-- START (06 R171). With a panel of mapped beams asleep the panel wakes first (15 R449). -/
def Dev.start (d : Dev) (timed : Bool) : Dev :=
  if (d.ts = tsArmed ∨ d.ts = tsHalted) ∧ !d.panelsAwake then
    (d.wakeMapped.onTrd (fun r => { r with startOwed := some (timed, none) })).cmdStatus 1 1 0
  else (d.startDecide false timed (if timed then d.reg R.TRD_START_AT else d.tb.tb)).1

/-- A release that falls due in the TIME cycle of a STOP or CANCEL comes first: completion wins (06 R171). -/
def Dev.dueRelease (d : Dev) : Dev := if (d.ts = tsWaiting ∨ d.ts = tsStarting) ∧ d.unmet = 0 then d.releaseBeat tsBeat else d

/-- STOP (06 R171). At the leader of a weave a STOP in STARTING ends its own START and no member's (assumption log 10). -/
def Dev.stop (d : Dev) : Dev :=
  let d := d.dueRelease
  if d.ts = tsStarting then (d.startBack 0 false).cmdStatus 2 2 0
  else if d.ts = tsBeat ∨ d.ts = tsWaiting then
    ((d.cmdStatus 2 1 0).onTrd (fun r => { r with stopPend := true })).requestHalt 1
  else d.cmdStatus 2 4 1

/-- CANCEL (06 R171). -/
def Dev.cancel (d : Dev) : Dev :=
  let d := d.dueRelease
  if d.ts = tsStarting then (d.startBack 0 false).cmdStatus 3 2 0 else d.cmdStatus 3 4 1

/-- A timed START whose T the time base has reached (06 R175). -/
def Dev.timedStart (d : Dev) : Dev :=
  if (d.ts = tsStarting ∨ d.trd.recovery ≠ 0) ∧ d.trd.timed ∧ d.reached d.trd.tStart then d.onTrd (fun r => { r with timed := false }) else d

/-- A timed warp frame whose T the time base has reached (06 R175; 09 R284). -/
def Dev.timedMsg (d : Dev) (e : Nat) : Dev :=
  if (d.msg e).wait ∧ d.reached (d.reg (instKey R.WRP_MSG_AT e)) then d.msgLaunch e else d

/-- The time base reaches the time of a launch: of message entry e, or of the START (06 R175). -/
def Dev.timedLaunch (d : Dev) (e : Option Nat) : Dev := match e with
  | none => d.timedStart
  | some e => if e < 16 then d.timedMsg e else d

/-! ### Halt inputs (06 R172) -/

/-- HALT_N is low for 20 ns (06 R172). -/
def Dev.haltFall (d : Dev) : Dev :=
  let d := d.slotMissed
  (d.onTrd (fun r => { r with haltLow := true })).requestHalt 2

/-- HALT_N returns high. -/
def Dev.haltRise (d : Dev) : Dev := (d.onTrd (fun r => { r with haltLow := false })).noteReady

/-- The release waits on responses for longer than TIMEOUT (06 R168). -/
def Dev.pinTimeout (d : Dev) : Dev :=
  match d.lockMissing with
  | none => d
  | some ph =>
    if (d.ts = tsWaiting ∨ d.ts = tsStarting) ∧ d.unmet6 = 0 then
      ((d.setFld F.TRD_EVENTS_PIN_TO 1).event bTRD 0 0x233 (ph % 128)).alert alPin
    else d

/-! ### Weave starts and recoveries (06 R183, R187, R188; 10 R302; 16 R479) -/

/-- The value that a QUERY item returns, as 8 bytes (10 R302). -/
def Dev.queryItem (d : Dev) (item : Nat) : Nat :=
  if item = 0 then d.loom.beat % 2 ^ 48 + d.ts * 2 ^ 56
  else if item = 1 then (d.reg R.LDR_IMAGE_ID_LO).toNat + (d.reg R.LDR_IMAGE_ID_HI).toNat * 2 ^ 32
  else if item = 2 then (d.reg R.TRD_CTL).toNat
  else if item = 3 then (d.reg R.TRD_PERIOD).toNat
  else if item = 4 then (d.reg R.TRD_FIRST).toNat
  else 0

/-- A QUERY of the leader is answered (10 R302). -/
def Dev.query (d : Dev) (src tag item : Nat) : Dev := d.peerReply src 1 tag (d.queryItem item)

/-- The reason with which a member answers a peer START. -/
def Dev.peerStart (d : Dev) (src tag : Nat) (timed : Bool) (t : Word) : Dev :=
  if d.role ≠ roMember then d
  else if (d.ts = tsArmed ∨ d.ts = tsHalted) ∧ !d.panelsAwake then
    (d.wakeMapped.onTrd (fun r => { r with startOwed := some (timed, some (src, tag, t)) })).cmdStatus 1 1 0
  else
    let (d, r) := d.startDecide true timed t
    d.peerReply src 2 tag r

/-- A START that waited for a panel's wake is decided (15 R449; 16 R479). -/
def Dev.startAfterWake (d : Dev) : Dev :=
  match d.trd.startOwed with
  | none => d
  | some x =>
    if !d.panelsAwake then d
    else
      let d := d.onTrd (fun r => { r with startOwed := none })
      match x.2 with
      | none => d.start x.1
      | some y => d.peerStart y.1 y.2.1 x.1 y.2.2

/-- REFUSE of the leader ends a pending START (10 R302). Weave settings that differ refuse it on every device, with event 0x235, also
where no START is pending, be it for want of an image (06 R183, R189). -/
def Dev.refuse (d : Dev) (reason : Nat) : Dev :=
  if d.role ≠ roMember then d
  else
    let d := if reason = 4 then d.event bTRD 0 0x235 0 else d
    if d.ts = tsStarting ∨ d.trd.recovery ≠ 0 then d.startBack reason true
    else if d.trd.startOwed.isSome then (d.onTrd (fun r => { r with startOwed := none })).cmdStatus 1 4 reason
    else if reason = 4 then d.cmdStatus 1 4 4
    else d

/-- A halt notice of another member (06 R187, R188). -/
def Dev.haltNote (d : Dev) : Dev :=
  match d.weft.start with
  | .solo _ _ => if d.role = roLeader then d.recoveryFails else d.requestHalt 5
  | _ => d.requestHalt 5

/-- SOLO: a halted member releases the catch-up beat at once, against its frozen windows (06 R158, R188). One that the recovery's START has
taken to STARTING is HALTED for it again (assumption log 10). -/
def Dev.solo (d : Dev) (beat : Nat) : Dev :=
  if d.role = roMember ∧ (d.ts = tsHalted ∨ (d.ts = tsStarting ∧ d.trd.recovery ≠ 0)) ∧ beat = d.loom.beat % 2 ^ 48 then
    let d := if d.ts = tsStarting then d.setTs tsHalted else d
    (d.onTrd (fun t => { t with soloDue := true })).soloRelease
  else d

/-- A reply of a member reaches the leader (10 R302; 16 R479). -/
def Dev.peerAnswer (d : Dev) (src cmd tag args : Nat) : Dev :=
  match d.weft.asked.find? (fun a => a.1 == tag && a.2.1 + 128 == cmd && (a.2.2.2 == src || a.2.2.2 == 255)) with
  | none => d
  | some a =>
    let d := if a.2.2.2 = 255 then d else { d with weft := { d.weft with asked := d.weft.asked.erase a } }
    match d.weft.start with
    | .compare left acc r =>
      if cmd = 0x82 then
        if args % 256 = 4 then d.weaveRefuse 4
        else { d with weft := { d.weft with start := .compare left (acc.erase src) (refusals r src (args % 256)) } }
      else if cmd ≠ 0x81 then d
      else if args ≠ d.queryItem a.2.2.1 then d.weaveRefuse 4
      else
        let rest := left.erase (src, a.2.2.1)
        let d := if rest.any (fun x => x.1 == src) then d else d.startMember src
        ({ d with weft := { d.weft with start := .compare rest acc r } }).weaveSettle
    | .accept left r =>
      if cmd ≠ 0x82 then d
      else if args % 256 = 4 then d.weaveRefuse 4
      else ({ d with weft := { d.weft with start := .accept (left.erase src) (refusals r src (args % 256)) } }).weaveSettle
    | .counts left got =>
      if cmd ≠ 0x81 ∨ a.2.2.1 ≠ 0 then d
      else ({ d with weft := { d.weft with start := .counts (left.erase src) (got ++ [(src, args % 2 ^ 48)]) } }).weaveSettle
    | _ => d

end Sys2Proof.Machine
end

