-- ==== Sys2Proof/Machine/Load.lean ====
section
/-!
DEFINITION. The load of an image (08 R221, R229 to R240): LOAD, the attempt at a catalogue entry, the write step, ABORT.
-/

namespace Sys2Proof.Machine

/-- The loader changed. -/
def Dev.onLdr (d : Dev) (f : Loader → Loader) : Dev := { d with ldr := f d.ldr }

/-- The event of R210 in progress, as LDR_STATUS.STAGE shows it. -/
def Dev.setStage (d : Dev) (n : Nat) : Dev :=
  ({ d with plat := { d.plat with stage := n } }).setFld F.LDR_STATUS_STAGE n

/-- LDR_CMD_STATUS (R248). -/
def Dev.ldrCmd (d : Dev) (cmd status reason : Nat) : Dev :=
  ((d.setFld F.LDR_CMD_STATUS_CMD cmd).setFld F.LDR_CMD_STATUS_STATUS status).setFld F.LDR_CMD_STATUS_REASON reason

/-- The level of the DONE pin (R232). -/
def Dev.donePin (d : Dev) : Dev := d.setFld F.LDR_DONE_PIN (b2n (!(d.plat.doneLow || d.plat.doneOther)))

/-- This device drives DONE low, or releases it; the weave hears of a change (R232, 10 R301). -/
def Dev.driveDone (d : Dev) (low : Bool) : Dev :=
  let changed := d.plat.doneLow != low
  let d := ({ d with plat := { d.plat with doneLow := low } }).setFld F.LDR_DONE_RELEASED (b2n (!low))
  let d := if low then (d.setFld F.LDR_DONE_SEEN 0).setFld F.LDR_DONE_START_PEND 0 else d
  let d := d.donePin
  if changed then d.ownDone (!low) else d

/-- Every instance of the registers named is at its reset value again. -/
def Dev.clearCounters (d : Dev) (ks : List Nat) : Dev :=
  { d with regs := d.regs.filter (fun e => !ks.contains (e.1 % 0x1000000)) }

/-- The counters that an image load clears (02 R59, 04 R122, R124, 05 R145, R155, 06 R190, 09 R289, 10 R323, 11 R351,
12 R379). -/
def loadClears : List Nat :=
  [R.LOM_RETRY_CNT, R.LOM_REBUILD_CNT, R.LOM_REPAIR_CNT, R.DRW_CONT_CNT, R.DRW_CONT_BEAM, R.DRW_CONT_LAST, R.LRG_DISCARD_CNT,
    R.HBM_SPILL_CNT, R.CLM_MBX_COLL, R.TRD_OVR_CNT, R.TRD_HOLD_CNT, R.TRD_TOKEN_LATE_CNT, R.WRP_LANE_ERR, R.WRP_LANE_PRBS_ERR,
    R.WFT_LINK_ERR, R.ETH_RX_DROP, R.SHT_ITEMS, R.SHT_TRAPS, R.SHT_STATUS, R.WSC_CNT, R.CLM_STARVE_CNT, R.FMP_REC_CNT,
    R.FMP_NEWBITS, R.FMP_FIRST_BEAT, R.FMP_FIRST_ADDR, R.FMP_RANGE_CNT]

/-- Registers that show the loaded image, and are 0 without one (R248, 07 R208). -/
def imageRegs : List Nat :=
  [R.LOM_DEPTH, R.DRW_HCFG, R.LDR_CACHE_BASE, R.LDR_CACHE_SIZE, R.LDR_IMAGE_ID_LO, R.LDR_IMAGE_ID_HI, R.LDR_BAY_STATUS,
    R.FMP_DESC, R.FMP_BASE, R.LDR_BMAP]

/-- The model state is discarded: no image (R230, R236; 06 R158, R160). Captures end (11 R340). The bank of a first beat is
0 (02 R32, DEDUCED, log 14). -/
def Dev.dropModel (d : Dev) : Dev :=
  let d := d.commitWrites.capAbortAll
  let d := d.gridStop.setTs tsIdle
  let l := d.loom
  let d := (d.clearCounters imageRegs).setFld F.LOM_STATUS_BANK 0
  { d with
    loom := { Loom.empty with hashMode := l.hashMode, hashSeed := l.hashSeed, occ := l.occ, occLast := l.occLast, occRun := l.occRun }
    trd := { Treadle.empty with haltLow := d.trd.haltLow, parkLow := d.trd.parkLow, armA := d.trd.armA, armB := d.trd.armB }
    cap := { Cap.empty with deskew := d.cap.deskew }
    rel := { d.rel with roll := [], grant := 0, stepWord := none }
    warp := { d.warp with mapped := false, ports := [],
                          lanes := d.warp.lanes.map (fun x => (x.1, { x.2 with resps := [], frozen := none, fresh := false })) }
    weft := { d.weft with marks := [], tokens := [], fwdMark := [], start := .idle, owed := none
                          links := d.weft.links.map (fun x => (x.1, { x.2 with barrier := 0, early := [] })) }
    ldr := { d.ldr with cache := none, bay := none, replace := none, doneNew := false, code := false } }

/-- HBM is cleared to 0, and every granule's check bits with it (R229, 05 R148). -/
def Dev.clearHbm (d : Dev) : Dev :=
  { (d.clearMem 0 hbmEnd).occRange 0 hbmEnd with chk := d.chk.filter (fun e => hbmEnd ≤ e.1), bad := d.bad.filter (fun e => hbmEnd ≤ e.1) }

/-- A load starts (R221, R230): the model is discarded, DONE driven low, ALERT_N released but for a PLL (R236). The hash
registers take effect (05 R148). -/
def Dev.beginLoad (d : Dev) (boot : Bool) (slot : Nat) : Dev :=
  let d := if d.trd.startOwed.isSome then d.cmdStatus 1 4 1 else if d.trd.recovery ≠ 0 then d.cmdStatus 1 3 0 else d
  let d := (d.dropModel).driveDone true
  let d := [alHalt, alPin, alDone, alLoad].foldl Dev.unalert d
  let d := if boot then d else d.clearHbm
  let d := d.onLoom (fun l => { l with
    hashMode := d.fld F.HBM_HASH_CTL_MODE, hashSeed := (d.reg R.HBM_HASH_SEED).toNat })
  let e := if (d.catEntry slot 0).isSome then 0 else 1
  let d := ((d.setFld F.LDR_STATUS_STATE 1).setFld F.LDR_STATUS_SLOT slot).setFld F.LDR_STATUS_ENTRY e
  let d := (d.setReg R.LDR_PROGRESS 0).setStage 9
  d.onLdr (fun r => { r with load := some ⟨boot, slot, e, 1, 0, none, d.fld F.LDR_MODEL_BASE_BASE * 256, false⟩ })

/-- A slot with an entry in use (R219). -/
def Dev.slotUsed (d : Dev) (slot : Nat) : Bool := (d.catEntry slot 0).isSome || (d.catEntry slot 1).isSome

/-- LOAD (R221). A slot that holds no entry is refused with reason 2, 0xFF with it (assumption log 14). -/
def Dev.loadCmd (d : Dev) (slot : Nat) : Dev :=
  if d.ldr.load.isSome ∨ !(d.ts = tsIdle ∨ d.ts = tsArmed ∨ d.ts = tsHalted) ∨ !d.plat.hbmReady then d.ldrCmd 1 4 1
  else if !d.slotUsed slot then d.ldrCmd 1 4 2
  else (d.ldrCmd 1 1 0).beginLoad false slot

/-- The data field of a load event (R240). -/
def loadData (x : LoadSt) (f : LoadFail) : Nat :=
  if 0x131 ≤ f.code ∧ f.code ≤ 0x139 then f.data else f.data + x.entry % 2 * 256 + x.slot % 256

/-- No entry of the slot succeeded (R238). -/
def Dev.loadFailed (d : Dev) (x : LoadSt) (code : Nat) : Dev :=
  let d := ((d.loadEvent 0x112 (loadData x ⟨0x112, 0⟩)).setFld F.LDR_STATUS_CODE code).setFld F.LDR_STATUS_STATE 3
  ((d.onLdr (fun r => { r with load := none, code := false })).alert alLoad).ldrCmd 1 5 0

/-- An entry fails: its event, event 0x110, and the next entry, for which HBM is cleared again but at start-up, or R238 (R221, R230,
R237). -/
def Dev.entryFailed (d : Dev) (x : LoadSt) (f : LoadFail) : Dev :=
  let d := d.clearCounters [R.LDR_CACHE_BASE, R.LDR_CACHE_SIZE]
  let d := (d.loadEvent f.code (loadData x f)).loadEvent 0x110 (loadData x ⟨0x110, f.code % 0x1000 * 2 ^ 16⟩)
  if x.entry = 0 ∧ (d.catEntry x.slot 1).isSome then
    let d := if x.boot then d else d.clearHbm
    ((d.setFld F.LDR_STATUS_ENTRY 1).setStage 9).onLdr (fun r => { r with
      load := some { x with entry := 1, step := 1, retries := 0, ready := none } })
  else d.loadFailed x f.code

/-- Bytes read of an entry when its attempt ends (R248): the event says how far it came. -/
def bytesRead (m : List Byte) (c : CatEntry) (o : Option LoadFail) : Nat :=
  let sect := 256 + 32 * H.sections m
  let all := min (H.total m) (c.sectors * 512)
  match o with
  | none => all
  | some f => if f.code = 0x107 then c.sectors * 512 else if f.code < 0x105 then 256
    else if f.code = 0x105 ∨ (f.code = 0x135 ∧ leAt m 252 4 = crc32c (m.take 252)) then min sect all else all

/-- Physical beams of the image's mapped beams have their panels awake (15 R449). -/
def Dev.loomAwake (d : Dev) (l : Loom) : Bool := l.mappedBeams.all (fun gb => d.panelUp (l.pgb gb / 32))

/-- Panels asleep that a placement uses start to wake (15 R449). -/
def Dev.wakeFor (d : Dev) (l : Loom) : Dev :=
  d.wakePanels ((List.range 4).filter (fun p => l.mappedBeams.any (fun gb => l.pgb gb / 32 == p))) 2

/-- Bytes of one line that the loader writes outside the HBM below the spill region, through the gatekeeper (13 R391). -/
def Dev.loaderLine (d : Dev) (a : Nat) (bs : List Byte) : Dev :=
  let (d, st) := d.gate midLDR gkWRITE a
  if st ≠ stOK ∨ ¬ regionOf a ∈ [.beamMem, .cluster, .tablet] then d else (d.setBytes a bs).encodeFw a bs.length

/-- INIT_HBM records of sections, at the model base (R228). What would lie in the spill region, as a record of an entry that fails
may, is refused (05 R128; 13 R391). -/
def Dev.initHbm (d : Dev) (ss : List Section) (mb : Nat) : Dev :=
  let bs := devSec ss tyHBM
  ((hbmRecords (bs.length + 1) bs).getD []).foldl (fun d x =>
    let a := x.1 + mb
    let data := x.2.take (spillBase - a)
    let rest := x.2.drop (spillBase - a)
    let b := max a spillBase
    let d := if data.isEmpty then d else ((d.setBytes a data).encodeFw a data.length).occRange a data.length
    (linePieces (rest.length / 64 + 2) b rest.length).foldl (fun d p => d.loaderLine p.1 ((rest.drop (p.1 - b)).take p.2)) d) d

/-- Accesses of the image cache: so many bytes from its base (05 R149; assumption log 9). -/
def Dev.cacheAccess (d : Dev) (n : Nat) : Dev := d.occRange (d.fld F.LDR_CACHE_BASE_BASE * 256) n

/-- The attempt at the present entry up to the write step; `m`: the bytes of the medium from the entry's LBA on (R230). -/
def Dev.entryAttempt (d : Dev) (m : List Byte) : Dev :=
  match d.ldr.load with
  | none => d
  | some x =>
    if x.ready.isSome then d
    else match d.catEntry x.slot x.entry with
      | none => d.entryFailed x ⟨0x106, 0⟩
      | some c => match d.tryEntry m c x.base with
        | .error f =>
          let ss := d.streamed m c x.base
          let d := (d.initHbm ss x.base).occRange (d.streamBase m c x.base) (if ss.isEmpty then 0 else cacheLen ss)
          (d.setReg R.LDR_PROGRESS (BitVec.ofNat 32 (bytesRead m c (some f) / 4096))).entryFailed x f
        | .ok (img, l, cache) =>
          if d.loom.hashMode = 1 then d.entryFailed x ⟨0x134, 0⟩
          else
            let d := d.setReg R.LDR_PROGRESS (BitVec.ofNat 32 (bytesRead m c none / 4096))
            let d := (d.setReg R.LDR_CACHE_BASE (BitVec.ofNat 32 (cache.1 / 256))).setFld F.LDR_CACHE_SIZE_SIZE
              ((cache.2 - cache.1) / 2 ^ 28)
            let ss := d.streamed m c x.base
            let d := (d.initHbm ss x.base).cacheAccess (cacheLen ss)
            let d := if devSec ss tyHBM = devSec img.sections tyHBM then d else d.initHbm img.sections x.base
            ((d.setStage 11).wakeFor l).onLdr (fun r => { r with load := some { x with step := 4, ready := some img } })

/-- An eMMC command of the load fails: up to 3 retries, then the entry fails with the card status (R230). -/
def Dev.emmcLoad (d : Dev) (x : LoadSt) (status : Nat) : Dev :=
  if x.retries < 3 then d.onLdr (fun r => { r with load := some { x with retries := x.retries + 1 } })
  else d.entryFailed x (failD 0x106 status)

/-! ### The write step (R231) -/

/-- Shed contents of both banks from the initial state (02 R32). -/
def initSheds (m : SMap Bool) : SMap Bool :=
  sortBy Prod.fst (m.flatMap (fun e => [(shedKey (e.1 / 2048) 0 (e.1 % 2048), e.2), (shedKey (e.1 / 2048) 1 (e.1 % 2048), e.2)]))

/-- Beam memory of a beam: initial contents, or 0 (R231). -/
def Dev.initBeamMem (d : Dev) (ss : List Section) (gb : Nat) : Dev :=
  let a := beamMemAddr gb 0
  ((d.clearMem a (a + 0x100000)).encodeRange a (a + 0x100000)).setBytes a ((secOf ss tyBEAM gb).getD [])

/-- DRW_HCFG of every harness of a mapped beam, those at or above U included (R224, R231; 04 R104, R121). -/
def Dev.initHcfg (d : Dev) (ss : List Section) (u gb : Nat) : Dev :=
  (List.range (if u = 0 then 0 else 64)).foldl (fun d h =>
    let hn := hnOf gb h
    (d.setFld (F.DRW_HCFG_LAT.at hn) (hcfgLat ss hn)).setFld (F.DRW_HCFG_LANE_MERGE.at hn) (hcfgMerge ss hn)) d

/-- Fail-map definitions and capture definitions (11 R325, R342). -/
def Dev.initCapture (d : Dev) (ss : List Section) (mb : Nat) : Dev :=
  let d := (mapDescs (devSec ss tyFAIL) mb).foldl (fun d m =>
    (((d.setFld (F.FMP_DESC_VALID.at m.map) 1).setFld (F.FMP_DESC_ROW_BITS.at m.map) m.row).setFld
      (F.FMP_DESC_CW_BITS.at m.map) m.cw).setFld (F.FMP_BASE_BASE.at m.map) (m.base / 256)) d
  let cap := devSec ss tyCAP
  let d := (List.range 16).foldl (fun d u => (List.range 10).foldl (fun d w =>
    let v := capWord cap u w
    d.setReg (instKey (R.CAP_UNIT_CFG + 4 * w) u) (BitVec.ofNat 32 (if w = 1 ∧ u * 40 < cap.length then v + mb / 256 else v))) d) d
  { d with cap := { d.cap with probes := words64 (cap.drop 640) } }

/-- One record of the shuttle code (12 R376); start-up items are queued afterwards. -/
def Dev.initCode (d : Dev) (r : Nat × List Byte) : Dev :=
  let b := r.2
  if r.1 = 1 then
    match segAddr b with
    | none => d
    | some a =>
      let d := (d.setBytes a (b.drop 16)).encodeFw a (b.length - 16)
      if a < hbmEnd then d.occRange a (b.length - 16) else d
  else if r.1 = 2 then
    d.onSched (fun s => { s with templates := SMap.put 0 s.templates (leAt b 0 1) (BitVec.ofNat 256 (leAt b 8 32)) })
  else if r.1 = 3 then
    (d.setReg (instKey R.WSC_TRIG_LO (leAt b 0 1)) (BitVec.ofNat 32 (leAt b 8 4) &&& 0xFFF0FFFF)).setReg (instKey R.WSC_TRIG_HI (leAt b 0 1))
      (BitVec.ofNat 32 (leAt b 12 4))
  else if r.1 = 5 then
    (List.range 512).foldl (fun d i => d.setReg (instKey R.CLM_BANK_OWNER i)
      (if d.rel.badCluster.contains (i / 32) then 0 else BitVec.ofNat 32 (leAt b (4 * i) 4))) d
  else if r.1 = 6 then
    (List.range 128).foldl (fun d s => d.onSh s (fun x => { x with tvec := BitVec.ofNat 64 (leNat b) &&& ~~~3#64 })) d
  else d

/-- The records of the image's shuttle code. -/
def codeOf (ss : List Section) : List (Nat × List Byte) :=
  (codeRecords ((devSec ss tyCODE).length + 1) (devSec ss tyCODE)).getD []

/-- The start-up items of the shuttle code, queued (12 R376); one that finds the store full waits as a held post. -/
def Dev.startItems (d : Dev) (ss : List Section) : Dev :=
  ((codeOf ss).filter (fun r => r.1 == 4)).foldl (fun d r =>
    let x : BitVec 256 := BitVec.ofNat 256 (leNat r.2)
    if d.storeFull then d.onSched (fun s => { s with held := s.held ++ [x] }) else (d.post 0 x 0 none).1) d

/-- LAG and the lock set, in physical lanes (06 R166). -/
def Dev.initLocks (d : Dev) (h : List Byte) : Dev :=
  let d := d.setFld F.TRD_PIN_CFG_LAG (H.lag h)
  let ps := ((List.range 128).filter (fun j => (H.lockSet h).testBit j)).map d.phys
  (List.range 4).foldl (fun d i => d.setReg (R.TRD_LOCKSET0 + 4 * i)
    (BitVec.ofNat 32 (ofBits ((List.range 32).map (fun j => ps.contains (32 * i + j)))))) d

/-- The critical path on both steppings (07 R200), and the need of R165. -/
def Dev.computePath (d : Dev) (depth : Nat) : Dev :=
  let lat := fun hn => d.latOf hn
  (d.onLoom (fun l => { l with pathA := l.critical lat 0 depth, pathB := l.critical lat 1 depth })).armCompute

/-- The spares named at the placement of the beams (07 R203, R209). -/
def Dev.noteSpares (d : Dev) (gbs : List Nat) : Dev :=
  gbs.foldl (fun d gb => d.setFld (F.LDR_BMAP_SPARES.at gb) (d.loom.spares (d.loom.pgb gb)).length) d

/-- The write step (R231): the loom of the image and its units. -/
def Dev.writeImage (d : Dev) (img : Image) (l : Loom) (mb : Nat) : Dev :=
  let h := img.header
  let ss := img.sections
  let old := d.loom
  let d := d.onLoom (fun _ => { l with
    shed := initSheds l.initShed, hashMode := old.hashMode, hashSeed := old.hashSeed, occ := old.occ
    occLast := old.occLast, occRun := old.occRun })
  let d := (d.clearCounters (loadClears ++ [R.CLM_BANK_OWNER, R.LDR_BMAP])).noteSpares l.mappedBeams
  let d := d.onHubd (fun h => { h with hub := { h.hub with starved := false } })
  let d := (l.mappedBeams).foldl (fun d gb => d.initHcfg ss (H.need h gb) gb) d
  let d := (List.range 128).foldl (fun d gb => d.initBeamMem ss gb) d
  let d := d.initCapture ss mb
  let d := { d with warp := { d.warp with mapped := !(devSec ss tyPORT).isEmpty, ports := words64 (devSec ss tyPORT) } }
  let d := (d.loadPuts (fun _ => true)).initLocks h
  let d := (codeOf ss).foldl Dev.initCode d
  let d := d.setFld F.HBM_SPILL_BASE_BASE (spillBase / 512)
  ((d.onLdr (fun r => { r with cache := some img })).cacheAccess (cacheLen ss)).computePath (H.depth h)

/-- Units with AUTO_ARM are armed by the load (11 R332). -/
def Dev.autoArm (d : Dev) : Dev :=
  (List.range 16).foldl (fun d u =>
    if d.capFld F.CAP_UNIT_CFG_AUTO_ARM u = 1 ∧ d.capMode u ≠ 0 then d.capArm u else d) d

/-- An automatic start will wait for DONE (R234, R248). -/
def Dev.autoStarts (d : Dev) : Bool := d.fld F.LDR_DONE_CFG_AUTO == 1 && d.role != roMember

/-- LOM_DEPTH.D and LDR_IMAGE_ID show the image, and its start-up items are in the store (R230, R248; assumption log 14). -/
def Dev.showImage (d : Dev) (img : Image) : Dev :=
  let h := img.header
  let d := (d.setReg R.LDR_IMAGE_ID_LO (BitVec.ofNat 32 (H.imageId h))).setReg R.LDR_IMAGE_ID_HI
    (BitVec.ofNat 32 (H.imageId h / 2 ^ 32))
  (d.setFld F.LOM_DEPTH_D (H.depth h)).startItems img.sections

/-- The image is valid (R230): event 0x111, ARMED, DONE released. -/
def Dev.markValid (d : Dev) (x : LoadSt) : Dev :=
  let d := match d.ldr.cache with
    | some img => d.showImage img
    | none => d
  let d := ((d.setFld F.LDR_STATUS_STATE 2).loadEvent 0x111 (loadData x ⟨0x111, 0⟩)).setTs tsArmed
  let d := (d.onLdr (fun r => { r with load := none, doneNew := true, base := x.base })).ldrCmd 1 2 0
  let d := ((d.autoArm.panelsFollow false).rollBegin.driveDone false).setFld F.LDR_DONE_START_PEND (b2n d.autoStarts)
  d.setStage 13

/-- Event 8 of R210 has ended: no lane that start-up trains is still in its first training. -/
def Dev.event8Over (d : Dev) : Bool := d.warp.lanes.all (fun x => !x.2.boot)

/-- Event 12 of R210: the image is valid, once its write step and the training of the lanes have ended. -/
def Dev.event12 (d : Dev) : Dev :=
  match d.ldr.load with
  | some x => if x.written ∧ d.event8Over then d.markValid x else d
  | none => d

/-- ABORT (R239): one that meets a mark_valid that is due loses; of an interrupted load nothing is used, its write step's writes
included. -/
def Dev.loadAbort (d : Dev) : Dev :=
  let d := d.event12
  match d.ldr.load with
  | none => d.ldrCmd 2 4 1
  | some x => (((((if x.written then d.dropModel else d)).onLdr (fun r => { r with load := none })).setFld F.LDR_STATUS_STATE 0).loadEvent 0x113
      (x.slot % 256 + x.entry % 2 * 256)).ldrCmd 1 3 0

/-- The write step ends (R230, R231). `cacheBad`: it met uncorrectable image-cache data (R237). It waits for the panels that
the placement wakes (15 R449), and is placed anew where one of them did not wake. -/
def Dev.loadComplete (d : Dev) (cacheBad : Bool) : Dev :=
  match d.ldr.load with
  | none => d
  | some x => match x.ready with
    | none => d
    | some img =>
      let mb := x.base
      let base := d.fld F.LDR_CACHE_BASE_BASE * 256
      if x.written then d
      else if cacheBad then d.entryFailed x ⟨0x13D, 0⟩
      else match d.placeAndCheck img.header img.sections mb (base, base + d.fld F.LDR_CACHE_SIZE_SIZE * 2 ^ 28) with
        | .error f => d.entryFailed x f
        | .ok l =>
          if !d.loomAwake l then d.wakeFor l
          else (((d.writeImage img l mb).onLdr (fun r => { r with load := some { x with written := true } })).setStage 12).event12

end Sys2Proof.Machine
end

