-- ==== Sys2Proof/Machine/Time.lean ====
section
/-!
DEFINITION. The time base, its servo, TSYNC and steps (06 R174 to R182), transmit time stamps (R178, R195).
-/

namespace Sys2Proof.Machine

/-- The time base changed. -/
def Dev.onTb (d : Dev) (f : TimeBase → TimeBase) : Dev := { d with tb := f d.tb }

/-- A value clamped to -m .. m. -/
def clampTo (m x : Int) : Int := max (-m) (min m x)

/-- LOCKED clears, with event 0x904 (R180). -/
def Dev.lockClear (d : Dev) : Dev :=
  let d := d.onTb (fun t => { t with lockRun := 0 })
  if d.fld F.PTP_STATUS_LOCKED = 1 then (d.setFld F.PTP_STATUS_LOCKED 0).event bPTP 0 0x904 0 else d

/-- The lock decision on a sample (R180). -/
def Dev.lockSample (d : Dev) (e : Int) : Dev :=
  if e.natAbs ≤ d.fld F.PTP_LOCK_CFG_LOCK_NS ∧ d.fld F.PTP_STATUS_JUMP_PEND = 0 then
    let n := d.tb.lockRun + 1
    let d := d.onTb (fun t => { t with lockRun := n })
    if max 1 (d.fld F.PTP_LOCK_CFG_LOCK_N) ≤ n ∧ d.fld F.PTP_STATUS_LOCKED = 0 then
      (d.setFld F.PTP_STATUS_LOCKED 1).event bPTP 0 0x903 0
    else d
  else d.lockClear

/-- The servo on an offset sample (R179, R182). -/
def Dev.servo (d : Dev) (e : Int) : Dev :=
  if Int.ofNat (d.fld F.PTP_JUMP_LIMIT_LIMIT) < e.natAbs then
    if d.fld F.PTP_STATUS_JUMP_PEND = 0 then
      ((d.setFld F.PTP_STATUS_JUMP_PEND 1).setReg R.PTP_JUMP_OFS (BitVec.ofNat 32 (unsgn 32 (-e)))).event bPTP 0 0x901 0
    else d
  else if d.fld F.PTP_STATUS_JUMP_PEND = 1 then d
  else
    let m := Int.ofNat (d.fld F.PTP_SERVO_RATE_MAX)
    let integ := clampTo m (d.tb.integ + e / 2 ^ d.fld F.PTP_SERVO_KI_SHIFT)
    let rate := clampTo m (-(e / 2 ^ d.fld F.PTP_SERVO_KP_SHIFT + integ))
    (d.onTb (fun t => { t with integ := integ, rate := rate })).setReg R.PTP_RATE (BitVec.ofNat 32 (unsgn 32 rate))

/-- An offset sample: it ends holdover, runs the servo and decides the lock (R179, R180). -/
def Dev.sample (d : Dev) (e : Int) : Dev := (((d.setFld F.PTP_STATUS_HOLDOVER 0).servo e)).lockSample e

/-- A sample written by firmware, taken with SRC = 1 (R176, R195). -/
def Dev.offsetSample (d : Dev) (e : Word) : Dev := if d.fld F.PTP_CTL_SRC = 1 then d.sample (sgn 32 e.toNat) else d

/-- A rising TSYNC edge, as an input (R176, R181). -/
def Dev.tsyncIn (d : Dev) : Dev :=
  if d.fld F.PTP_CTL_TSYNC_OUT = 1 then d
  else
    let d := (d.onTb (fun t => { t with tsync := true })).setReg R.PTP_PPS_CAP d.tb.tb
    if d.fld F.PTP_CTL_SRC = 2 then
      let e := sgn 32 (d.tb.tb - d.reg R.PTP_PPS_NEXT).toNat
      (d.sample e).setReg R.PTP_PPS_NEXT (d.reg R.PTP_PPS_NEXT + 1000000000)
    else d

/-- TB reaches PTP_PPS_NEXT: the output rises for WIDTH µs (R181). -/
def Dev.tsyncOut (d : Dev) : Dev :=
  if d.fld F.PTP_CTL_TSYNC_OUT = 1 ∧ d.reached (d.reg R.PTP_PPS_NEXT) then
    let w := BitVec.ofNat 32 (1000 * max 1 (d.fld F.PTP_PPS_CFG_WIDTH))
    (d.onTb (fun t => { t with tsync := true, tsyncEnd := t.tb + w })).setReg R.PTP_PPS_NEXT
      (d.reg R.PTP_PPS_NEXT + 1000000000)
  else d

/-- Slot starts that a forward step has passed are skipped: HOLD frames, counted, logged once (R182); a
step that lands on a slot start has passed it (DESIGN CHOICE, assumption log 22). -/
def Dev.stepSlots (d : Dev) : Dev :=
  let p := d.fld F.TRD_PERIOD_PERIOD
  let ahead := sgn 32 (d.tb.tb - d.trd.nextSlot).toNat
  if d.trd.gridOn ∧ d.fld F.TRD_CTL_MODE = 1 ∧ 0 ≤ ahead ∧ p ≠ 0 then
    let n := ahead.toNat / p + 1
    let next := d.trd.nextSlot + BitVec.ofNat 32 (n * p)
    let d := (List.range n).foldl (fun d _ => d.holdNamed) d
    let d := (d.addFld F.TRD_HOLD_CNT_COUNT n).onTrd (fun t => { t with nextSlot := next, slotEnd := if t.inSlot then next else t.slotEnd })
    (d.setFld F.TRD_EVENTS_STEP_SKIP 1).event bTRD 0 0x906 0
  else d

/-- The pending step is applied (R182). -/
def Dev.jumpAccept (d : Dev) : Dev :=
  if d.fld F.PTP_STATUS_JUMP_PEND = 0 then d
  else
    let ofs := d.reg R.PTP_JUMP_OFS
    let d := (d.onTb (fun t => { t with tb := t.tb + ofs, integ := 0, rate := 0 })).setReg R.PTP_RATE 0
    let d := ((d.setFld F.PTP_STATUS_JUMP_PEND 0).event bPTP 0 0x902 0)
    let d := if 0 < sgn 32 ofs.toNat then d.stepSlots else d
    (List.range 16).foldl (fun d e => d.timedMsg e) d.timedStart

/-- The pending step is discarded; the servo resumes (R182). -/
def Dev.jumpClear (d : Dev) : Dev := d.setFld F.PTP_STATUS_JUMP_PEND 0

/-- No sample for HOLDOVER seconds (R180). -/
def Dev.holdover (d : Dev) : Dev :=
  if d.fld F.PTP_STATUS_HOLDOVER = 1 then d
  else ((d.setFld F.PTP_STATUS_HOLDOVER 1).event bPTP 0 0x905 0).lockClear

/-- Messages that a pause has held leave at its end (10 R306). -/
def Dev.unpaused (d : Dev) : Dev :=
  let waits := fun (m : OutMsg) => SMap.get 0 d.eth.paused m.iface != 0
  if d.eth.held.all waits then d
  else { d with eth := { d.eth with sent := d.eth.held.filter (fun m => !waits m), held := d.eth.held.filter waits } }

/-- One TIME cycle: TB advances by 1 ns, adjusted by the rate while a source disciplines it (R174, R176); a pause of an Ethernet
port runs off (10 R306); a weft link sends a BUNDLE frame (10 R296). DESIGN CHOICE, assumption log 35: the rate's share of a cycle is the floor of rate * 2^32 / 10^9. -/
def Dev.timeCycle (d : Dev) : Dev :=
  let src := d.fld F.PTP_CTL_SRC
  let rate := if src = 1 ∨ src = 2 then d.tb.rate else 0
  let f := Int.ofNat d.tb.frac + rate * 2 ^ 32 / 1000000000
  let add := 1 + f / 2 ^ 32
  let d := d.onTb (fun t => { t with tb := t.tb + BitVec.ofNat 32 (unsgn 32 add), frac := (f % 2 ^ 32).toNat })
  let d := d.onTb (fun t => if d.fld F.PTP_CTL_TSYNC_OUT = 1 ∧ t.tsync ∧ d.reached t.tsyncEnd then { t with tsync := false } else t)
  let left : SMap Nat := d.eth.paused.filterMap (fun x => if x.2 ≤ 100 then none else some (x.1, x.2 - 100))
  { d with eth := { d.eth with paused := left } }.unpaused.bundlesGo

/-- 1 ns of the always-on tick of 40 ns (14 R437). -/
def Dev.aonCycle (d : Dev) : Dev :=
  if d.tickNs + 1 < 40 then { d with tickNs := d.tickNs + 1 } else { d with tickNs := 0, tick := d.tick + 1 }

/-- 1 ns passes: in the TIME domain where its PLL has locked and the device is in RUN or LOW (01 R18, R20; 15 R448), and in the AON
domain where its clock runs (01 R19). -/
def Dev.idleCycle (d : Dev) : Dev :=
  let d := if d.plat.porst && d.plat.wrst && d.plat.pllUp.testBit 3 && d.fld F.PWR_STATUS_DEV != 2 then d.timeCycle else d
  if d.plat.aonUp && d.plat.crystalDone then d.aonCycle else d

/-- The transmit time-stamp FIFO of a port (R178). -/
def Dev.txts (d : Dev) (port : Nat) : List (Nat × Word) := if port = 0 then d.tb.txts0 else d.tb.txts1
def Dev.setTxts (d : Dev) (port : Nat) (q : List (Nat × Word)) : Dev :=
  d.onTb (fun t => if port = 0 then { t with txts0 := q } else { t with txts1 := q })

/-- An egress stamp enters the FIFO of 16; the newest is dropped when it is full (R178). -/
def Dev.txtsPush (d : Dev) (port seq : Nat) (t : Word) : Dev :=
  if (d.txts port).length < 16 then d.setTxts port (d.txts port ++ [(seq % 65536, t)])
  else d.setFld F.PTP_STATUS_TXTS_OVF 1

/-- A read of PTP_TXTSn_ID takes the oldest entry (R195). -/
def Dev.txtsPop (d : Dev) (port : Nat) : Dev :=
  let id := if port = 0 then R.PTP_TXTS0_ID else R.PTP_TXTS1_ID
  let tm := if port = 0 then R.PTP_TXTS0_T else R.PTP_TXTS1_T
  match d.txts port with
  | [] => d.setReg id 0
  | x :: t => ((d.setTxts port t).setReg id (BitVec.ofNat 32 (65536 + x.1))).setReg tm x.2

end Sys2Proof.Machine
end

