-- ==== Sys2Proof/Machine/WeftRx.lean ====
section
/-!
DEFINITION. What arrives on the weft links (10 R292 to R304): links up and down, alignment, frames of each type, resends,
timers.
-/

namespace Sys2Proof.Machine

/-! ### Links (R292, R300, R304) -/

/-- The four weft lanes of a link, numbered as lanes of the model. -/
def weftLanes (p : Nat) : List Nat := (List.range 4).map (fun i => 128 + 4 * p + i)

/-- All four lanes of the link are UP (R292). -/
def Dev.lanesUp (d : Dev) (p : Nat) : Bool := (weftLanes p).all (fun ph => d.laneState ph == lnUp)

/-- Frames renumbered from 0 after a full training (R268, R295). -/
def renumberWeft : Nat → List FFrame → List FFrame
  | _, [] => []
  | n, f :: t => { f with seq := n % 65536 } :: renumberWeft (n + 1) t

/-- The link is UP: event 0x320; a STATUS, and the DONE reports held (R292, R300, R301). `full`: after a full training
(R295). After a fast retrain the last STATUS still tells whether the link is in use (DEDUCED, assumption log 9). -/
def Dev.linkUpEvent (d : Dev) (p : Nat) (full : Bool) : Dev :=
  if 4 ≤ p ∨ !d.lanesUp p ∨ d.linkUp p then d
  else
    let used := (d.joins (d.logLink p)).isSome
    let was := (d.link p).was
    let d := d.setLinkState p (if !used then 6 else if !full ∧ (was = 4 ∨ was = 5) then was else 3)
    let d := d.setFld (F.WFT_LINK_STATUS_LOGICAL.at p) (d.logLink p)
    let d := if full then d.onLink p (fun w => { w with
        txq := renumberWeft 0 w.txq, nextSeq := w.txq.length % 65536, lastAcc := 65535, nak := false, episodes := 0, was := 0 })
      else d.onLink p (fun w => { w with episodes := 0, was := 0 })
    let d := d.linkEvent p 0x320 0 (d.nbrPos p)
    let d := if used then d.sendStatus p else d
    if d.linkOpen p then (List.range 16).foldl (fun d pos => d.sendDone p pos) d else d

/-- The link, which was UP, is DOWN: its lanes go into a fast retrain, events 0x321 and 0x322 (R292, R295, R305). `lane`: the lane that
was lost, 0 where none was. -/
def Dev.linkRetrain (d : Dev) (p lane : Nat) : Dev :=
  let d := d.linkFell p 2 lane
  ((weftLanes p).foldl (fun d ph => if d.laneState ph = lnUp then d.startRetrain ph else d) d).linkEvent p 0x322 lane (d.nbrPos p)

/-- The lowest lane of a link that is not UP. -/
def Dev.lostLane (d : Dev) (p : Nat) : Nat := ((List.range 4).find? (fun i => d.laneState (128 + 4 * p + i) != lnUp)).getD 0

/-- A lane of the link is not UP: an UP link retrains; a link whose training has failed on a lane is DOWN, with event 0x321 where
none has been written since it was UP (R292, R323). -/
def Dev.linkDownEvent (d : Dev) (p : Nat) : Dev :=
  if 4 ≤ p ∨ d.lanesUp p then d
  else if d.linkUp p then d.linkRetrain p (d.lostLane p)
  else if d.linkState p = 2 ∧ (weftLanes p).any (fun ph => d.laneState ph == lnDown) then
    let d := d.setLinkState p 1
    if (d.link p).was = 0 then d.linkEvent p 0x321 (d.lostLane p) (d.nbrPos p) else d
  else d

/-- A physical lane, warp or weft, loses block lock; with a weft lane its link goes (R252, R292, R305). -/
def Dev.lockLostRx (d : Dev) (ph : Nat) : Dev :=
  let p := (ph - 128) / 4
  if isWeft ph ∧ d.laneState ph = lnUp ∧ d.linkUp p then (d.lockLost ph).linkRetrain p (ph % 4) else d.lockLost ph

/-- A physical lane, warp or weft, trains again; its link is then in training (R257, R323). -/
def Dev.trainingRetryRx (d : Dev) (ph : Nat) : Dev :=
  let p := (ph - 128) / 4
  let d := d.trainingRetry ph
  if isWeft ph ∧ d.laneState ph = lnTraining ∧ d.linkState p = 1 then d.setLinkState p 2 else d

/-- An ALIGN block: the lanes are deskewed, or alignment is lost (R292). -/
def Dev.alignBlock (d : Dev) (p : Nat) (lost : Bool) : Dev := if lost ∧ p < 4 ∧ d.linkUp p then d.linkRetrain p 0 else d

/-- EN of a link set or cleared: its lanes train, or are disabled (R291); a link that was UP is then DOWN (R292). -/
def Dev.linkEnable (d : Dev) (p : Nat) (en : Bool) : Dev :=
  let was := d.fld (F.WFT_LINK_CFG_EN.at p) == 1
  if en == was then d
  else
    let d := if d.linkUp p then d.linkFell p 0 0 else d
    let d := (d.setFld (F.WFT_LINK_CFG_EN.at p) (b2n en)).onLink p (fun w => { w with was := 0 })
    (weftLanes p).foldl (fun d ph => d.startTraining ph) (d.setLinkState p (if !en then 0 else if d.txMute then 1 else 2))

/-! ### Acknowledgement (R267, R295) -/

/-- An ACK covers every frame up to its SEQ. -/
def Dev.linkAck (d : Dev) (p ack : Nat) : Dev :=
  match (d.link p).txq.findIdx? (fun f => f.seq == ack % 65536) with
  | none => d
  | some i => d.onLink p (fun w => { w with txq := w.txq.drop (i + 1), episodes := 0 }.drainDue w.due)

/-- A resend episode; after MAX without a new ACK the link retrains (R295). -/
def Dev.linkResend (d : Dev) (p : Nat) : Dev :=
  if (d.link p).txq.isEmpty ∨ !d.linkUp p then d
  else
    let d := (d.addFld (F.WFT_LINK_ERR_RESENT.at p) 1).onLink p (fun w => { w with episodes := w.episodes + 1 })
    if max 1 (d.fld F.WFT_RETRY_CFG_MAX) ≤ (d.link p).episodes then
      (d.onLink p (fun w => { w with episodes := 0 })).linkRetrain p 0
    else d

/-- ACK and NAK of a header or an IDLE block (R293). -/
def Dev.linkFieldsW (d : Dev) (p ack : Nat) (nak : Bool) : Dev :=
  let d := d.linkAck p ack
  if nak then d.linkResend p else d

/-- A frame or control block that fails its CRC, or a frame out of order: NAK is set (R267, R293; 09 R285). -/
def Dev.linkCrc (d : Dev) (p : Nat) (isFrame badCrc : Bool) : Dev :=
  let d := if badCrc then d.addFld (F.WFT_LINK_ERR_CRC.at p) 1 else d
  if isFrame ∨ badCrc then d.onLink p (fun w => { w with nak := true }) else d

/-- A frame is accepted when its SEQ is one more than the last accepted one (R267, R295); its header's fields count. -/
def Dev.linkAccept (d : Dev) (p seq ack : Nat) (nak : Bool) : Dev × Bool :=
  if p < 4 ∧ d.linkUp p ∧ seq % 65536 = ((d.link p).lastAcc + 1) % 65536 then
    ((d.onLink p (fun w => { w with lastAcc := seq % 65536, nak := false })).linkFieldsW p ack nak, true)
  else if p < 4 then (d.linkCrc p true false, false)
  else (d, false)

/-- An IDLE block on a physical lane, warp or weft (09 R253; 10 R293). -/
def Dev.idleRx (d : Dev) (ph ack status : Nat) (nak rxReady : Bool) : Dev :=
  if isWeft ph then
    if d.laneState ph = lnUp then (d.onLane ph (fun x => { x with rxReady := rxReady })).linkFieldsW ((ph - 128) / 4) ack nak else d
  else d.idleBlock ph ack status nak rxReady

/-- A frame or control block on a physical lane, warp or weft, that fails its CRC, or a frame out of order (09 R267; 10 R293). A lane that
is not enabled ignores its receiver (09 R251). -/
def Dev.crcRx (d : Dev) (ph : Nat) (isFrame badCrc : Bool) : Dev :=
  if !d.laneEn ph then d
  else if isWeft ph then d.linkCrc ((ph - 128) / 4) isFrame badCrc else d.crcFail ph isFrame badCrc

/-! ### Bundles, marks, DONE, STATUS, PEER -/

/-- A BUNDLE frame: its bundles go onto the rings for staging, or are kept for a beat not yet released (04 R117, R119;
R296). -/
def Dev.bundleRx (d : Dev) (p seq ack : Nat) (nak : Bool) (beat flow0 : Nat) (vals : List Nat) : Dev :=
  let (d, ok) := d.linkAccept p seq ack nak
  if !(ok && d.linkOpen p) then d
  else
    let xs := (List.range vals.length).map (fun j => (flow0 + j, vals.getD j 0))
    if beat % 16 = d.stageBeat then xs.foldl (fun d x => d.gatewayPut p x.1 x.2) d
    else if beat % 16 = (d.stageBeat + 1) % 16 then
      let rest := (d.link p).early.filter (fun e => !(e.1 == beat % 16 && xs.any (fun x => x.1 == e.2.1)))
      d.onLink p (fun w => { w with early := rest ++ xs.map (fun x => (beat % 16, x.1, x.2)) })
    else d

/-- A MARK kind of an origin, not yet forwarded for this beat or a higher one (R298). -/
def Dev.markNew (d : Dev) (origin kind beat : Nat) : Bool := SMap.get 0 d.weft.fwdMark (2 * origin + kind) < beat + 1

/-- A leader's token arrives (06 R185, R186): kept for the release, or checked against the beat released. -/
def Dev.tokenRx (d : Dev) (beat : Nat) (tb : Word) : Dev :=
  if d.role ≠ roMember then d
  else
    let keep := (d.weft.tokens ++ [(beat, tb)]).drop ((d.weft.tokens.length + 1) - 2)
    let d := { d with weft := { d.weft with tokens := keep } }
    if d.fld F.TRD_CTL_MODE = 1 then
      let released := if d.inBeat then d.loom.beat else d.loom.beat - 1
      if d.inBeat ∨ d.ts = tsWaiting then
        if beat = released % 2 ^ 48 then d.tokenSkew tb
        else if beat = (released + 1) % 2 ^ 48 then d
        else ((d.setFld F.TRD_EVENTS_TOKEN 1).event bTRD 0 0x311 0).requestHalt 5
      else d
    else d

/-- A MARK frame (R297, R298): barrier from its link, commit marker and token of its origin, forwarded once. -/
def Dev.markRx (d : Dev) (p seq ack : Nat) (nak barrier commit token : Bool) (origin beat : Nat) (tb : Word) : Dev :=
  let (d, ok) := d.linkAccept p seq ack nak
  if !(ok && d.linkOpen p) then d
  else
    let d := if barrier then d.onLink p (fun w => { w with barrier := max w.barrier (beat + 1) }) else d
    let own := origin == d.position
    let newC := commit && !own && d.markNew origin 0 beat
    let newT := token && !own && d.markNew origin 1 beat
    let note (d : Dev) (on : Bool) (kind : Nat) : Dev :=
      if on then { d with weft := { d.weft with fwdMark := SMap.put 0 d.weft.fwdMark (2 * origin + kind) (beat + 1) } } else d
    let d := note (note d newC 0) newT 1
    let d := if newC ∨ newT then d.sendAll (some p) 2 (markHead false newC newT origin) (markBody beat tb) 16 else d
    let d := if newC then
        ({ d with weft := { d.weft with marks := SMap.put 0 d.weft.marks origin (max (SMap.get 0 d.weft.marks origin) (beat + 1)) } }).soloSettle
      else d
    (if newT then d.tokenRx beat tb else d).noteReady

/-- A STATUS frame: the link is in use, or MISMATCHED with event 0x323 (R299, R300). -/
def Dev.statusRx (d : Dev) (p seq ack : Nat) (nak : Bool) (sys pos role size topo link : Nat) : Dev :=
  let (d, ok) := d.linkAccept p seq ack nak
  if !ok ∨ d.linkState p = 6 then d
  else
    let fits := match d.joins (d.logLink p) with
      | some n => sys == (d.charter.map Charter.systemId).getD 0 && size == d.weaveSize && topo == d.fld F.WFT_CTL_TOPO &&
          pos == n.1 && link == n.2
      | none => false
    let was := d.linkState p
    let d := (d.setFld (F.WFT_LINK_STATUS_NBR.at p) pos).onLink p (fun w => { w with nbrRole := role })
    if fits then
      let d := d.setLinkState p 4
      if was ≠ 5 then d else (List.range 16).foldl (fun d q => d.sendDone p q) d
    else if was = 5 then d else (d.setLinkState p 5).linkEvent p 0x323 0 pos

/-- A DONE frame (R298, R301). -/
def Dev.doneRx (d : Dev) (p seq ack : Nat) (nak : Bool) (origin : Nat) (released : Bool) (gen : Nat) : Dev :=
  let (d, ok) := d.linkAccept p seq ack nak
  if !(ok && d.linkOpen p) || origin == d.position then d
  else
    let v := SMap.get 0 d.weft.done origin
    let newer := v == 0 || (let df := (gen + 256 - (v - 1) / 2 % 256) % 256; 0 < df && df < 128)
    if newer then
      let d := { d with weft := { d.weft with done := SMap.put 0 d.weft.done origin (1 + 2 * (gen % 256) + b2n released) } }
      ((List.range 4).foldl (fun d q => if d.linkOpen q ∧ q ≠ p then d.sendDone q origin else d) d).doneMirror
    else d

/-- SRC is the position whose STATUS reports ROLE = 1 (R303): among the neighbours exactly the leader's position passes. STATUS frames
are not forwarded, so a position that is no neighbour's passes where no neighbour is the leader (DESIGN CHOICE, assumption log 10). -/
def Dev.fromLeader (d : Dev) (src : Nat) : Bool :=
  src != d.position && d.role == roMember && d.usedLinks.all (fun l =>
    let p := d.physLink l
    !d.linkInUse p || (((d.link p).nbrRole == roLeader) == (d.fld (F.WFT_LINK_STATUS_NBR.at p) == src)))

/-- What an allowed PEER frame does (R302). -/
def Dev.peerAct (d : Dev) (src cmd tag args : Nat) : Dev :=
  if cmd = 1 then d.query src tag (args % 256)
  else if cmd = 2 then d.peerStart src tag (args.testBit 0) (BitVec.ofNat 32 (args / 2 ^ 32))
  else if cmd = 3 then d.refuse (args % 256)
  else if cmd = 4 then d.haltNote
  else if cmd = 5 then d.solo (args % 2 ^ 48)
  else d.peerAnswer src cmd tag args

/-- A PEER frame: acted on when R303 allows it, forwarded once, and else event 0x325 (R298, R303). -/
def Dev.peerRx (d : Dev) (p seq ack : Nat) (nak : Bool) (src dst : Nat) (bcast : Bool) (cmd tag args : Nat) : Dev :=
  let (d, ok) := d.linkAccept p seq ack nak
  if !ok ∨ src = d.position ∨ d.weft.fwdPeer.contains (src, tag) then d
  else
    let known := (1 ≤ cmd && cmd ≤ 5) || cmd == 0x81 || cmd == 0x82
    let mine := bcast || dst == d.position
    let needsLeader := cmd == 1 || cmd == 2 || cmd == 3 || cmd == 5
    let d := { d with weft := { d.weft with fwdPeer := (d.weft.fwdPeer ++ [(src, tag)]).drop ((d.weft.fwdPeer.length + 1) - 64) } }
    let d := d.sendAll (some p) 3 (peerHead src dst bcast cmd tag) args 8
    if known && mine && d.linkInUse p && (!needsLeader || d.fromLeader src) then d.peerAct src cmd tag args
    else d.linkEvent p 0x325 0 src

/-! ### Timers -/

/-- Every 100 µs: a STATUS frame on every UP link that the topology uses (R300). -/
def Dev.statusTimer (d : Dev) : Dev :=
  (List.range 4).foldl (fun d p => if d.linkUp p ∧ d.linkState p ≠ 6 then d.sendStatus p else d) d

/-- Every 100 µs: this device's DONE frame again (R301). -/
def Dev.doneTimer (d : Dev) : Dev :=
  (List.range 4).foldl (fun d p => if d.linkOpen p then d.sendDone p d.position else d) d

/-- A required link has been lost for LOST_TO while the treadle waits on conditions 2 or 3 (R304). -/
def Dev.linkLost (d : Dev) (p : Nat) : Dev :=
  let required := p < 4 && (d.joins (d.logLink p)).isSome
  let u := d.unmet6
  if required ∧ !d.linkInUse p ∧ d.linkState p ≠ 3 ∧ d.ts = tsWaiting ∧ (u = 2 ∨ u = 3) then
    (d.linkEvent p 0x324 0 (d.nbrPos p)).haltNow 5 false
  else d

end Sys2Proof.Machine
end

