-- ==== Sys2Proof/Machine/Done.lean ====
section
/-!
DEFINITION. DONE and the automatic start (08 R232 to R235); the internal flash (R212, R220, R249).
-/

namespace Sys2Proof.Machine

/-- Every position of the weave has reported its release (R233). -/
def Dev.mirrorDone (d : Dev) : Bool :=
  (List.range d.weaveSize).all (fun p => (d.fld F.LDR_DONE_MIRROR).testBit p)

/-- DONE is seen high (R233, R234). The event says that the pin has been high for 1 µs, where SRC names the pin. -/
def Dev.doneSeen (d : Dev) : Dev :=
  let src := d.fld F.LDR_DONE_CFG_SRC
  if d.plat.doneLow ∨ (src ≠ 0 ∧ !d.mirrorDone) ∨ d.fld F.LDR_DONE_SEEN = 1 then d
  else
    let d := if src = 1 then d else ({ d with plat := { d.plat with doneOther := false } }).donePin
    let d := d.setFld F.LDR_DONE_SEEN 1
    if d.ldr.doneNew then
      let d := d.onLdr (fun r => { r with doneNew := false })
      ((d.onTrd (fun t => { t with autoWait := d.autoStarts })).setFld F.LDR_DONE_START_PEND 0).setStage 14
    else d

/-- The automatic START (R234): timed at TRD_START_AT with SRC = 1, else DELAY after DONE. -/
def Dev.autoStart (d : Dev) : Dev :=
  if d.trd.autoWait then (d.onTrd (fun t => { t with autoWait := false })).start (d.fld F.TRD_START_CFG_SRC == 1) else d

/-- DONE is not seen high in time (R235): event 0x115 with the positions not yet released under MIRROR. -/
def Dev.doneTimeout (d : Dev) : Dev :=
  if d.plat.doneLow ∨ d.fld F.LDR_DONE_SEEN = 1 ∨ !d.ldr.doneNew ∨ d.alerts.testBit alDone then d
  else
    let missing := ofBits ((List.range d.weaveSize).map (fun p => !(d.fld F.LDR_DONE_MIRROR).testBit p))
    (d.event bLDR 0 0x115 (if d.fld F.LDR_DONE_CFG_SRC = 0 then 0 else missing)).alert alDone

/-- DONE falls and stays low for 1 µs (R235). Under MIRROR a position has reported that it is not released. -/
def Dev.doneFall (d : Dev) : Dev :=
  let src := d.fld F.LDR_DONE_CFG_SRC
  if d.fld F.LDR_DONE_SEEN = 0 ∨ (src = 1 ∧ d.mirrorDone) then d
  else
    let d := if src = 1 then d else ({ d with plat := { d.plat with doneOther := true } }).donePin
    let d := (d.setFld F.LDR_DONE_SEEN 0).event bLDR 0 0x116 0
    if d.ts = tsStarting then (d.startBack 0 false).haltNow 5 false
    else if d.ts = tsBeat ∨ d.ts = tsWaiting then d.requestHalt 5 else d

/-! ### Flash (R249) -/

/-- Flash commands (R249). -/
def flREAD : Nat := 1
def flPROGRAM : Nat := 2
def flERASE : Nat := 3

/-- Bytes of flash set. -/
def Dev.setFlash (d : Dev) (a : Nat) : List Byte → Dev
  | [] => d
  | b :: t => Dev.setFlash { d with flash := SMap.put 0xFF d.flash a b } (a + 1) t

/-- n words of flash take values that the spec leaves open (assumption log 2). -/
def Dev.freeFlash (d : Dev) (a : Nat) : Nat → Dev
  | 0 => d
  | n + 1 => Dev.freeFlash ({ d.setFlash a (leBytes 4 (Config.freeWord d.freeCtr).toNat) with freeCtr := d.freeCtr + 1 }) (a + 4) n

/-- A flash command starts: READ, PROGRAM or ERASE at CHR_FL_ADDR (R249). A PROGRAM of a word that is not erased leaves a
value the spec does not state. -/
def Dev.flashCommand (d : Dev) (mid cmd : Nat) : Dev :=
  let a := d.fld F.CHR_FL_ADDR_ADDR / 4 * 4
  if d.fld F.CHR_FL_STATUS_BUSY = 1 then d.access 0x806 mid R.CHR_FL_CMD
  else if cmd = flREAD then
    ((d.setReg R.CHR_FL_DATA (BitVec.ofNat 32 (leNat (d.flashBytes a 4)))).setFld F.CHR_FL_STATUS_BUSY 1).onLdr
      (fun r => { r with flashCmd := 1 + 4 * a })
  else if cmd = flPROGRAM ∨ cmd = flERASE then
    if 0xF0000 ≤ a then d.setFld F.CHR_FL_STATUS_ERROR 1
    else
      let d := if cmd = flERASE then { d with flash := d.flash.filter (fun e => e.1 / 4096 != a / 4096) }
        else if (d.flashBytes a 4).all (· == 0xFF) then d.setFlash a (leBytes 4 (d.reg R.CHR_FL_DATA).toNat)
        else d.freeFlash a 1
      let d := if a < 0x80000 then d.setFld F.CHR_FL_STATUS_DIRTY 1 else d
      (d.setFld F.CHR_FL_STATUS_BUSY 1).onLdr (fun r => { r with flashCmd := cmd + 4 * a })
  else d

/-- A flash command ends (R220, R249). After a failed verify the word or the sector holds values the spec does not state. -/
def Dev.flashEnd (d : Dev) (verified : Bool) : Dev :=
  let cmd := d.ldr.flashCmd % 4
  let a := d.ldr.flashCmd / 4
  if cmd = 0 then d
  else
    let d := (d.setFld F.CHR_FL_STATUS_BUSY 0).onLdr (fun r => { r with flashCmd := 0 })
    if cmd = flREAD then d
    else
      let d := if verified then d
        else (if cmd = flERASE then d.freeFlash (a / 4096 * 4096) 1024 else d.freeFlash a 1).setFld F.CHR_FL_STATUS_ERROR 1
      if a < 0x80000 ∧ verified then d.event bCHR 0 0x004 0 else d

end Sys2Proof.Machine
end

