-- ==== Sys2Proof/Machine/Reliab.lean ====
section
/-!
DEFINITION. Repairs, fuses and their shadow, self-test, rolling test, transparent test, re-place, scrub, injection, the error
log (14 R418 to R440; 13 R405, R406).
-/

namespace Sys2Proof.Machine

/-- The repair state changed. -/
def Dev.onRel (d : Dev) (f : Rel → Rel) : Dev := { d with rel := f d.rel }

/-! ### Repair words (R427, R428) -/

def Rep.valid (w : Word) : Bool := bitN w.toNat 31
def Rep.kind (w : Word) : Nat := bitsN w.toNat 30 27
def Rep.gb (w : Word) : Nat := bitsN w.toNat 26 20
def Rep.ph (w : Word) : Nat := bitsN w.toNat 19 13
def Rep.pk (w : Word) : Nat := bitsN w.toNat 12 7
def Rep.array (w : Word) : Nat := bitsN w.toNat 26 12

/-- KIND and fields are in range (R427, R428). -/
def Rep.ok (w : Word) : Bool :=
  match Rep.kind w with
  | 1 => Rep.ph w < 66 && Rep.pk w < 33
  | 2 => Rep.ph w < 66
  | 3 => true
  | 4 => true
  | 5 => true
  | 6 => Rep.array w < 17792
  | 7 => Rep.array w < 17792
  | _ => false

/-- A number is in a list, or is put into it. -/
def addNew (xs : List Nat) (x : Nat) : List Nat := if xs.contains x then xs else x :: xs

/-- What a repair word marks (R428). Repeated repairs have the effect of one. -/
def Rel.mark (r : Rel) (w : Word) : Rel :=
  let slot := 66 * Rep.gb w + Rep.ph w
  match Rep.kind w with
  | 1 => { r with badHeddle := addNew r.badHeddle (slot * 33 + Rep.pk w) }
  | 2 => { r with badHarness := addNew r.badHarness slot }
  | 3 => { r with badHarness := (List.range 66).foldl (fun m ph => addNew m (66 * Rep.gb w + ph)) r.badHarness }
  | 4 => { r with badShuttle := addNew r.badShuttle (Rep.gb w) }
  | 5 => { r with badCluster := addNew r.badCluster (bitsN w.toNat 26 23) }
  | _ => { r with rowCols := addNew r.rowCols (w.toNat % 2 ^ 31) }

/-- One word of start-up event 5 (R428). -/
def Dev.applyWord (d : Dev) (w : Word) : Dev :=
  if !Rep.valid w then d else if Rep.ok w then d.onRel (fun r => r.mark w) else d.event bFUS 0 0xB0B 0

/-- Word i of the field fuse bank. -/
def Dev.fuse (d : Dev) (i : Nat) : Word := SMap.get 0 d.rel.fuses i

/-- Flash address of shadow entry i (R430). -/
def shadowAt (i : Nat) : Nat := 0xF0000 + 8 * i

/-- The repair word of shadow entry i, if it counts (R430). -/
def Dev.shadow (d : Dev) (i : Nat) : Option Word :=
  if leNat (d.flashBytes (shadowAt i + 4) 4) = 0xA5C3 then some (BitVec.ofNat 32 (leNat (d.flashBytes (shadowAt i) 4))) else none

/-- Shadow entry i is free (R430). -/
def Dev.shadowFree (d : Dev) (i : Nat) : Bool := (d.flashBytes (shadowAt i) 8).all (· == 0xFF)

/-- The shadow entries that count, in address order; only listed flash bytes can hold one. -/
def Dev.shadowWords (d : Dev) : List Word :=
  ((d.flash.map (fun e => if 0xF0000 ≤ e.1 then (e.1 - 0xF0000) / 8 else 8192)).eraseDups.filter (· < 8192)).filterMap d.shadow

/-- Start-up BIST runs: it is enabled, and allowed after WRST_N where the start is a warm one (R422). `warm`: the start-up
follows WRST_N. -/
def Dev.bistEnabled (d : Dev) (warm : Bool) : Bool :=
  (d.fld F.BST_CFG_LBIST_EN == 1 || d.fld F.BST_CFG_MBIST_EN == 1) && (!warm || d.fld F.BST_CFG_ON_WRST == 1)

/-- Start-up event 5: hard fuses, field fuse words, shadow entries (R428). -/
def Dev.repairApply (d : Dev) : Dev :=
  if d.plat.stage ≠ 5 then d
  else
    let d := d.rel.hard.foldl Dev.applyWord d
    let d := ((List.range 128).map d.fuse).foldl Dev.applyWord d
    let d := d.shadowWords.foldl Dev.applyWord d
    d.setStage (if d.bistEnabled d.plat.warm then 6 else 7)

/-! ### Self-test (R422 to R425) -/

/-- The spare row or column of its array that a repair word names has replaced another one already (R424). -/
def Rel.spareTaken (r : Rel) (w : Word) : Bool :=
  let x := w.toNat % 2 ^ 31
  (Rep.kind w == 6 || Rep.kind w == 7) && r.rowCols.any (fun y => y != x && y / 4096 == x / 4096 && y % 2 == x % 2)

/-- Heddle and harness slots marked bad. -/
def Rel.slotsBad (r : Rel) : Nat := r.badHeddle.length + r.badHarness.length

/-- A soft repair that BIST makes: what it marks, its event, and its record (R424, R431). A spare is used once. -/
def Dev.softRepair (d : Dev) (w : Word) : Dev :=
  let k := Rep.kind w
  if !Rep.ok w ∨ d.rel.spareTaken w then d
  else
    let was := d.rel.slotsBad
    let spares := d.rel.rowCols.length
    let d := if k = 5 then d.traceNote (bitsN w.toNat 26 23) false tpSLEEP 0xFF 2 else d
    let d := d.onRel (fun r => { r.mark w with toRecord := r.toRecord ++ [w ||| 0x80000000] })
    if k = 4 ∨ k = 5 then d.event bBST 0 0xB03 0
    else
      let spare := k = 6 ∨ k = 7
      let d := if spare then d.addFld F.BST_BAD_CNT_SPARES (d.rel.rowCols.length - spares) else d.addFld F.BST_BAD_CNT_BAD (d.rel.slotsBad - was)
      d.event bBST 0 0xB02 (w.toNat % 2 ^ 31 + (if spare then 2 ^ 31 else 0))

/-- Start-up event 6 ends; `found`: a repair word for every failure it found (R424). -/
def Dev.startupBist (d : Dev) (found : List Word) : Dev :=
  if d.plat.stage ≠ 6 then d else ((found.foldl Dev.softRepair d).event bBST 0 0xB01 0).setStage 7

/-- Memory from a to b - 1 cleared, its check bits with it. -/
def Dev.wipe (d : Dev) (a b : Nat) : Dev :=
  { d.clearMem a b with chk := d.chk.filter (fun e => e.1 < a || b ≤ e.1), bad := d.bad.filter (fun e => e.1 < a || b ≤ e.1) }

/-- The memories of BIST targets, cleared (R425). -/
def Dev.clearTargets (d : Dev) (targets : Nat) : Dev :=
  let d := if targets.testBit 0 then (d.wipe beamMemBase (beamMemBase + 0x8000000)).onLoom (fun l => { l with
      jac := [], jacFlip := [], shed := [], shedFlip := [], checkFlip := [], slots := [], tabFlip := [] }) else d
  let d := if targets.testBit 1 then (d.wipe clusterBase (clusterBase + 0x4000000)).wipe 0x6100000000 0x6102000000 else d
  if targets.testBit 3 then d.wipe 0 hbmEnd else d

/-- BST_STATUS (R445). -/
def Dev.bstStatus (d : Dev) (state status reason : Nat) : Dev :=
  ((d.setFld F.BST_STATUS_STATE state).setFld F.BST_STATUS_STATUS status).setFld F.BST_STATUS_REASON reason

/-- RUN (R425). -/
def Dev.bistStart (d : Dev) (owner : Bool) (targets : Nat) : Dev :=
  if d.rel.bistRun.isSome then (d.setFld F.BST_STATUS_STATUS 4).setFld F.BST_STATUS_REASON 1
  else if !owner ∨ d.ts ≠ tsIdle then d.bstStatus 0 4 1
  else (d.bstStatus 1 1 0).onRel (fun r => { r with bistRun := some (targets % 16) })

/-- An on-demand run ends DONE, with what it found (R425). -/
def Dev.bistDone (d : Dev) (found : List Word) : Dev :=
  match d.rel.bistRun with
  | none => d
  | some t =>
    let d := (found.foldl Dev.softRepair d).clearTargets t
    ((d.onRel (fun r => { r with bistRun := none })).bstStatus 0 2 0).event bBST 0 0xB01 0

/-- ABORT (R425). -/
def Dev.bistAbort (d : Dev) : Dev :=
  match d.rel.bistRun with
  | none => d.bstStatus 0 4 1
  | some t => (((d.clearTargets t).onRel (fun r => { r with bistRun := none })).bstStatus 0 3 0).event bBST 0 0xB0C 0

/-! ### Fuses and shadow (R429 to R431, R446) -/

/-- Event 0xB06, once for the bank (bit 0) and once for the shadow (bit 1) (R431). -/
def Dev.fuseFull (d : Dev) (bank : Bool) : Dev :=
  if bank then (if d.rel.fullBank then d else (d.onRel (fun r => { r with fullBank := true })).event bFUS 0 0xB06 1)
  else if d.rel.fullShadow then d else (d.onRel (fun r => { r with fullShadow := true })).event bFUS 0 0xB06 2

/-- The first free shadow entry (R430). -/
def Dev.freeShadow (d : Dev) : Option Nat := (List.range 8192).find? d.shadowFree

/-- A fuse command starts: 1 BURN_DATA, 2 BURN_VALID, 3 SHADOW_APPEND, 4 SHADOW_ERASE, 5 READ (R429, R430, R446). -/
def Dev.fuseStart (d : Dev) (cmd : Nat) : Dev :=
  let a := d.fld F.FUS_ADDR_WORD
  let w := d.reg R.FUS_DATA
  let run := fun (d : Dev) => (d.setFld F.FUS_STATUS_BUSY 1).onRel (fun r => { r with fuseCmd := cmd, fuseWord := a, fuseData := w })
  let refuse := d.setFld F.FUS_STATUS_REFUSED 1
  if d.fld F.FUS_STATUS_BUSY = 1 then d
  else if cmd = 1 then (if d.fuse a = 0 then run d else refuse)
  else if cmd = 2 then (if (d.fuse a).toNat % 2 ^ 31 = w.toNat % 2 ^ 31 then run d else refuse)
  else if cmd = 3 then (if d.freeShadow.isSome then run d else refuse.fuseFull false)
  else if cmd = 4 then run d
  else if cmd = 5 then run (d.setReg R.FUS_READ (d.fuse a))
  else d

/-- A word of the bank burned: fuses only go from 0 to 1. -/
def Dev.burn (d : Dev) (i : Nat) (w : Word) : Dev := d.onRel (fun r => { r with fuses := SMap.put 0 r.fuses i (SMap.get 0 r.fuses i ||| w) })

/-- A burn that did not end well leaves some of its bits, and which the spec leaves open (assumption log 2). -/
def Dev.burnPart (d : Dev) (i : Nat) (w : Word) : Dev :=
  { d.burn i (w &&& Config.freeWord d.freeCtr) with freeCtr := d.freeCtr + 1 }

/-- A shadow entry written: repair word, then commit word (R430). -/
def Dev.writeShadow (d : Dev) (i : Nat) (w : Word) : Dev :=
  d.setFlash (shadowAt i) (leBytes 4 w.toNat ++ leBytes 4 0xA5C3)

/-- A failed verify (R429). -/
def Dev.verifyFailed (d : Dev) : Dev := (d.setFld F.FUS_STATUS_ERROR 1).event bFUS 0 0xB05 0

/-- The command that runs ends; `verified`: its verify succeeds (R429, R430). -/
def Dev.fuseEnd (d : Dev) (verified : Bool) : Dev :=
  let cmd := d.rel.fuseCmd
  let a := d.rel.fuseWord
  let w := d.rel.fuseData
  if cmd = 0 then d
  else
    let d := (d.setFld F.FUS_STATUS_BUSY 0).onRel (fun r => { r with fuseCmd := 0 })
    if cmd = 1 then (if verified then d.burn a (w &&& 0x7FFFFFFF) else (d.burnPart a (w &&& 0x7FFFFFFF)).verifyFailed)
    else if cmd = 2 then (if verified then (d.burn a 0x80000000).event bFUS 0 0xB04 0 else d.verifyFailed)
    else if cmd = 3 then
      match d.freeShadow with
      | none => d
      | some i => if verified then d.writeShadow i w else (d.freeFlash (shadowAt i) 1).verifyFailed
    else if cmd = 4 then
      let d := { d with flash := d.flash.filter (fun e => e.1 < 0xF0000) }
      if verified then d else d.verifyFailed
    else d

/-- The oldest repair waiting is recorded as FUS_REPAIR_CFG.AUTO says (R431). `verified`: its burn verifies. -/
def Dev.repairRecord (d : Dev) (verified : Bool) : Dev :=
  match d.rel.toRecord with
  | [] => d
  | w :: t =>
    let auto := d.fld F.FUS_REPAIR_CFG_AUTO
    let d := d.onRel (fun r => { r with toRecord := t })
    if auto = 0 then d
    else
      let d := if d.shadowWords.contains w then d
        else match d.freeShadow with
          | some i => d.writeShadow i w
          | none => d.fuseFull false
      if auto = 1 ∨ ((List.range 128).map d.fuse).contains w then d
      else match (List.range 128).find? (fun i => d.fuse i == 0) with
        | none => d.fuseFull true
        | some i => if verified then (d.burn i w).event bFUS 0 0xB04 0
          else ((d.burnPart i (w &&& 0x7FFFFFFF)).verifyFailed).onRel (fun r => { r with toRecord := w :: r.toRecord })

/-! ### Rolling test (R432, R433) -/

/-- The logical beam on a physical beam. -/
def Dev.beamOn (d : Dev) (pgb : Nat) : Option Nat := d.loom.mappedBeams.find? (fun gb => d.loom.pgb gb == pgb)

/-- Rolling test of a physical beam. -/
def Dev.rollOf (d : Dev) (pgb : Nat) : Roll := SMap.get Roll.empty d.rel.roll pgb
def Dev.setRoll (d : Dev) (pgb : Nat) (r : Roll) : Dev := d.onRel (fun x => { x with roll := SMap.put Roll.empty x.roll pgb r })

/-- Event 1 has ended, and the beam asks for a swap (R432). -/
def Dev.rollPreload (d : Dev) (pgb : Nat) : Dev :=
  let r := d.rollOf pgb
  if r.phase = 1 then d.setRoll pgb { r with phase := 2 } else d

/-- Event 4: the harness map points the candidate at the spare (R432). The spare's stored words come from the image cache. -/
def Dev.rollSwap (d : Dev) (pgb : Nat) : Dev :=
  let r := d.rollOf pgb
  match d.beamOn pgb with
  | none => d
  | some gb =>
    if r.phase ≠ 3 ∨ d.rel.grant ≠ pgb + 1 then d
    else
      let hn := hnOf gb r.cand
      let old := d.loom.ph hn
      let d := d.keepMaps.onLoom (fun l => { l with
        hmap := SMap.put 0 l.hmap hn (if r.ph = r.cand then 0 else r.ph + 1), spare := SMap.del l.spare (66 * pgb + r.ph)
        jacFlip := l.jacFlip.filter (fun e => e.1 / 2048 / 33 != hn) })
      let d := ((d.setRoll pgb ⟨5, r.cand, old, r.cand + 1⟩).onRel (fun x => { x with grant := 0 })).rollTurns
      ((d.addFld F.BST_ROLL_CNT_COUNT 1).event bBST 0 0xB07 (gb + r.cand * 2 ^ 7 + r.ph * 2 ^ 13)).noteReady

/-- Events 5 and 6: the retired slot's test ends with what it found; it becomes a spare or is marked bad (R432). -/
def Dev.rollTested (d : Dev) (pgb : Nat) (found : List Word) : Dev :=
  let r := d.rollOf pgb
  if r.phase ≠ 6 then d
  else
    let slot := 66 * pgb + r.ph
    let mine := found.filter (fun w => Rep.kind w != 1 && Rep.kind w != 2 || Rep.gb w == pgb && Rep.ph w == r.ph)
    let d := ((mine.foldl Dev.softRepair d).setRoll pgb { Roll.empty with last := r.last })
    let d := if d.slotUsable pgb r.ph then
        d.onLoom (fun l => { l with
          spare := SMap.put false l.spare slot true
          repl := ((d.heddleMaps pgb).filter (fun e => e.1 / 32 == slot)).foldl (fun m e => SMap.put 0 m e.1 e.2)
            (l.repl.filter (fun e => e.1 / 32 != slot)) })
      else
        let w := repairWord 2 pgb r.ph 0
        let new := !d.rel.badHarness.contains slot
        let d := if new then (d.onRel (fun x => { x.mark w with toRecord := x.toRecord ++ [w] })).addFld F.BST_BAD_CNT_BAD 1 else d
        d.event bBST 0 0xB08 0
    d.rollBegin

/-! ### Transparent test (R435) -/

/-- Bytes of a region of a class; its name in the address map must be one of the class. -/
def tmtRegion (cls a : Nat) : Option (Nat × Nat) :=
  if cls = 0 ∧ a < hbmEnd then some (a / 256 * 256, 256)
  else if cls = 1 ∧ beamMemBase ≤ a ∧ a < beamMemBase + 0x8000000 then some (a / 64 * 64, 64)
  else if cls = 2 ∧ 0x6100000000 ≤ a ∧ a < 0x6102000000 then some (a / 64 * 64, 64)
  else if cls = 3 ∧ clusterBase ≤ a ∧ a < clusterBase + 0x4000000 then some (a / 64 * 64, 64)
  else none

/-- A region is saved, marched and restored: no value that is read changes, the check bits of every unit that can be corrected are right
again, an uncorrectable one stays so, a fault is counted (R435). -/
def Dev.tmtTest (d : Dev) (cls a : Nat) (faulty : Bool) : Dev :=
  match tmtRegion cls a with
  | none => d
  | some (b, n) =>
    if !(d.fld F.BST_TMT_CFG_CLASS).testBit cls ∨ d.fld F.BST_TMT_CFG_RATE = 0 then d
    else
      let d := d.settleAll b n
      if faulty then (d.addFld F.BST_TMT_ERR_COUNT 1).event bBST 0 0xB09 (cls % 4 + bitsN a 36 6 * 4) else d

/-! ### Re-place after a capacity fault (R436) -/

/-- The image is dropped (R436, 15 R451): IDLE, LDR_STATUS.STATE 3, the pins as "Load failed". -/
def Dev.dropImage (d : Dev) (code : Nat) : Dev :=
  let d := if d.startPending then d.startBack 7 true else d
  ((((d.dropModel).driveDone true).setFld F.LDR_STATUS_STATE 3).setFld F.LDR_STATUS_CODE code).alert alLoad

/-- The shed banks of the harnesses that move, rebuilt (R436 step 3; 02 R40); none: a rebuild is impossible. -/
def Dev.rebuildMoved (d : Dev) (gb : Nat) (placed : Loom) : Option Dev :=
  let old := d.loom
  ((List.range (SMap.get 0 old.need gb)).filter (fun h => old.slotOf (hnOf gb h) != placed.slotOf (hnOf gb h))).foldl
    (fun (o : Option Dev) h => o.bind (fun d => d.copySheds ⟨3, gb, h, 0, 0, 0⟩ (List.range 32))) (some d)

/-- The re-place ends (R436), or drops the image where a rebuild of step 3 is impossible. It waits for a bay reload (08 R241) and for
panels that it wakes (15 R449). -/
def Dev.replaceEnd (d : Dev) : Dev :=
  match d.ldr.replace with
  | none => d
  | some (_, hn) =>
    if d.ldr.bay.isSome then d
    else
      let gb := hn / 64
      let pgb := d.loom.pgb gb
      let w := repairWord 2 pgb (d.loom.ph hn) 0
      let d1 := d.onRel (fun r => { r.mark w with toRecord := r.toRecord ++ [w] })
      let d1 := d1.addFld F.BST_BAD_CNT_BAD (d1.rel.slotsBad - d.rel.slotsBad)
      let taken := d.loom.mappedBeams.map d.loom.pgb
      let swap := H.swap ((d.ldr.cache.map Image.header).getD []) gb
      let target := if d1.fits d1.loom gb pgb then some pgb else if swap then d1.swapTarget d1.loom gb taken else none
      match target with
      | none => (d1.dropImage 0x138).event bLDR 0 0xB0A (3 + gb * 2 ^ 8)
      | some p =>
        if !d.panelUp (p / 32) then d.wakePanels [p / 32] 2
        else match d1.rebuildMoved gb (d1.placeBeam d1.loom gb p) with
        | none => (d1.dropImage 0x138).event bLDR 0 0xB0A (3 + gb * 2 ^ 8)
        | some d1 =>
          let d2 := d1.keepMaps.onLoom (fun was =>
            let l := d1.placeBeam was gb p
            { l with jacFlip := l.jacFlip.filter (fun e =>
                       let hn := e.1 / 2048 / 33
                       hn / 64 != gb || was.slotOf hn == l.slotOf hn)
                     lines := SMap.del l.lines gb
                     stale := l.stale.filter (fun e => e.1 != gb) })
          let d2 := ((d2.noteSpares [gb]).rollDrop [pgb, p]).computePath d2.depth |>.onLdr (fun r => { r with replace := none })
          let restart := d2.role = roSingle ∧ d2.fld F.FUS_REPAIR_CFG_RESTART = 1
          let d2 := d2.event bLDR 0 0xB0A ((if restart then 1 else 2) + gb * 2 ^ 8)
          if restart ∧ d2.ts = tsHalted then d2.start false else d2

/-- REPLACE_END, with the stored bits that have flipped by then. -/
def Dev.replaceDone (d : Dev) (hits : List Hit) : Dev := if d.ldr.replace.isNone then d else (d.hitAll hits).replaceEnd

/-! ### Scrub (R418; 13 R405, R406) -/

/-- Patrol scrub reads an on-chip word (R418). A jacquard or table word whose copy in the image cache is bad stays as it is. -/
def Dev.scrubWord (d : Dev) (w : ScrubWord) (u : Upset) : Dev :=
  let coded := fun (cls pos key k : Nat) (r : EccResult) (store : Nat → Loom → Loom) =>
    let bad := SMap.get false d.loom.cacheBad key
    let lost := if bad then d.countClassUe cls else ((d.onLoom (store 0)).countClassUe cls).event bECC 0 0x405 0
    match r, u with
    | .uncorrectable, _ => lost
    | _, .many => if bad then (d.onLoom (store 3)).countClassUe cls else lost
    | .corrected x, _ => (d.onLoom (store (eccWritten k 7 x))).countCE cls pos
    | .clean _, .single => d.countCE cls pos
    | .clean _, .none => d
  let table := fun (gb : Nat) (entry : Option Nat) =>
    let key := tabKey gb entry
    coded 2 (tabPos key) (tabCacheKey key) 64 (d.loom.tabRead key)
      (fun x l => { l with tabFlip := SMap.put 0 l.tabFlip key (BitVec.ofNat 72 x) })
  if d.fld F.ECC_SCRUB_CFG_PERIOD = 0 then d
  else match w with
  | .jacquard hn s p =>
    let key := jacKey hn s p
    coded (if s = 32 then 1 else 0) (posOf (hn / 64) (hn % 64) s p) key 72 (d.loom.jacRead key)
      (fun x l => { l with jacFlip := SMap.put 0 l.jacFlip key (BitVec.ofNat 80 x) })
  | .slotEntry gb e => table gb (some e)
  | .descriptor gb => table gb none
  | .memory a =>
    if a < beamMemBase then d
    else
      let cls := eccClass a
      let (_, _, unit) := eccUnit a
      match d.memCheck a, u with
      | .uncorrectable, _ => (d.countClassUe cls).event bECC 0 0x404 0
      | _, .many => (({ d with bad := SMap.put false d.bad unit true }).countClassUe cls).event bECC 0 0x404 0
      | .corrected _, _ => (d.countUnit unit).settle unit
      | .clean _, .single => d.countUnit unit
      | .clean _, .none => d

/-- Patrol scrub reads a granule of HBM; `last`: it ends a full pass (13 R404, R406). -/
def Dev.scrubHbm (d : Dev) (a : Nat) (u : Upset) (last : Bool) : Dev :=
  if d.fld F.HBM_SCRUB_CFG_PERIOD = 0 ∨ hbmEnd ≤ a then d
  else
    let g := a / 32 * 32
    let d := match d.memCheck g, u with
      | .uncorrectable, _ => (d.hbmUe g).event bHBM (d.hbmStack g) 0x413 0
      | _, .many => (({ d with bad := SMap.put false d.bad g true }).hbmUe g).event bHBM (d.hbmStack g) 0x413 0
      | .corrected _, _ => (d.addFld F.HBM_CE_CNT_COUNT 1).settle g
      | .clean _, .single => d.addFld F.HBM_CE_CNT_COUNT 1
      | .clean _, .none => d
    if last then d.addFld F.HBM_SCRUB_PASS_COUNT 1 else d

/-- A per-bank refresh of a stack, which reports its temperature; commands that failed command/address parity are issued
again and counted (13 R403, R405). -/
def Dev.hbmRefresh (d : Dev) (stack : Nat) (hot : Bool) (parityErrors : Nat) : Dev :=
  if 8 ≤ stack then d
  else
    let m := d.fld F.HBM_STATUS_HOT
    let m := if hot then m ||| 2 ^ stack else if m.testBit stack then m - 2 ^ stack else m
    (d.setFld F.HBM_STATUS_HOT m).addFld F.HBM_CA_CNT_COUNT parityErrors

/-! ### Injection (R420) -/

/-- INJECT (R420). -/
def Dev.inject (d : Dev) (mid : Nat) : Dev :=
  let gb := d.fld F.ECC_INJ_POS_GB
  let h := d.fld F.ECC_INJ_POS_HARNESS
  let s := d.fld F.ECC_INJ_POS_STREAM
  let p := d.fld F.ECC_INJ_POS_PICK
  if d.depth = 0 ∨ !d.loom.mapped (hnOf gb h) ∨ 32 < s ∨ d.depth ≤ p then d.access 0x806 mid R.ECC_INJ_CMD
  else
    let bit := fun en b => if en = 1 ∧ b < 80 then 2 ^ b else 0
    let a := bit (d.fld F.ECC_INJ_BITS_EN0) (d.fld F.ECC_INJ_BITS_BIT0)
    let b := bit (d.fld F.ECC_INJ_BITS_EN1) (d.fld F.ECC_INJ_BITS_BIT1)
    let flips : StoredWord := BitVec.ofNat 80 (a ||| b)
    let key := jacKey (hnOf gb h) s p
    d.onLoom (fun l => { l with jacFlip := SMap.put 0 l.jacFlip key (SMap.get 0 l.jacFlip key ^^^ flips) })

/-! ### The error log (R437 to R440) -/

/-- The log full for STOP_ON_FULL (R439). -/
def Dev.logFull (d : Dev) : Bool := 4096 ≤ d.fld F.LOG_COUNT_COUNT && d.fld F.LOG_CTL_STOP_ON_FULL == 1

/-- The next entry of the input queue is written into its slot, or dropped (R439). The entry that was written, for the event
messages of 10 R314. -/
def Dev.logWrite (d : Dev) : Dev × Option LogWord :=
  match d.log.queue with
  | [] => (d, none)
  | e :: t =>
    let d := { d with log := { d.log with queue := t } }
    if d.logFull then (d.addFld F.LOG_LOST_COUNT 1, none)
    else
      let i := d.fld F.LOG_STATUS_IDX
      let d := { d with log := { d.log with slots := SMap.put 0 d.log.slots i e } }
      let d := (d.setFld F.LOG_STATUS_IDX ((i + 1) % 4096)).addFld F.LOG_COUNT_COUNT 1
      (d.fireLog (bitsN e.toNat 59 48) (bitsN e.toNat 47 44), some e)

/-- CLEAR, by OWNER authority (R440). -/
def Dev.logClear (d : Dev) : Dev :=
  (({ d with log := { d.log with slots := [] } }).setFld F.LOG_STATUS_IDX 0).clearCounters [R.LOG_COUNT, R.LOG_LOST]

end Sys2Proof.Machine
end

