-- ==== Sys2Proof/Machine/MemBus.lean ====
section
/-!
DEFINITION. What the memories of the address map answer to a master whose request has passed its gatekeeper: reads, writes
and ORs of bytes of one 64-byte line (02 R36, 05 R125, R141; 12 R364, R366; 13 R385, R404; 14 R415, R419).
-/

namespace Sys2Proof.Machine

/-! ### Values the spec leaves open -/

/-- One free bit. -/
def Dev.flip (d : Dev) : Dev × Bool := ({ d with freeCtr := d.freeCtr + 1 }, Config.freeBit d.freeCtr)

/-- n free bytes. -/
def Dev.freeBytes (d : Dev) : Nat → Dev × List Byte
  | 0 => (d, [])
  | n + 1 =>
    let b := BitVec.ofNat 8 (Config.freeWord d.freeCtr).toNat
    let (d, t) := Dev.freeBytes { d with freeCtr := d.freeCtr + 1 } n
    (d, b :: t)

/-- A free 64-bit value. -/
def Dev.free64 (d : Dev) : Dev × BitVec 64 :=
  ({ d with freeCtr := d.freeCtr + 2 }, Config.freeWord d.freeCtr ++ Config.freeWord (d.freeCtr + 1))

/-! ### Bytes of HBM as a hub-side reader may find them -/

/-- A committed deep write of the word at a that is not handed over may be seen or not (02 R36). -/
def Dev.wordSeen (d : Dev) (a : Nat) : Dev × Word :=
  d.loom.djOut.foldl (fun (s : Dev × Word) x =>
    let w := d.loom.win64 x.2.gb
    if !Win.mailbox w ∧ Win.addr w x.2.addr = a then
      let (d, b) := s.1.flip
      (d, if b then x.2.data else s.2)
    else s) (d, d.eword a)

/-- The value of a written byte, or the one given. -/
def newByte (ws : List (Nat × Byte)) (a : Nat) (old : Byte) : Byte := ((ws.find? (fun w => w.1 == a)).map Prod.snd).getD old

/-- The dirty bytes of a line, with their addresses. -/
def CLine.dirtyBytes (l : CLine) : List (Nat × Byte) :=
  ((List.range 64).filter (fun i => l.dirty.getLsbD i)).map (fun i => (64 * l.line + i, BitVec.ofNat 8 (l.data.toNat / 2 ^ (8 * i))))

/-- A shuttle's writes to the 8 aligned bytes at a that it has not made visible, oldest first: those of its write buffer, then those
of its data cache (12 R364). -/
def Shuttle.unseen (x : Shuttle) (a : Nat) : List (List (Nat × Byte)) :=
  (x.wbuf.map WbEnt.bytes ++ (x.dcache.filter (fun l => l.line == a / 64)).map CLine.dirtyBytes).filter
    (fun ws => ws.any (fun w => w.1 / 8 == a / 8))

/-- The 8 aligned bytes at a: those in memory, or those with what a shuttle has written and not yet made visible, never a
mix (12 R364). -/
def Dev.view8 (d : Dev) (mid a : Nat) : Dev × Nat :=
  let (d, lo) := d.wordSeen a
  let (d, hi) := d.wordSeen (a + 4)
  d.hubd.shuttles.foldl (fun (s : Dev × Nat) x =>
    if x.1 = mid then s
    else
      let (d, _, seen) := (x.2.unseen a).foldl (fun (r : Dev × Nat × Nat) ws =>
        let new := leNat ((List.range 8).map (fun i => newByte ws (a + i) (BitVec.ofNat 8 (r.2.1 / 2 ^ (8 * i)))))
        let (d, b) := r.1.flip
        (d, new, if b then new else r.2.2)) (s.1, s.2, s.2)
      (d, seen)) (d, lo.toNat + hi.toNat * 2 ^ 32)

/-- The 8-byte groups that hold n bytes from a. -/
def groups8 (a n : Nat) : List Nat := (List.range ((a % 8 + n + 7) / 8)).map (fun i => a / 8 * 8 + 8 * i)

/-- n bytes of HBM for a master. -/
def Dev.viewBytes (d : Dev) (mid a n : Nat) : Dev × List Byte :=
  let (d, bs) := (groups8 a n).foldl (fun (s : Dev × List Byte) g =>
    let (d, v) := s.1.view8 mid g
    (d, s.2 ++ leBytes 8 v)) (d, [])
  (d, (bs.drop (a % 8)).take n)

/-! ### Check-bit test mode (14 R419) -/

/-- The check bits of the word that a master reads, latched in the test mode. -/
def Dev.latchRaw (d : Dev) (mid a : Nat) : Dev := if d.fwOf mid then d.latchFw a else d

/-! ### Reads -/

/-- The panel of a beam memory is asleep or off. -/
def Dev.memAsleep (d : Dev) (a : Nat) : Bool := 2 ≤ d.panel (d.panelOf ((a - beamMemBase) / 0x100000))

/-- The mailbox bank of an address, 0 to 31, if it lies in one (05 R141). -/
def mailboxOf (a : Nat) : Option Nat :=
  if regionOf a = .cluster ∧ 30 ≤ bankOf a % 32 then some (2 * (bankOf a / 32) + (bankOf a % 32 - 30)) else none

/-- The words that hold n bytes from a. -/
def words4 (a n : Nat) : List Nat := (List.range ((a % 4 + n + 3) / 4)).map (fun i => a / 4 * 4 + 4 * i)

/-- n bytes of a mailbox bank through port S. -/
def Dev.mailboxRead (d : Dev) (bank a n : Nat) : Dev × List Byte :=
  let (d, bs) := (words4 a n).foldl (fun (s : Dev × List Byte) w =>
    let (d, rel) := s.1.mbxFreeRel bank (w % 0x20000 / 4)
    let (d, v) := d.portSRead bank (w % 0x20000 / 4) rel
    (d, s.2 ++ leBytes 4 v.toNat)) (d, [])
  (d, (bs.drop (a % 4)).take n)

/-- n bytes that lie in one 64-byte line of a memory are read: STATUS and the bytes. Every unit that is corrected or uncorrectable is
counted, and an uncorrectable one gives STATUS 4; a corrected granule of HBM is written back (13 R404). -/
def Dev.memRead (d : Dev) (mid a n : Nat) : Dev × Nat × List Byte :=
  let serve := fun (x : Dev × List Byte) => (x.1, stOK, x.2)
  let checked := fun (d : Dev) (f : Dev → Dev × List Byte) =>
    let d := (d.countRead a n).latchRaw mid a
    if d.memBad a n then
      let (d, bs) := (d.countUes a n).freeBytes n
      (d, stUE, bs)
    else serve (f d)
  match regionOf a with
  | .hbm =>
    let d := d.occAccess a
    if d.inCache a ∨ spillBase ≤ a ∨ !d.plat.hbmReady then serve (d.freeBytes n)
    else checked d (fun d => (d.settleAll a n).viewBytes mid a n)
  | .beamMem => if d.memAsleep a then serve (d.freeBytes n) else checked d (fun d => (d, d.ebytes a n))
  | .cluster => checked d (fun d => match mailboxOf a with
    | some b => d.mailboxRead b a n
    | none => (d, d.ebytes a n))
  | .tablet => checked d (fun d => (d, d.ebytes a n))
  | _ => serve (d.freeBytes n)

/-! ### Writes -/

/-- The coded units that bytes lie in. -/
def unitsOf (ws : List (Nat × Byte)) : List Nat := (ws.map (fun w => (eccUnit w.1).2.2)).eraseDups

/-- Every byte of a coded unit is written. -/
def wholeUnit (u : Nat) (ws : List (Nat × Byte)) : Bool := (List.range ((eccUnit u).1 / 8)).all (fun i => ws.any (fun w => w.1 == u + i))

/-- One coded unit takes its bytes: whole, or merged by a read-modify-write (13 R404). `fw`: the writer presents FIRMWARE. -/
def Dev.writeUnit (d : Dev) (fw : Bool) (u : Nat) (ws : List (Nat × Byte)) : Dev :=
  let n := (eccUnit u).1 / 8
  let d := if wholeUnit u ws then d else d.countRead u 1
  (d.setBytes u ((List.range n).map (fun i => newByte ws (u + i) (d.ebyte (u + i))))).encode fw u n

/-- An uncorrectable unit that a write would have to merge stays as it is (13 R404). -/
def Dev.writeLost (d : Dev) (u : Nat) : Dev :=
  let d := d.countUe u
  if u < hbmEnd then d.event bHBM (d.hbmStack u) 0x414 0 else d

/-- Coded units take their bytes, unless an uncorrectable one would have to be merged: then nothing changes (13 R385, R404). -/
def Dev.writeUnits (d : Dev) (fw : Bool) (ws : List (Nat × Byte)) : Dev × Nat :=
  let us := unitsOf ws
  let bad := us.filter (fun u => !wholeUnit u ws && d.memBad u 1)
  if bad.isEmpty then (us.foldl (fun d u => d.writeUnit fw u ws) d, stOK) else (bad.foldl Dev.writeLost d, stUE)

/-- The bytes of the word at a that are written, as a mask. -/
def byteMask (ws : List (Nat × Byte)) (a : Nat) : Nat := ofBits ((List.range 4).map (fun i => ws.any (fun w => w.1 == a + i)))

/-- Bytes of a mailbox bank written through port S, a word at a time. -/
def Dev.mailboxWrite (d : Dev) (fw : Bool) (bank : Nat) (ws : List (Nat × Byte)) : Dev :=
  ((ws.map (fun w => w.1 / 4 * 4)).eraseDups).foldl (fun d a =>
    let (d, rel) := d.mbxFreeRel bank (a % 0x20000 / 4)
    d.portSWrite fw bank (a % 0x20000 / 4) (byteMask ws a)
      (BitVec.ofNat 32 (leNat ((List.range 4).map (fun i => newByte ws (a + i) (d.ebyte (a + i)))))) rel) d

/-- Bytes of one 64-byte line of a memory are written: STATUS. `fw`: the writer presents FIRMWARE. -/
def Dev.memWrite (d : Dev) (fw : Bool) (a : Nat) (ws : List (Nat × Byte)) : Dev × Nat :=
  let units := fun (d : Dev) => d.writeUnits fw ws
  match regionOf a with
  | .hbm => if d.inCache a ∨ !d.plat.hbmReady then (d.occAccess a, stOK) else units (d.occAccess a)
  | .beamMem => if d.memAsleep a then (d, stOK) else units d
  | .cluster => match mailboxOf a with
    | some b => (d.mailboxWrite fw b ws, stOK)
    | none => units d
  | .tablet => units d
  | _ => (d, stOK)

/-- Bytes at rising addresses. -/
def pairsAt (a : Nat) (bs : List Byte) : List (Nat × Byte) := bs.zipIdx.map (fun x => (a + x.2, x.1))

/-- A 32-bit word of a memory is ORed (13 R385): STATUS and the word before. -/
def Dev.memOr (d : Dev) (mid a : Nat) (bits : Word) : Dev × Nat × Word :=
  let (d, st, bs) := d.memRead mid a 4
  let old : Word := BitVec.ofNat 32 (leNat bs)
  if st ≠ stOK then (if regionOf a = .hbm then d.event bHBM (d.hbmStack a) 0x414 0 else d, st, old)
  else
    let (d, st) := d.memWrite (d.fwOf mid) a (pairsAt a (leBytes 4 (old ||| bits).toNat))
    (d, st, old)

/-- What a unit of the hub writes, line by line through the gatekeeper. A line that is refused leaves its target unchanged, and the
unit goes on (13 R385, R391, R392). -/
def Dev.sinkWrite (d : Dev) (mid a : Nat) (bs : List Byte) : Dev :=
  (linePieces (bs.length / 64 + 2) a bs.length).foldl (fun d p =>
    let (d, st) := d.gate mid gkWRITE p.1
    if st ≠ stOK then d else (d.memWrite (d.fwOf mid) p.1 (pairsAt p.1 ((bs.drop (p.1 - a)).take p.2))).1) d

end Sys2Proof.Machine
end

