-- ==== Sys2Proof/Machine/Bay.lean ====
section
/-!
DEFINITION. The reload of a bay (08 R241 to R246): from the image cache or from a bay image, while the other beams beat.
-/

namespace Sys2Proof.Machine

/-- Logical beams of a bay. -/
def Loom.bayBeams (l : Loom) (b : Nat) : List Nat := (l.bay.filter (fun x => x.2 == b + 1)).map Prod.fst

/-- The panels of a bay's beams are woken (16 R478). -/
def Dev.wakeBay (d : Dev) (bay : Nat) : Dev := d.wakePanels ((d.loom.bayBeams bay).map d.panelOf) 2

/-- RELOAD_BAY (R241). `slot`: none for the image cache. Panels of the bay that sleep are woken (16 R478). -/
def Dev.reloadBay (d : Dev) (bay : Nat) (slot : Option Nat) : Dev :=
  let st := d.ts
  if (d.loom.bayBeams bay).isEmpty then d.ldrCmd 3 4 3
  else if !(st = tsArmed ∨ st = tsStarting ∨ st = tsBeat ∨ st = tsWaiting ∨ st = tsHalted) ∨ d.ldr.bay.isSome then d.ldrCmd 3 4 1
  else match slot with
    | none => ((d.ldrCmd 3 1 0).wakeBay bay).onLdr (fun r => { r with bay := some ⟨bay, none, 1, [], 0, 0⟩ })
    | some s =>
      if !d.slotUsed s then d.ldrCmd 3 4 2
      else ((d.ldrCmd 3 1 0).wakeBay bay).onLdr (fun r => { r with bay := some ⟨bay, some s, 1, [], 0, if (d.catEntry s 0).isSome then 0 else 1⟩ })

/-- The reload ends FAILED with event 0x122 and a reason of R246. -/
def Dev.bayFailed (d : Dev) (b : BaySt) (reason : Nat) : Dev :=
  ((d.onLdr (fun r => { r with bay := none })).loadEvent 0x122 (bayData b + reason * 2 ^ 16)).ldrCmd 3 5 0

/-- ABORT_BAY (R246). -/
def Dev.abortBay (d : Dev) : Dev :=
  match d.ldr.bay with
  | none => d.ldrCmd 4 4 1
  | some b =>
    if b.phase ≤ 2 then
      ((d.onLdr (fun r => { r with bay := none })).loadEvent 0x123 (bayData b)).ldrCmd 3 3 0
    else d.ldrCmd 4 4 1

/-- The entry of a bay image that is read: the primary, or the fallback where only it is in use. -/
def Dev.bayEntry (d : Dev) (s : Nat) : Option CatEntry :=
  match d.catEntry s 0 with
  | some c => some c
  | none => d.catEntry s 1

/-- The reason of R246 for a failure of header or table; of codes 0x101 to 0x105 a DESIGN CHOICE (assumption log 16). -/
def bayReason (code : Nat) : Nat :=
  if code = 0x102 ∨ code = 0x103 ∨ code = 0x104 then 1 else if code = 0x105 then 3 else 6

/-- The loom with the bay's beams as sections give them (R243). -/
def Loom.withBay (l : Loom) (ss : List Section) (depth : Nat) (gbs : List Nat) : Loom :=
  let mine := fun gb => gbs.contains gb
  { l with
    jac := sortBy Prod.fst (l.jac.filter (fun e => !mine (e.1 / 2048 / 33 / 64)) ++
      gbs.flatMap (fun gb => jacOf ss depth (SMap.get 0 l.need gb) gb))
    jacFlip := l.jacFlip.filter (fun e => !mine (e.1 / 2048 / 33 / 64))
    cacheBad := l.cacheBad.filter (fun e => !mine (if e.1 < tabCacheKey 0 then e.1 / 2048 / 33 / 64 else (e.1 - tabCacheKey 0) / 1024))
    tabFlip := l.tabFlip.filter (fun e => !mine (e.1 / 1024))
    initShed := sortBy Prod.fst (l.initShed.filter (fun e => !mine (e.1 / 2048 / 32 / 64)) ++ gbs.flatMap (shedOf ss))
    slots := sortBy Prod.fst (l.slots.filter (fun e => !mine (e.1 / 1024)) ++ gbs.flatMap (slotsOf ss)) }

/-- A flow also used outside the bay: by a stop of another beam, or, for a weft flow, by another device (R242). -/
def Loom.flowOutside (l : Loom) (gbs : List Nat) (s : Word64) : Bool :=
  if Slot.kind s = kWEFT_OUT ∨ Slot.kind s = kWEFT_IN then true
  else l.entries.any (fun e => !gbs.contains (e.1 / 1024) && Slot.kind e.2 ≤ 1 && Slot.ring e.2 == Slot.ring s &&
    Slot.flow e.2 == Slot.flow s)

/-- Border entries agree in KIND, RING, FLOW, LINK and PICK (R242). -/
def Loom.borderOk (old new : Loom) (gbs : List Nat) : Bool :=
  let border := fun (l : Loom) => l.entries.filter (fun e => gbs.contains (e.1 / 1024) && old.flowOutside gbs e.2)
  let same := fun (a b : Word64) => Slot.valid a && Slot.valid b && Slot.kind a == Slot.kind b && Slot.ring a == Slot.ring b &&
    Slot.flow a == Slot.flow b && Slot.link a == Slot.link b && Slot.pick a == Slot.pick b
  (border old ++ border new).all (fun e => same (SMap.get 0 old.slots e.1) (SMap.get 0 new.slots e.1))

/-- Slack latencies of a bay image's beams; the loaded ones of the others. -/
def Dev.bayLat (d : Dev) (ss : List Section) (gbs : List Nat) (hn : Nat) : Nat :=
  if gbs.contains (hn / 64) then hcfgLat ss hn + 2 else d.latOf hn

/-- In PACED mode the condition of 06 R165 holds for the new critical path (R242). -/
def Dev.bayPaced (d : Dev) (l : Loom) (ss : List Section) (gbs : List Nat) : Bool :=
  d.fld F.TRD_CTL_MODE != 1 ||
    d.armNeed (l.critical (d.bayLat ss gbs) Config.step d.depth) (if Config.step = 0 then 105 else 100) ≤ d.fld F.TRD_PERIOD_PERIOD

/-- Where a bay image of this section table is staged (R229, R242). -/
def Dev.bayRoom (d : Dev) (t : List SecEntry) : Option Nat :=
  placeBelow (d.fld F.LDR_CACHE_BASE_BASE * 256) (cacheSize t)
    (deepRanges (devSec ((d.ldr.cache.map Image.sections).getD []) tyDEEP) d.ldr.base)

/-- What a bay image gives: its sections, or the reason it fails (R242, R246). -/
def Dev.tryBay (d : Dev) (m : List Byte) (c : CatEntry) (bay : Nat) : Except Nat (List Section) :=
  let gbs := d.loom.bayBeams bay
  let old := (d.ldr.cache.map Image.header).getD []
  match d.readTable m c (some bay) with
  | .error f => .error (bayReason f.code)
  | .ok (h, t) =>
    if H.baseId h ≠ H.imageId old then .error 1
    else if H.depth h ≠ d.depth ∨ (h.drop 80).take 128 ≠ (old.drop 80).take 128 then .error 2
    else if t.any (fun e => !(perBeam e.typ && gbs.contains e.scope)) ∨
        gbs.any (fun gb => [tyHEDDLE, tyDRAW, tyHCFG].any (fun ty => !t.any (fun e => e.typ == ty && e.scope == gb))) then .error 3
    else match checkTable h t with
      | .error f => .error (bayReason f.code)
      | .ok _ =>
        if (d.bayRoom t).isNone then .error 8
        else match readSections m c 0 t with
          | .error _ => .error 6
          | .ok ss => match checkFooter m c (H.total h) with
            | .error _ => .error 6
            | .ok _ =>
              let l := d.loom.withBay ss d.depth gbs
              let hns := l.mappedHns.filter (fun hn => gbs.contains (hn / 64))
              match checks (l.checkRoutes d.depth hns ++ l.checkSlots d.depth (fun gb => gbs.contains gb) ++ l.checkReads d.depth hns) with
              | .error _ => .error 7
              | .ok _ =>
                if !d.loom.borderOk l gbs then .error 4
                else if !d.bayPaced l ss gbs then .error 5
                else .ok (ss.filter (fun s => perBeam s.typ))

/-- The raw content of a bay image lies in HBM below the image cache from here on (R242): which of its bytes lies where is open, and the
bytes of that range take free values (assumption log 15). -/
def Dev.bayStage (d : Dev) (m : List Byte) (c : CatEntry) (bay : Nat) : Dev :=
  match d.readTable m c (some bay) with
  | .error _ => d
  | .ok (_, t) => match d.bayRoom t with
    | none => d
    | some base =>
      let n := 256 + 32 * t.length + (t.map SecEntry.raw).sum
      let (d, bs) := d.freeBytes n
      ((d.setBytes base bs).encodeFw base n).occRange base n

/-- The bay's sections of the image cache. -/
def Dev.cacheBay (d : Dev) (bay : Nat) : List Section :=
  match d.ldr.cache with
  | none => []
  | some img => img.sections.filter (fun s => perBeam s.typ && (d.loom.bayBeams bay).contains s.scope)

/-- The source is staged and checked (R243 event 2); in ARMED and HALTED the leave point follows at once. `m`: the bytes of
the medium from the bay image's LBA on. -/
def Dev.bayStaged (d : Dev) (m : List Byte) : Dev :=
  match d.ldr.bay with
  | none => d
  | some b =>
    if b.phase ≠ 1 then d
    else
      let got : Except Nat (List Section) := match b.slot with
        | none => .ok (d.cacheBay b.bay)
        | some s => match d.bayEntry s with
          | none => .error 6
          | some c => d.tryBay m c b.bay
      let staged : Bool := match got with
        | .error r => decide (4 ≤ r ∧ r ≤ 7)
        | .ok _ => true
      let d := match b.slot.bind d.bayEntry with
        | some c => if staged then d.bayStage m c b.bay else d
        | none => d
      match got with
      | .error r => d.bayFailed b r
      | .ok ss =>
        let d := d.onLdr (fun r => { r with bay := some { b with phase := 2, staged := ss } })
        if d.ts = tsArmed ∨ d.ts = tsHalted then d.bayLeave else d

/-- An eMMC command fails: retried up to 3 times, then the load's entry or the bay reload fails (R230, R246). `again`: it is the command
that failed last. -/
def Dev.emmcRetry (d : Dev) (status : Nat) (again : Bool) : Dev :=
  match d.ldr.load with
  | some x => if x.ready.isSome then d else d.emmcLoad (if again then x else { x with retries := 0 }) status
  | none => match d.ldr.bay with
    | none => d
    | some b =>
      if b.phase ≠ 1 ∨ b.slot.isNone then d
      else
        let n := if again then b.retries else 0
        if n < 3 then d.onLdr (fun r => { r with bay := some { b with retries := n + 1 } })
        else d.bayFailed b 6

/-- The bay's sections of the image cache are replaced (R243, R245). -/
def Image.withBay (i : Image) (gbs : List Nat) (ss : List Section) : Image :=
  { i with sections := i.sections.filter (fun s => !(perBeam s.typ && gbs.contains s.scope)) ++ ss }

/-- The bay's content is written for its beams only, and it waits for the rejoin point (R243, R245). DESIGN CHOICE, assumption log 12:
LDR_CPATH shows the picks of the new content from here on. -/
def Dev.bayWritten (d : Dev) : Dev :=
  match d.ldr.bay with
  | none => d
  | some b =>
    let gbs := d.loom.bayBeams b.bay
    if b.phase ≠ 3 ∨ gbs.any (fun gb => !d.panelUp (d.panelOf gb)) then d
    else
      let mine := fun gb => gbs.contains gb
      let ss := b.staged
      let l := d.loom.withBay ss d.depth gbs
      let shed := initSheds (l.initShed.filter (fun e => mine (e.1 / 2048 / 32 / 64)))
      let d := d.onLoom (fun _ => { l with
        shed := sortBy Prod.fst (l.shed.filter (fun e => !mine (e.1 / 2048 / 2 / 32 / 64)) ++ shed)
        shedFlip := l.shedFlip.filter (fun e => !mine (e.1 / 64 / 2048)), checkFlip := l.checkFlip.filter (fun e => !mine (e.1 / 64 / 64))
        dly := l.dly.filter (fun e => !mine (e.1 / 2 / 2048 / 64)), mergeNext := l.mergeNext.filter (fun e => !mine (e.1 / 64))
        lastExt := l.lastExt.filter (fun e => !mine (e.1 / 1024)), lines := l.lines.filter (fun e => !mine e.1)
        stale := l.stale.filter (fun e => !mine e.1) })
      let d := gbs.foldl (fun d gb => (d.initHcfg ss (SMap.get 0 d.loom.need gb) gb).initBeamMem ss gb) d
      let d := ((d.loadPuts mine).cacheAccess (cacheLen ss)).computePath d.depth
      d.onLdr (fun r => { r with cache := r.cache.map (fun i => i.withBay gbs ss), bay := some { b with phase := 4, staged := [] } })

end Sys2Proof.Machine
end

