-- ==== Sys2Proof/Machine/Power.lean ====
section
/-!
DEFINITION. Power states of panels and of the device, panel voltage, the trace FIFOs and sink (15 R448 to R456, R463 to R467;
16 R476 to R478, R482).
-/

namespace Sys2Proof.Machine

/-- The platform changed. -/
def Dev.onPlat (d : Dev) (f : Plat → Plat) : Dev := { d with plat := f d.plat }

/-- A power state changed (R470): which 0 to 3 a panel, 4 the device. -/
def Dev.pwrEvent (d : Dev) (which st cause : Nat) : Dev :=
  d.event bPWR 0 0xA01 (which % 16 + st % 16 * 16 + cause % 16 * 256)

/-! ### Panel voltage (R456) -/

/-- VMAX and VMIN as they act. -/
def Dev.vmax (d : Dev) (p : Nat) : Nat := min 40 (d.fld (F.PWR_PANEL_CFG_VMAX.at p))
def Dev.vmin (d : Dev) (p : Nat) : Nat := min (d.vmax p) (d.fld (F.PWR_PANEL_CFG_VMIN.at p))

/-- Fields of a rule (R461). -/
def Rule.en (r : Word64) : Bool := bitN r.toNat 63
def Rule.action (r : Word64) : Nat := bitsN r.toNat 62 59
def Rule.insrc (r : Word64) : Bool := bitN r.toNat 58
def Rule.input (r : Word64) : Nat := bitsN r.toNat 57 50
def Rule.below (r : Word64) : Bool := bitN r.toNat 49
def Rule.persist (r : Word64) : Nat := bitsN r.toNat 48 45
def Rule.hyst (r : Word64) : Int := Int.ofNat (bitsN r.toNat 44 32)
def Rule.thresh (r : Word64) : Int := sgn 16 (bitsN r.toNat 31 16)
def Rule.stretch (r : Word64) : Bool := bitN r.toNat 15
def Rule.vcap (r : Word64) : Nat := bitsN r.toNat 5 0
def Rule.mask (r : Word64) : Nat := bitsN r.toNat 3 0
def acWAKE : Nat := 1
def acTHROTTLE : Nat := 2
def acALERT : Nat := 3
def acPARK : Nat := 4
def acSLEEP : Nat := 5
def acSHUTDOWN : Nat := 6

/-- Rule r in force. -/
def Dev.rule (d : Dev) (r : Nat) : Word64 := SMap.get 0 d.plat.watch.rules r
def Dev.fired (d : Dev) (r : Nat) : Bool := (d.fld F.WCH_STATUS_FIRED).testBit r
/-- THROTTLE rules that have fired. -/
def Dev.throttles (d : Dev) : List Nat := (List.range 32).filter (fun r => d.fired r && Rule.action (d.rule r) == acTHROTTLE)

/-- The cap: the lowest VCAP among fired THROTTLE rules, or 40. -/
def Dev.vcap (d : Dev) : Nat := d.throttles.foldl (fun m r => min m (Rule.vcap (d.rule r))) 40

/-- A sensor has been above 105 °C in two samples on end: the codes are forced to VMIN (R457). -/
def Dev.tooHot (d : Dev) : Bool := d.plat.watch.hot.any (fun x => 2 ≤ x.2)

/-- The code of a panel brought within its bounds; `want`: the code before them. -/
def Dev.setCode (d : Dev) (p want : Nat) : Dev :=
  d.setFld (F.PWR_PANEL_V_CODE.at p)
    (if d.tooHot then d.vmin p else min (min (d.vmax p) d.vcap) (max (d.vmin p) want))

/-- Code 30 is driven from event 3 of R210 to event 12 (17 R497). -/
def Dev.codeHeld (d : Dev) : Bool := decide (d.plat.stage < 12)

/-- The codes of all panels that have their supply follow the cap, once event 12 of R210 is past (17 R497). -/
def Dev.recap (d : Dev) : Dev :=
  if d.codeHeld then d
  else (List.range 4).foldl (fun d p => if 2 ≤ d.panel p then d else
    if d.tooHot ∨ d.vcap < d.fld (F.PWR_PANEL_V_CODE.at p) then d.setCode p (d.fld (F.PWR_PANEL_V_CODE.at p)) else d) d

/-- A panel measures its tp, in ps, and steps its code (R456), which stays 30 until event 12 of R210 is past (17 R497). -/
def Dev.adaptTick (d : Dev) (p tp : Nat) : Dev :=
  if 4 ≤ p ∨ 2 ≤ d.panel p then d
  else if d.fld (F.PWR_PANEL_CFG_ADAPT.at p) = 0 then (if d.codeHeld then d else d.setCode p (d.vmax p))
  else
    let d := d.setFld (F.PWR_PANEL_V_TP.at p) (min tp 4095)
    if d.codeHeld then d else
    let code := d.fld (F.PWR_PANEL_V_CODE.at p)
    let target := d.fld (F.PWR_PANEL_CFG_TP_TARGET.at p)
    d.setCode p (if tp + 40 < target then code - 1 else if target < tp then code + 1 else code)

/-- PEN[p] is high while VDD_PANEL[p] is wanted: from the begin of a wake or of an entry to SLEEP on, and outside OFF; while WRST_N is low
it keeps its value (17 R491, R497). -/
def Dev.pen (d : Dev) (p : Nat) : Bool :=
  (if d.plat.wrst then d.panel p != 3 || d.plat.waking.testBit p || d.plat.sleeping.testBit p else !d.plat.penLow.testBit p) &&
    d.fld F.PWR_STATUS_DEV != 2

/-! ### The save area (R450, R451) -/

/-- n words of memory take values that the spec leaves open (assumption log 2). -/
def Dev.freeMem (d : Dev) (a : Nat) : Nat → Dev
  | 0 => d
  | n + 1 => Dev.freeMem ({ d.setWord a (Config.freeWord d.freeCtr) with freeCtr := d.freeCtr + 1 }) (a + 4) n

/-- Addresses of a beam's shed, beam memory and maps in the save area (R450). -/
def Dev.saveShed (d : Dev) (gb : Nat) : Nat := d.saveBase + d.panelOf gb * 0x4000000 + d.loom.pgb gb % 32 * 0x80000
def Dev.saveMem (d : Dev) (gb : Nat) : Nat := d.saveBase + d.panelOf gb * 0x4000000 + 0x1000000 + d.loom.pgb gb % 32 * 0x100000
def Dev.saveMaps (d : Dev) (gb : Nat) : Nat := d.saveBase + d.panelOf gb * 0x4000000 + 0x3000000 + d.loom.pgb gb % 32 * 0x1000

/-- n bytes of memory copied from a to b, what b held gone; marks of the codes at b gone too. -/
def Dev.copyMem (d : Dev) (a b n : Nat) : Dev :=
  (d.mem.filter (fun c => a ≤ c.1 && c.1 < a + n)).foldl (fun d c => d.setByte (b + (c.1 - a)) c.2) (d.wipe b (b + n))

/-- The accesses that a save or a restore of a beam makes (05 R149). -/
def Dev.occSave (d : Dev) (gb : Nat) : Dev :=
  ((d.occRange (d.saveShed gb) 0x80000).occRange (d.saveMem gb) 0x100000).occRange (d.saveMaps gb) 0x1000

/-- A beam's committed state is saved. The layout of the 4 KiB of maps, spare state and DRW_HCFG is the device's own: its bytes are free
values (R450; assumption log 15). -/
def Dev.saveBeam (d : Dev) (gb : Nat) : Dev :=
  let bank := 1 - d.fld F.LOM_STATUS_BANK
  let s := d.saveShed gb
  let d := d.loom.shed.foldl (fun d e =>
    let hk := e.1 / 2048 / 2
    if hk / 2048 = gb ∧ e.1 / 2048 % 2 = bank then
      let bit := hk % 2048 * 2048 + e.1 % 2048
      d.setByte (s + bit / 8) (d.byte (s + bit / 8) ||| BitVec.ofNat 8 (2 ^ (bit % 8)))
    else d) (d.wipe s (s + 0x80000))
  let d := d.copyMem (beamMemAddr gb 0) (d.saveMem gb) 0x100000
  let x : SavedBeam := ⟨d.freeCtr, (List.range 64).map (fun h => d.reg (instKey R.DRW_HCFG (64 * gb + h)))⟩
  (((d.wipe (d.saveMaps gb) (d.saveMaps gb + 0x1000)).freeMem (d.saveMaps gb) 1024).occSave gb).onPlat (fun y => { y with
    saved := sortBy Prod.fst ((gb, x) :: SMap.del y.saved gb) })

/-- What a panel that switches its logic off loses (R448). The jacquard keeps its words in SLEEP. -/
def Dev.loseBeam (d : Dev) (gb : Nat) : Dev :=
  let a := beamMemAddr gb 0
  (d.wipe a (a + 0x100000)).onLoom (fun l => { l with
    shed := l.shed.filter (fun e => e.1 / 2048 / 2 / 2048 != gb), lines := SMap.del l.lines gb
    shedFlip := l.shedFlip.filter (fun e => e.1 / 64 / 2048 != gb), checkFlip := l.checkFlip.filter (fun e => e.1 / 64 / 64 != gb)
    tabFlip := l.tabFlip.filter (fun e => cacheBeam (tabCacheKey e.1) != gb)
    stale := l.stale.filter (fun e => e.1 != gb) })

/-- Logical beams on a panel. -/
def Dev.beamsOn (d : Dev) (p : Nat) : List Nat := d.loom.mappedBeams.filter (fun gb => d.panelOf gb == p)

/-- Every logical beam whose physical beam lies on a panel, mapped or not. -/
def Dev.allOn (d : Dev) (p : Nat) : List Nat := (List.range 128).filter (fun gb => d.panelOf gb == p)

/-- Rolling-test steps on a panel are abandoned (16 R477). -/
def Dev.rollSleep (d : Dev) (p : Nat) : Dev := d.rollAbandon ((List.range 32).map (32 * p + ·))

/-- A panel has entered SLEEP: its part of the save area is written, then its logic is off (R451). -/
def Dev.panelSlept (d : Dev) (p : Nat) : Dev :=
  if 4 ≤ p ∨ !d.plat.sleeping.testBit p then d
  else
    let d := d.onPlat (fun x => { x with sleeping := offBit x.sleeping p })
    let d := (d.beamsOn p).foldl Dev.saveBeam d
    let d := (d.allOn p).foldl Dev.loseBeam d
    let d := ((d.rollSleep p).setPanel p 2).setFld (F.PWR_PANEL_V_CODE.at p) (d.vmin p)
    d.pwrEvent p 2 (SMap.get 0 d.plat.panelCause p)

/-- A panel enters OFF: it keeps nothing (R448). -/
def Dev.panelOff (d : Dev) (p cause : Nat) : Dev :=
  let d := d.onPlat (fun x => { x with sleeping := offBit x.sleeping p, waking := offBit x.waking p })
  let gone := d.allOn p
  let d := (gone.foldl Dev.loseBeam d).onLoom (fun l => { l with
    jacFlip := l.jacFlip.filter (fun e => !gone.contains (e.1 / 2048 / 33 / 64)) })
  (((d.rollSleep p).setPanel p 3).setFld (F.PWR_PANEL_V_CODE.at p) 0).pwrEvent p 3 cause

/-- A saved bit string as shed entries of both banks (R451). -/
def savedShed (gb : Nat) (bytes : SMap Byte) : SMap Bool :=
  bytes.flatMap (fun c => (List.range 8).flatMap (fun i =>
    if c.2.toNat.testBit i then
      let bit := c.1 * 8 + i
      let hk := 2048 * gb + bit / 2048
      [(shedKey hk 0 (bit % 2048), true), (shedKey hk 1 (bit % 2048), true)]
    else []))

/-- The 4 KiB of maps read as they were saved. -/
def Dev.mapsKept (d : Dev) (gb : Nat) (x : SavedBeam) : Bool :=
  (List.range 1024).all (fun i => d.word (d.saveMaps gb + 4 * i) == Config.freeWord (x.ctr + i))

/-- What a foreign write into the 4 KiB of maps restores (R450): the layout is open, so harness and heddle maps, spares and DRW_HCFG of the
beam take free values (assumption log 15). -/
def Dev.freeMaps (d : Dev) (gb : Nat) : Dev :=
  let n := d.freeCtr
  let v := fun i => (Config.freeWord (n + i)).toNat
  let pb := d.loom.pgb gb
  let d := d.onLoom (fun l => { l with
    hmap := (List.range 64).foldl (fun m h => SMap.put 0 m (64 * gb + h) (v h % 66 + 1)) l.hmap
    spare := (List.range 66).foldl (fun m h => SMap.put false m (66 * pb + h) (Config.freeBit (n + 64 + h))) l.spare
    repl := (List.range (66 * 32)).foldl (fun m i => SMap.put 0 m (32 * 66 * pb + i) (v (256 + i) % 34 + 1)) l.repl })
  let d := (List.range 64).foldl (fun d h => d.setReg (instKey R.DRW_HCFG (64 * gb + h)) (BitVec.ofNat 32 (v (4096 + h) % 4 + v (4096 + h) / 4 % 4 * 16))) d
  { d with freeCtr := n + 8192 }

/-- Maps, spare state and DRW_HCFG of a beam are restored (R451): as saved, unless the area has been written. -/
def Dev.restoreMaps (d : Dev) (gb : Nat) : Dev :=
  match d.plat.saved.find? (fun e => e.1 == gb) with
  | none => d
  | some (_, x) =>
    let d := if d.mapsKept gb x then x.hcfg.zipIdx.foldl (fun d v => d.setReg (instKey R.DRW_HCFG (64 * gb + v.2)) v.1) d
      else d.freeMaps gb
    d.onPlat (fun y => { y with saved := SMap.del y.saved gb })

/-- A beam's committed state is restored from the save area (R451). -/
def Dev.restoreBeam (d : Dev) (gb : Nat) : Dev :=
  let s := d.saveShed gb
  let bytes := (d.mem.filter (fun c => s ≤ c.1 && c.1 < s + 0x80000)).map (fun c => (c.1 - s, d.ebyte c.1))
  let d := d.onLoom (fun l => { l with
    shed := sortBy Prod.fst (l.shed.filter (fun e => e.1 / 2048 / 2 / 2048 != gb) ++ savedShed gb bytes)
    lines := SMap.del l.lines gb, stale := l.stale.filter (fun e => e.1 != gb) })
  ((d.copyMem (d.saveMem gb) (beamMemAddr gb 0) 0x100000).occSave gb).restoreMaps gb

/-- The save area of a beam holds an uncorrectable granule. -/
def Dev.saveBad (d : Dev) (gb : Nat) : Option Nat :=
  let in' := fun a => (d.saveShed gb ≤ a && a < d.saveShed gb + 0x80000) || (d.saveMem gb ≤ a && a < d.saveMem gb + 0x100000) ||
    (d.saveMaps gb ≤ a && a < d.saveMaps gb + 0x1000)
  ((d.bad.map Prod.fst ++ d.chk.map Prod.fst).filter (fun a => in' a && d.memCheck a == .uncorrectable)).head?

/-- The image cache's copy of a table word of the beams of a panel is uncorrectable: the wake rewrites those words from it (R451). -/
def Dev.cacheLost (d : Dev) (p : Nat) : Bool := d.loom.cacheBad.any (fun e => decide (tabCacheKey 0 ≤ e.1) && e.2 && (d.beamsOn p).contains (cacheBeam e.1))

/-- A panel has woken (R449, R451). `cacheBad`: the restore met an uncorrectable image-cache word. A START that waited for it
is decided. -/
def Dev.panelWoke (d : Dev) (p : Nat) (cacheBad : Bool) : Dev :=
  if 4 ≤ p ∨ d.plat.sleeping.testBit p ∨ !d.plat.waking.testBit p then d
  else
    let was := d.panel p
    let cause := SMap.get 0 d.plat.panelCause p
    let d := d.onPlat (fun x => { x with waking := offBit x.waking p })
    if was < 2 then d.startAfterWake
    else
      let d := d.setPanel p 1
      if was = 3 ∨ (d.beamsOn p).isEmpty then (d.pwrEvent p 1 cause).startAfterWake
      else
        let ue := (d.beamsOn p).findSome? d.saveBad
        if cacheBad ∨ d.cacheLost p ∨ ue.isSome then
          let d := match ue with
            | some a => d.hbmUe a
            | none => d
          (d.dropImage 0x13D).pwrEvent p 1 4
        else ((((d.beamsOn p).foldl Dev.restoreBeam d).pwrEvent p 1 cause).rollBegin).startAfterWake

/-- VDD_PANEL is not in range 10 ms after the wake began: the panel's slots are unusable (R449). A bay reload that waits for it
ends FAILED, with the bay as before (16 R478); a START that waits for it is refused. -/
def Dev.panelWakeTimeout (d : Dev) (p : Nat) : Dev :=
  if 4 ≤ p ∨ !d.plat.waking.testBit p then d
  else
    let d := d.onPlat (fun x => { x with waking := offBit x.waking p, panelBad := orBit x.panelBad p })
    let d := if d.panel p = 3 then d.setFld (F.PWR_PANEL_V_CODE.at p) 0 else d
    let d := match d.ldr.bay with
      | some b =>
        if b.phase < 4 ∧ (d.loom.bayBeams b.bay).any (fun gb => d.panelOf gb == p) then
          (d.setReg R.LDR_BAY_STATUS (BitVec.ofNat 32 (offBit (d.reg R.LDR_BAY_STATUS).toNat b.bay))).bayFailed b 6
        else d
      | none => d
    match d.trd.startOwed with
    | some x =>
      if d.panelHolds p then
        let d := (d.onTrd (fun t => { t with startOwed := none })).cmdStatus 1 4 1
        match x.2 with
        | some y => d.peerReply y.1 2 y.2.1 1
        | none => d
      else d
    | none => d

/-! ### Panel requests (R449) -/

/-- PWR_PANEL_REQ asks a panel for SLEEP. -/
def Dev.sleepRequest (d : Dev) (mid p : Nat) : Dev :=
  if !d.sleepOk p false then d.access 0x806 mid R.PWR_PANEL_REQ
  else (d.setFld (F.PWR_PANEL_REQ_REQ.at p) 2).askSleep p 0

/-- PWR_PANEL_REQ asks a panel for OFF. -/
def Dev.offRequest (d : Dev) (mid p : Nat) : Dev :=
  if !d.sleepOk p true then d.access 0x806 mid R.PWR_PANEL_REQ
  else
    let d := d.setFld (F.PWR_PANEL_REQ_REQ.at p) 3
    if d.panel p = 3 ∧ !d.plat.waking.testBit p then d else d.panelOff p 0

/-- PWR_PANEL_REQ returns a panel to RUN and IDLE; `req` 0 or 1. -/
def Dev.activeRequest (d : Dev) (p req : Nat) : Dev := (d.setFld (F.PWR_PANEL_REQ_REQ.at p) req).wakePanels [p] 0

/-! ### Trace FIFOs and sink (R465 to R467) -/

/-- The next event's packet goes into its cluster's FIFO, or is dropped when it is full (R465). -/
def Dev.traceIn (d : Dev) : Dev :=
  match d.hubd.trc.owed with
  | [] => d
  | (c, main, p) :: t =>
    let q := SMap.get [] d.hubd.trc.fifo c
    if q.length < 256 then d.onTrc (fun x => { x with owed := t, fifo := SMap.put [] x.fifo c (q ++ [p]) })
    else if main ∧ d.fld F.TRC_CTL_STALL = 1 then d
    else (d.onTrc (fun x => { x with owed := t, lost := SMap.put 0 x.lost c (satAdd 32 (SMap.get 0 x.lost c) 1) })).addFld F.TRC_LOST_COUNT 1

/-- The packet with the sink's SEQ (R463). -/
def withSeq (p : BitVec 128) (seq : Nat) : BitVec 128 := p ||| BitVec.ofNat 128 (seq % 65536 * 2 ^ 48)

/-- A packet leaves a cluster's FIFO; one that has lost packets and has room again gets OVERFLOW (R465). -/
def Dev.traceTake (d : Dev) (c : Nat) : Dev × Option (BitVec 128) :=
  match SMap.get [] d.hubd.trc.fifo c with
  | [] => (d, none)
  | p :: t =>
    let lost := SMap.get 0 d.hubd.trc.lost c
    let t := if lost ≠ 0 then t ++ [tracePacket d.tb.tb tpOVERFLOW 0xFF (c % 256 + lost * 2 ^ 32)] else t
    (d.onTrc (fun x => { x with fifo := SMap.put [] x.fifo c t, lost := SMap.del x.lost c }), some p)

/-- One packet into the HBM buffer (R467), as a write of the trace sink (13 R389). -/
def Dev.traceHbm (d : Dev) (p : BitVec 128) : Dev :=
  let size := 2 ^ d.fld F.TRC_CTL_SIZE
  let base := d.fld F.TRC_BUF_BASE_BASE * 256 / size * size
  let a := base + d.fld F.TRC_WPTR_BYTES % size
  let d := d.sinkWrite midTRC a (leBytes 16 (withSeq p d.hubd.trc.seqHbm).toNat)
  (d.setFld F.TRC_WPTR_BYTES (d.fld F.TRC_WPTR_BYTES + 16)).onTrc (fun x => { x with seqHbm := (x.seqHbm + 1) % 65536 })

/-- A message waits for the end of its port's pause (10 R306). -/
def Dev.holds (d : Dev) (m : OutMsg) : Bool := decide (m.iface < 2) && SMap.get 0 d.eth.paused m.iface != 0

/-- What the device sends: the record of its last output (assumption log 6). A paused port keeps its messages (10 R306). -/
def Dev.send (d : Dev) (ms : List OutMsg) : Dev :=
  { d with eth := { d.eth with sent := ms.filter (fun m => !d.holds m), held := d.eth.held ++ ms.filter d.holds } }

/-- The VLAN tag of a port's frames (10 R307). -/
def Dev.vlanOf (d : Dev) (port : Nat) : Option Nat :=
  (((d.charter.bind Charter.authority).map Authority.ports).getD [])[port]?.bind (fun c => if c.tagged then some c.vid else none)

/-- The loom control UDP port (10 R307). -/
def Dev.udpPort (d : Dev) : Nat :=
  let p := ((d.charter.bind Charter.authority).map Authority.udpPort).getD 0
  if p = 0 then 7140 else p

/-- Packets into one datagram (R467). -/
def Dev.traceGram (d : Dev) (ps : List (BitVec 128)) : Dev :=
  let n := d.hubd.trc.seqEth
  let body := (ps.zipIdx.flatMap (fun x => leBytes 16 (withSeq x.1 (n + x.2)).toNat))
  let head := leBytes 2 0x5254 ++ leBytes 1 1 ++ leBytes 1 ps.length ++ leBytes 4 d.hubd.trc.seqGram ++ leBytes 8 0
  (d.send [⟨d.fld F.TRC_CTL_PORT, d.vlanOf (d.fld F.TRC_CTL_PORT), (d.reg R.TRC_ETH_ADDR).toNat, d.fld F.TRC_ETH_PORT_PORT, d.udpPort, head ++ body⟩]).onTrc
    (fun x => { x with seqEth := (x.seqEth + ps.length) % 65536, seqGram := (x.seqGram + 1) % 2 ^ 32 })

/-- Packets of the FIFOs of a list of clusters, in its order. -/
def Dev.traceDrain (d : Dev) : List Nat → Dev × List (BitVec 128)
  | [] => (d, [])
  | c :: t =>
    let (d, p) := d.traceTake c
    let (d, ps) := d.traceDrain t
    (d, (p.map (fun x => [x])).getD [] ++ ps)

/-- Trace packets drain to the sink: at most 64, from the clusters of the list in turn (R466, R467). -/
def Dev.traceSink (d : Dev) (cs : List Nat) : Dev :=
  let (d, ps) := d.traceDrain (cs.take 64)
  let d := if ps.isEmpty then d else if d.fld F.TRC_CTL_SINK = 1 then d.traceGram ps else ps.foldl Dev.traceHbm d
  cs.eraseDups.foldl Dev.sleepCheck d

/-- Every packet reaches the sink (R453 event 4). -/
def Dev.traceFlush (d : Dev) : Dev :=
  let d := (List.range d.hubd.trc.owed.length).foldl (fun d _ => d.traceIn) d
  (List.range 16).foldl (fun d c => (List.range 5).foldl (fun d _ =>
    d.traceSink (List.replicate (min 64 (SMap.get [] d.hubd.trc.fifo c).length) c)) d) d

/-! ### Device LOW, RUN and OFF (R453 to R455) -/

/-- A bobbin channel ends; its status stays until the next GO (13 R401, R402). -/
def Dev.bobEnd (d : Dev) (c status cause : Nat) : Dev :=
  let d := ((d.setFld (F.BOB_CH_STATUS_STATE.at c) 4).setFld (F.BOB_CH_STATUS_STATUS.at c) status).setFld (F.BOB_CH_STATUS_CAUSE.at c) cause
  d.fireBobbin c

/-- A channel runs. -/
def Dev.bobBusy (d : Dev) (c : Nat) : Bool := let s := d.fld (F.BOB_CH_STATUS_STATE.at c); 1 ≤ s && s ≤ 3

/-- The treadle and the units that R453 names let the device leave RUN. -/
def Dev.devQuiet (d : Dev) : Bool :=
  (d.ts == tsIdle || d.ts == tsArmed || d.ts == tsHalted) && d.ldr.load.isNone && d.ldr.bay.isNone && d.ldr.replace.isNone &&
    d.rel.bistRun.isNone

/-- Entry to LOW begins: the scheduler dispatches no more (R453). -/
def Dev.lowBegin (d : Dev) : Dev :=
  if d.fld F.PWR_STATUS_DEV = 0 then (d.setFld F.PWR_STATUS_TRANS 1).onPlat (fun x => { x with trans := 1 }) else d

/-- Exit from LOW begins: panels in SLEEP wake (R454). Cause as in 0xA01. -/
def Dev.runBegin (d : Dev) (cause : Nat) : Dev :=
  if d.fld F.PWR_STATUS_DEV = 1 then
    ((d.setFld F.PWR_STATUS_TRANS 1).onPlat (fun x => { x with trans := 2, transCause := cause })).wakePanels
      ((List.range 4).filter (fun p => d.panel p == 2)) cause
  else d

/-- GPIO in their SAFE states, transmitters in electrical idle, every panel off, DEV = OFF (R455). -/
def Dev.enterOff (d : Dev) (cause : Nat) : Dev :=
  let d := d.onPlat (fun x => { x with gpioStage := 1, txIdle := true, trans := 0, devOwed := [], sleepOwed := [] })
  let d := (List.range 4).foldl (fun d p => if d.panel p = 3 then d else d.panelOff p cause) d
  ((d.setFld F.PWR_STATUS_DEV 2).setFld F.PWR_STATUS_TRANS 0).pwrEvent 4 2 cause

/-- A request for a device state that takes effect now (R453 to R455); from OFF there is no return but PORST_N (R452). -/
def Dev.devRequest (d : Dev) (req cause : Nat) : Dev :=
  if d.fld F.PWR_STATUS_DEV = 2 then d
  else if req = 1 then d.lowBegin else if req = 2 then d.enterOff cause else d.runBegin cause

/-- A request for a device state now, or after the transition that runs (R454). -/
def Dev.devAsk (d : Dev) (req cause : Nat) : Dev :=
  if d.plat.trans ≠ 0 then d.onPlat (fun x => { x with devOwed := x.devOwed ++ [(req, cause)] }) else d.devRequest req cause

/-- A transition has ended: what was asked for meanwhile takes effect, in order, until one starts a transition again (R454). -/
def Dev.transEnd (d : Dev) : Dev :=
  d.plat.devOwed.foldl (fun d x => d.devAsk x.1 x.2)
    ((d.setFld F.PWR_STATUS_TRANS 0).onPlat (fun x => { x with trans := 0, devOwed := [] }))

/-- PWR_DEV_REQ written with LOW, RUN or OFF (R453 to R455). LOW and OFF need OWNER authority, which `owner` says the writer has. -/
def Dev.devWrite (d : Dev) (mid req : Nat) (owner : Bool) : Dev :=
  if d.fld F.PWR_STATUS_DEV = 2 ∨ (req ≠ 0 ∧ (!owner ∨ !d.devQuiet)) then d.access 0x806 mid R.PWR_DEV_REQ
  else (d.setFld F.PWR_DEV_REQ_REQ req).devAsk req 0

/-- Warp lanes enter BOTH_SLEEP, each once its queue is empty and acknowledged; weft transmitters enter electrical idle, and with them
lanes that train (R453 event 6; 09 R282; 16 R482). `pwrSaved` of a weft lane: 1 it was UP or in a retrain, 2 in training. -/
def Dev.lanesSleep (d : Dev) : Dev :=
  let d := (List.range 128).foldl (fun d ph =>
    (d.onLane ph (fun x => { x with pwrSaved := d.lanePwr ph + 1, pwrPend := 4 })).pwrSettle ph) d
  let d := (List.range 16).foldl (fun d i =>
    let s := d.laneState (128 + i)
    if s = lnUp ∨ s = lnRetrain ∨ s = lnTraining then
      (d.setLaneState (128 + i) lnDown).onLane (128 + i) (fun x => { x with pwrSaved := if s = lnTraining then 2 else 1, lock := false })
    else d) d
  (List.range 4).foldl (fun d p => if d.linkUp p then d.linkFell p 1 0 else if d.linkState p = 2 then d.setLinkState p 1 else d) d

/-- A warp lane still has frames to send or to be acknowledged before it sleeps (09 R282). -/
def Dev.lanesBusy (d : Dev) : Bool := (List.range 128).any (fun ph => (d.lane ph).pwrSaved != 0 && (d.lane ph).pwrPend != 0)

/-- Lanes return to their earlier states; weft links retrain (R454 event 4). -/
def Dev.lanesWake (d : Dev) : Dev :=
  let d := (List.range 128).foldl (fun d ph =>
    let s := (d.lane ph).pwrSaved
    if s = 0 then d else (d.pwrEnter ph (s - 1)).onLane ph (fun x => { x with pwrSaved := 0 })) d
  let d := (List.range 4).foldl (fun d p =>
    if d.linkState p = 1 ∧ (d.lane (128 + 4 * p)).pwrSaved ≠ 0 then d.setLinkState p 2 else d) d
  (List.range 16).foldl (fun d i =>
    let s := (d.lane (128 + i)).pwrSaved
    if s = 0 ∨ d.laneState (128 + i) ≠ lnDown then d.onLane (128 + i) (fun x => { x with pwrSaved := 0 })
    else (if s = 2 then d.startTraining (128 + i) else (d.setLaneState (128 + i) lnUp).startRetrain (128 + i)).onLane (128 + i)
      (fun x => { x with pwrSaved := 0 })) d

/-- Capture units complete every record that waits for a response, with MISSING, and then make none until a beat commits again (16 R476).
A unit may wait for another's record of the beat (11 R334), so all take turns. -/
def Dev.capFlush (d : Dev) : Dev :=
  let us := List.range 16
  let d := us.foldl (fun d u => (List.range (d.cu u).pend.length).foldl (fun d _ => d.captureTimeout u) d) d
  let n := us.foldl (fun n u => n + (d.cu u).pend.length) 0
  let d := (List.range n).foldl (fun d _ => us.foldl Dev.recordComplete d) d
  { d with cap := { d.cap with quiet := true } }

/-- Event 5 of R453 for a panel: asleep when it holds mapped beams and the save area is usable, else as it is; OFF when it holds none. A
wake that has begun ends. -/
def Dev.panelLow (d : Dev) (p : Nat) : Dev :=
  if d.panel p = 3 then (d.onPlat (fun x => { x with waking := offBit x.waking p })).setFld (F.PWR_PANEL_V_CODE.at p) 0
  else if !d.panelHolds p then d.panelOff p 0
  else if d.panel p = 2 then d.onPlat (fun x => { x with waking := offBit x.waking p })
  else if d.plat.sleeping.testBit p then d.panelSlept p
  else if d.sleepOk p false then (d.askSleep p 0).panelSlept p
  else d

/-- Event 7 of R453: HBM enters self-refresh, DEV = LOW. -/
def Dev.lowEnd (d : Dev) : Dev :=
  (((d.setFld F.HBM_STATUS_SELFREF (d.fld F.HBM_STATUS_TRAINED)).setFld F.PWR_STATUS_DEV 1).pwrEvent 4 1 0).transEnd

/-- Events 3 to 6 of R453. -/
def Dev.lowSteps (d : Dev) : Dev :=
  let d := ((List.range 32).foldl (fun d c => if d.bobBusy c then d.bobEnd c 3 0 else d) d).capFlush
  let d := ((List.range 16).foldl (fun d c => d.traceNote c false tpSLEEP 0xFF 3) d.traceFlush).traceFlush
  ((List.range 4).foldl Dev.panelLow d).lanesSleep

/-- Entry to LOW goes on (R453 events 3 to 7): once running items have completed, and to its end once every lane has emptied its queue
(09 R282). -/
def Dev.lowDone (d : Dev) : Dev :=
  if d.plat.trans = 3 then (if d.lanesBusy then d else d.lowEnd)
  else if d.plat.trans ≠ 1 ∨ d.hubd.shuttles.any (fun x => x.2.item.isSome) then d
  else
    let d := d.lowSteps
    if d.lanesBusy then d.onPlat (fun x => { x with trans := 3 }) else d.lowEnd

/-- Exit from LOW has ended (R454): the panels that were in SLEEP have woken first. -/
def Dev.runDone (d : Dev) : Dev :=
  if d.plat.trans ≠ 2 ∨ d.plat.waking ≠ 0 then d
  else
    let cause := d.plat.transCause
    let d := (d.setFld F.HBM_STATUS_SELFREF 0).setFld F.PWR_STATUS_DEV 0
    let d := (List.range 16).foldl (fun d c => d.traceNote c false tpWAKE 0xFF 3) d
    let d := (List.range 128).foldl (fun d s => if d.shActive s then d.traceSync s else d) d
    let d := d.lanesWake.setFld F.PWR_STATUS_WAKE (if cause = 0 then 1 else if cause = 1 then 2 else 3)
    (d.pwrEvent 4 0 cause).transEnd

end Sys2Proof.Machine
end

