-- ==== Sys2Proof/Machine/Watch.lean ====
section
/-!
DEFINITION. The watch unit: samples, filters, rules and their actions, over-temperature, emergency shutdown (15 R457 to
R462).
-/

namespace Sys2Proof.Machine

/-- The watch unit changed. -/
def Dev.onWatch (d : Dev) (f : Watch → Watch) : Dev := d.onPlat (fun x => { x with watch := f x.watch })

/-! ### Samples and filters (R459, R460) -/

/-- The latest sample of a source, 16 bits. -/
def Dev.srcVal (d : Dev) (s : Nat) : Nat := if s < 108 then d.fld (F.WCH_SRC_VAL_VALUE.at s) else 0

/-- Sources whose unit is signed (R459). -/
def srcSigned (s : Nat) : Bool := s < 64 || (99 ≤ s && s ≤ 104)

/-- A sample as a number. -/
def Dev.srcInt (d : Dev) (s : Nat) : Int := if srcSigned s then sgn 16 (d.srcVal s) else Int.ofNat (d.srcVal s)

/-- The highest of a list of sensors, as 16 bits; 0 without one. -/
def Dev.highest (d : Dev) (ss : List Nat) : Nat :=
  match ss with
  | [] => 0
  | s :: t => unsgn 16 (t.foldl (fun m i => max m (d.srcInt i)) (d.srcInt s))

/-- The code that AIN0 or AIN1 converts a voltage in µV to (17 R498). -/
def ainCode (uV : Nat) : Nat := min 4095 (uV * 4096 / 1200000)

/-- What a source makes of its measurement: the analog inputs convert, the coolant flow saturates (R459; 17 R498). -/
def srcCode (s x : Nat) : Nat := if s = 96 ∨ s = 97 then ainCode x else if s = 98 then min 65535 x else x

/-- One sample of every source: SRC 0 to 99 as measured, the others computed (R459). -/
def Dev.takeSamples (d : Dev) (xs : List Nat) : Dev :=
  let put := fun (d : Dev) s v => d.setFld (F.WCH_SRC_VAL_VALUE.at s) v
  let d := (List.range 100).foldl (fun d s => put d s (srcCode s (xs.getD s 0))) d
  let d := put d 100 (d.highest (List.range 64))
  let d := (List.range 4).foldl (fun d p => put d (101 + p) (d.highest ((List.range 64).filter (fun i => Config.sensorPanel i == p)))) d
  let d := put d 105 ((List.range 128).filter (fun ph => d.laneState ph == lnUp)).length
  let d := put d 106 ((List.range 4).filter d.linkInUse).length
  put d 107 (d.fld (F.ETH_PORT_STATUS_UP.at 0) + d.fld (F.ETH_PORT_STATUS_UP.at 1))

/-- One filter takes the sample (R460). -/
def Dev.filterStep (d : Dev) (f : Nat) : Dev :=
  let y := F.WCH_VALUE_Y.at f
  if d.fld (F.WCH_FILT_EN.at f) = 0 then (d.setFld y 0).onWatch (fun w => { w with primed := offBit w.primed f })
  else
    let x := d.srcInt (d.fld (F.WCH_FILT_SRC.at f))
    if d.plat.watch.primed.testBit f then
      let v := sgn 16 (d.fld y)
      d.setFld y (unsgn 16 (v + sgn 17 (unsgn 17 (x - v)) / 2 ^ d.fld (F.WCH_FILT_K.at f)))
    else (d.setFld y (unsgn 16 x)).onWatch (fun w => { w with primed := orBit w.primed f })

/-- The input value of a rule (R461). -/
def Dev.ruleInput (d : Dev) (r : Word64) : Int :=
  if Rule.insrc r then d.srcInt (Rule.input r) else sgn 16 (d.fld (F.WCH_VALUE_Y.at (Rule.input r % 32)))

/-! ### Emergency shutdown (R458) -/

/-- The treadle stops at once, an attempt in progress is discarded (R458, 02 R43). -/
def Dev.stopAtOnce (d : Dev) : Dev :=
  if d.ts = tsBeat ∨ d.ts = tsSolo ∨ d.ts = tsWaiting then
    ((d.discardAttempt.undoRepair).onLoom (fun l => { l with fault := none, memFault := none })).haltNow 6 false
  else (if d.ts = tsStarting then d.startBack 0 false else d).haltNotice

/-- Emergency shutdown: causes 1 rule, 2 above 110 °C, 3 above 105 °C for 1 s (R458, R470). A device in OFF has only its ALERT_N and event
left to give (R452). -/
def Dev.shutdown (d : Dev) (cause rule : Nat) : Dev :=
  let off := d.fld F.PWR_STATUS_DEV = 2
  let d := if off then d else d.stopAtOnce.onPlat (fun x => { x with gpioStage := 1, txIdle := true })
  let d := (d.alert alEmerg).event bWCH 0 0xA08 (cause % 16 + rule % 32 * 16)
  if off then d else d.enterOff 1

/-- 105 °C and 110 °C in 1/16 °C. -/
def t105 : Int := 1680
def t110 : Int := 1760

/-- Temperatures above 105 °C (R457), in every device state: each sensor at its second hot sample takes action 1. -/
def Dev.thermal (d : Dev) : Dev :=
  let above := (List.range 64).filter (fun i => decide (t105 < d.srcInt i))
  let d := d.onWatch (fun w => { w with
    hot := above.map (fun i => (i, satAdd 16 (SMap.get 0 w.hot i) 1)), hotAges := (w.hotAges.map (· + 1)).filter (· ≤ 1000) })
  if (List.range 64).any (fun i => decide (t110 < d.srcInt i)) then d.shutdown 2 0
  else
    let w := d.plat.watch
    if w.hotAges.contains 1000 && w.hot.any (fun x => decide (1000 ≤ x.2)) then d.shutdown 3 0
    else
      let new := w.hot.filter (fun x => x.2 == 2)
      if new.isEmpty then d
      else
        let d := d.onWatch (fun w => { w with hotAges := 0 :: w.hotAges })
        ((new.foldl (fun d x => d.event bWCH 0 0xA07 (x.1 % 64 + d.srcVal x.1 % 65536 * 64)) d).recap).requestHalt 6

/-! ### Rules (R461) -/

/-- FSTRETCH: a throttle that has fired imposes STRETCH (R461, 06 R163). -/
def Dev.stretch (d : Dev) : Dev := d.setFld F.TRD_STATUS_FSTRETCH (b2n (d.throttles.any (fun r => Rule.stretch (d.rule r))))

/-- A rule clears: what it holds is released or computed anew; in OFF a THROTTLE does not act (R461). -/
def Dev.ruleClear (d : Dev) (r : Nat) : Dev :=
  if !d.fired r then d
  else
    let a := Rule.action (d.rule r)
    let d := d.setFld F.WCH_STATUS_FIRED (offBit (d.fld F.WCH_STATUS_FIRED) r)
    if a = acTHROTTLE ∧ d.fld F.PWR_STATUS_DEV = 2 then d
    else if a = acTHROTTLE then (if d.throttles.isEmpty then d.event bWCH 0 0xA04 0 else d).recap.stretch
    else if a = acALERT then d.unalert (alRule r) else d

/-- Rule r is evaluated: it may clear, or fire (R461). In the list: the rules that have fired in this sample. -/
def Dev.ruleEval (s : Dev × List Nat) (r : Nat) : Dev × List Nat :=
  let (d, fs) := s
  let w := d.rule r
  if !Rule.en w then (d.onWatch (fun x => { x with runs := SMap.del x.runs r }), fs)
  else
    let x := d.ruleInput w
    let holds := if Rule.below w then x < Rule.thresh w else Rule.thresh w < x
    let clears := if Rule.below w then Rule.thresh w + Rule.hyst w ≤ x else x ≤ Rule.thresh w - Rule.hyst w
    let n := if holds then min 16 (SMap.get 0 d.plat.watch.runs r + 1) else 0
    let d := d.onWatch (fun y => { y with runs := SMap.put 0 y.runs r n })
    if d.fired r then (if clears then d.ruleClear r else d, fs)
    else if Rule.persist w < n then
      ((d.setFld F.WCH_STATUS_FIRED (orBit (d.fld F.WCH_STATUS_FIRED) r)).event bWCH 0 0xA02 (r % 32 + unsgn 16 x * 32), fs ++ [r])
    else (d, fs)

/-- PARK: as HALT_N held low, with HALT_CAUSE 6 (R461). -/
def Dev.park (d : Dev) (r : Nat) : Dev :=
  let d := d.slotMissed
  let d := (d.onPlat (fun x => { x with parked := true })).onTrd (fun t => { t with parkLow := true })
  (((d.setFld F.PWR_STATUS_PARKED 1).alert alPark).event bWCH 0 0xA05 (r % 32)).requestHalt 6

/-- SLEEP: the panels of the mask are asked for SLEEP after the halt at commit (R461). -/
def Dev.watchHaltSleep (d : Dev) (r : Nat) : Dev :=
  let m := Rule.mask (d.rule r)
  if d.inBeat ∨ d.ts = tsWaiting then
    (d.onPlat (fun x => { x with sleepOwed := x.sleepOwed ++ [(r, m)] })).requestHalt 6
  else d.watchSleep r m

/-- THROTTLE: the cap and STRETCH apply; the first one is logged (R461). `n`: throttles that had fired before. -/
def Dev.throttle (d : Dev) (n : Nat) : Dev :=
  (if n = 0 then d.event bWCH 0 0xA03 0 else d).recap.stretch

/-- The actions of the rules that fire in one sample (R461). -/
def Dev.actions (d : Dev) (fs : List Nat) : Dev :=
  let of := fun a => fs.filter (fun r => Rule.action (d.rule r) == a)
  let alerts := fun (d : Dev) => (of acALERT).foldl (fun d r => d.alert (alRule r)) d
  if d.fld F.PWR_STATUS_DEV = 2 then alerts d
  else match of acSHUTDOWN with
    | r :: _ => d.shutdown 1 r
    | [] =>
      let before := d.throttles.length - (of acTHROTTLE).length
      let d := (of acPARK).foldl Dev.park d
      let d := (of acSLEEP).foldl Dev.watchHaltSleep d
      let d := if (of acTHROTTLE).isEmpty then d else d.throttle before
      let d := alerts d
      if (of acWAKE).isEmpty then d
      else if d.fld F.PWR_STATUS_DEV = 1 ∨ d.plat.trans = 1 ∨ d.plat.trans = 3 then d.devAsk 0 1 else d

/-- A sample of the watch unit, every 1 ms, whose log entries are those of one HUB cycle; `xs`: what SRC 0 to 99 measure, 96 and 97 in µV
(R457, R459 to R461; 14 R439). -/
def Dev.watchSample (d : Dev) (xs : List Nat) : Dev := d.oneHubCycle fun d =>
  let d := d.takeSamples xs
  let d := (List.range 32).foldl Dev.filterStep d
  let d := d.thermal
  let (d, fs) := (List.range 32).foldl Dev.ruleEval (d, [])
  d.actions fs

/-- WCH_CMD.UNPARK ends a PARK (R461, R472). -/
def Dev.unpark (d : Dev) (mid : Nat) (owner : Bool) : Dev :=
  if !owner then d.access 0x806 mid R.WCH_CMD
  else if !d.plat.parked then d
  else
    let d := (d.onPlat (fun x => { x with parked := false })).onTrd (fun t => { t with parkLow := false })
    ((d.setFld F.PWR_STATUS_PARKED 0).unalert alPark).noteReady

/-- A rule is written: both words together; one that has fired is first cleared, and the new one counts from the next sample
(R461). Its reserved bits are ignored (R462). -/
def Dev.ruleWrite (d : Dev) (r : Nat) (w : Word64) : Dev :=
  (d.ruleClear r).onWatch (fun x => { x with rules := SMap.put 0 x.rules r w, runs := SMap.del x.runs r })

/-- A write of WCH_RULE_HI applies both words of a rule (R461). -/
def Dev.ruleHi (d : Dev) (r : Nat) (hi : Word) : Dev :=
  (d.setReg (instKey R.WCH_RULE_HI r) hi).ruleWrite r (hi ++ d.reg (instKey R.WCH_RULE_LO r))

end Sys2Proof.Machine
end

