-- ==== Sys2Proof/Machine/RegView.lean ====
section
/-!
DEFINITION. What a read of a register returns (00 R6, R8; 13 R382): the instance that the block's selector names, and the
fields that the device computes when they are read.
-/

namespace Sys2Proof.Machine

/-! ### Selectors -/

/-- The harness that DRW_SEL names (04 R121). -/
def Dev.drwSel (d : Dev) : Nat := 64 * d.fld F.DRW_SEL_GB + d.fld F.DRW_SEL_HARNESS

/-- The hub link that HUB_MON_SEL names: (2 * ring + direction) * 32 + stop (13 R409). -/
def Dev.monSel (d : Dev) : Nat := (2 * d.fld F.HUB_MON_SEL_RING + d.fld F.HUB_MON_SEL_DIR) * 32 + d.fld F.HUB_MON_SEL_STOP

/-- The instance on which a register of the LOM_ to ETH_ blocks acts. -/
def Dev.instFabric (d : Dev) (k : Nat) : Nat :=
  if k = R.DRW_HCFG then d.drwSel
  else if k = R.DRW_CONT_BEAM then d.fld F.DRW_SEL_GB
  else if R.WRP_LANE_CFG ≤ k ∧ k ≤ R.WRP_LANE_EVENTS then d.fld F.WRP_LANE_SEL_LANE
  else if k = R.WRP_MSG_AT ∨ k = R.WRP_MSG_STATUS then d.fld F.WRP_MSG_SEL_ENTRY
  else if R.WFT_LINK_CFG ≤ k ∧ k ≤ R.WFT_LINK_ERR then d.fld F.WFT_LINK_SEL_LINK
  else if k = R.ETH_PORT_STATUS ∨ k = R.ETH_RX_DROP then d.fld F.ETH_PORT_SEL_PORT
  else 0

/-- The instance on which a register of the CAP_ to WSC_ blocks acts. -/
def Dev.instUnits (d : Dev) (k : Nat) : Nat :=
  if R.CAP_UNIT_CFG ≤ k ∧ k ≤ R.CAP_TRIG_BEAT then d.fld F.CAP_UNIT_SEL_UNIT
  else if k ∈ [R.FMP_DESC, R.FMP_BASE, R.FMP_REC_CNT, R.FMP_NEWBITS, R.FMP_FIRST_BEAT, R.FMP_FIRST_ADDR, R.FMP_RANGE_CNT] then
    d.fld F.FMP_SEL_MAP
  else if R.SHT_CTL ≤ k ∧ k ≤ R.SHT_TRAPS then d.fld F.SHT_SEL_SHUTTLE
  else if k ∈ [R.WSC_TRIG_LO, R.WSC_TRIG_HI, R.WSC_TRIG_PEND] then d.fld F.WSC_TRIG_SEL_ENTRY
  else if k = R.WSC_CNT then d.fld F.WSC_CNT_SEL_COUNTER
  else 0

/-- HUB_MON_CNT: flits of the selected link in the last completed interval (13 R409). -/
def Dev.monCount (d : Dev) : Word :=
  match d.hubd.hub.mon with
  | none => 0
  | some m => BitVec.ofNat 32 (if m.link = d.monSel then m.flits else (Config.freeWord (m.ctr + d.monSel)).toNat % 0x10001)

/-- The instance on which a register of the HUB_ to IOC_ blocks acts. -/
def Dev.instHub (d : Dev) (k : Nat) : Nat :=
  if R.GK_ENT0 ≤ k ∧ k ≤ R.GK_ENT3 then d.gkSel
  else if R.BOB_CH_DESC_LO ≤ k ∧ k ≤ R.BOB_CH_ERR_HI then d.fld F.BOB_CH_SEL_CH
  else if k ∈ [R.ECC_CE_CNT, R.ECC_CE_LAST, R.ECC_UE_CNT] then d.fld F.ECC_CE_SEL_CLASS
  else if k ∈ [R.WCH_FILT, R.WCH_RULE_LO, R.WCH_RULE_HI, R.WCH_VALUE] then d.fld F.WCH_SEL_INDEX
  else if k = R.WCH_SRC_VAL then d.fld F.WCH_SRC_SEL_SRC
  else if k ∈ [R.PWR_PANEL_CFG, R.PWR_PANEL_REQ, R.PWR_PANEL_V] then d.fld F.PWR_PANEL_SEL_PANEL
  else if k = R.IOC_PIN_CFG then d.fld F.IOC_PIN_SEL_PIN
  else 0

/-- The key of the register at an offset: of its selected instance, and of its bank for CLM_BANK_OWNER (12 R369). -/
def Dev.keyAt (d : Dev) (k : Nat) : Nat :=
  if R.CLM_BANK_OWNER ≤ k ∧ k < R.CLM_BANK_OWNER + 0x800 then instKey R.CLM_BANK_OWNER ((k - R.CLM_BANK_OWNER) / 4)
  else
    let b := blkOf k
    instKey k (if b ≤ bETH then d.instFabric k else if bCAP ≤ b ∧ b ≤ bWSC then d.instUnits k else d.instHub k)

/-! ### Fields computed when they are read -/

/-- A number as a register word. -/
def w32 (n : Nat) : Word := BitVec.ofNat 32 n

/-- LOM_MAP_DATA: the maps as of the last commit (02 R62). What no image has mapped keeps the identity of 02 R23: a harness its own
slot, a beam two spares. -/
def Dev.mapData (d : Dev) : Word :=
  let gb := d.fld F.LOM_MAP_ADDR_GB
  let hn := 64 * gb + d.fld F.LOM_MAP_ADDR_HARNESS
  let m := d.loom.committedMaps
  let l : Loom := { d.loom with hmap := m.hmap, repl := m.repl, spare := m.spare, bmap := m.bmap }
  let free := if SMap.get 0 l.need gb = 0 then 2 else (l.spares (l.pgb gb)).length
  let k := if l.mapped hn then l.onPk32 (l.slotOf hn) else none
  w32 (free * 2 ^ 16 + b2n k.isSome * 2 ^ 13 + k.getD 0 * 2 ^ 8 + (if l.mapped hn then l.ph hn else hn % 64))

/-- LDR_BMAP (07 R209). DESIGN CHOICE, assumption log 12: SWAPPED, PGB and SPARES of a beam with U = 0 read 0. -/
def Dev.bmapData (d : Dev) : Word :=
  let gb := d.fld F.LDR_BMAP_SEL_GB
  let bay := SMap.get 0 d.loom.bay gb
  let u := SMap.get 0 d.loom.need gb
  w32 ((if bay = 0 then 63 else bay - 1) * 2 ^ 24 + u +
    (if u = 0 then 0
     else b2n (d.loom.pgb gb != gb) * 2 ^ 23 + d.loom.pgb gb * 2 ^ 16 + d.fld (F.LDR_BMAP_SPARES.at gb) * 2 ^ 8))

/-- LDR_LAT_VAL (07 R209). DESIGN CHOICE, assumption log 12: after reset it reads entry 0 of the stepping present, not the Reset column's 0. -/
def Dev.latVal (d : Dev) : Word :=
  let s := d.fld F.LDR_LAT_SEL_STEP
  w32 (latEntry (if s = 1 then 0 else if s = 2 then 1 else Config.step) (d.fld F.LDR_LAT_SEL_INDEX))

/-- LDR_CPATH (07 R209). -/
def Dev.cpathVal (d : Dev) : Word :=
  let p := if Config.step = 0 then d.loom.pathA else d.loom.pathB
  w32 (min 0xFFFF p.1 + min 0xFFFF p.2.1 * 2 ^ 16)

/-- TRD_STATUS: WAIT while the treadle waits, and ARM_OK (06 R159, R192). -/
def Dev.trdStatus (d : Dev) : Word :=
  let w := if d.ts = tsStarting ∨ d.ts = tsWaiting then d.unmet else 0
  setBits (setBits (d.reg R.TRD_STATUS) 15 12 w) 4 4 (b2n d.arm.2)

/-- WRP_LANE_STATUS (09 R289). -/
def Dev.laneStatus (d : Dev) (k : Nat) : Word :=
  let ph := d.fld F.WRP_LANE_SEL_LANE
  let x := d.lane ph
  setBits (setBits (d.reg k) 31 24 (d.txqLen ph)) 23 21 (x.resps.filter (fun r => !r.used)).length

/-- WRP_RXMSG_CTL (09 R290). -/
def Dev.rxmsgCtl (d : Dev) : Word := match d.warp.rx with
  | [] => 0
  | m :: _ => w32 (d.warp.rx.length * 2 ^ 24 + m.1 % 128 * 2 ^ 16 + (m.2.length - 1) % 64 * 2 ^ 8)

/-- SHT_STATUS (12 R379). -/
def Dev.shtStatus (d : Dev) (k : Nat) : Word :=
  let s := d.fld F.SHT_SEL_SHUTTLE
  setBits (setBits (d.reg k) 3 3 (b2n (d.sh s).priv)) 2 0 (if d.plat.pllUp.testBit (pllOf 5) then d.shState s else 0)

/-- WSC_STATUS (12 R379). -/
def Dev.wscStatus (d : Dev) : Word := setBits (setBits (d.reg R.WSC_STATUS) 31 31 (b2n d.storeFull)) 16 0 d.occ

/-- IOC_PIN_CFG with the charter's states; pins 48 to 63 read 0 (17 R503). -/
def Dev.pinCfg (d : Dev) (k : Nat) : Word :=
  let p := d.fld F.IOC_PIN_SEL_PIN
  let c := d.gpioCfg p
  if 48 ≤ p then 0 else if d.plat.stage < 4 then d.reg k else setBits (setBits (setBits (d.reg k) 13 12 c.user) 11 10 c.safe) 9 8 c.load

/-- LOG_RD_DATAi (14 R447). -/
def Dev.logData (d : Dev) (i : Nat) : Word := w32 ((SMap.get 0 d.log.slots (d.fld F.LOG_RD_IDX_SLOT)).toNat / 2 ^ (32 * i))

/-- WRP_UPi (09 R290). -/
def Dev.upWord (d : Dev) (i : Nat) : Word := w32 (ofBits ((List.range 32).map (fun j => d.laneState (32 * i + j) == lnUp)))

/-- Words of the LOM_ to LRG_ blocks that are computed. -/
def Dev.viewLoom (d : Dev) (k : Nat) : Option Word :=
  if k = R.LOM_BEAT_LO then some (w32 d.loom.beat)
  else if k = R.LOM_MAP_DATA then some d.mapData
  else if k = R.LRG_ENT_LO ∨ k = R.LRG_ENT_HI then
    let e := d.loom.slotWord (1024 * d.fld F.LRG_SEL_GB + d.fld F.LRG_SEL_ENTRY)
    some (if k = R.LRG_ENT_LO then w32 e.toNat else w32 (e.toNat / 2 ^ 32))
  else if k = R.LRG_LINK_LOAD then
    some (w32 (min 0xFFFF (d.loom.linkLoad (d.fld F.LRG_LINK_SEL_RING) (d.fld F.LRG_LINK_SEL_STOP))))
  else if k = R.LRG_LINK_MAX then
    let m := d.loom.linkMax
    some (w32 (m.2.2 * 2 ^ 20 + m.2.1 * 2 ^ 16 + min 0xFFFF m.1))
  else none

/-- Words of the TRD_, PTP_ and LDR_ blocks that are computed. PTP_STATUS.SRC is PTP_CTL.SRC as it stands (DESIGN
CHOICE, assumption log 22). -/
def Dev.viewTime (d : Dev) (k : Nat) : Option Word :=
  if k = R.TRD_STATUS then some d.trdStatus
  else if k = R.TRD_ARM_NEED then some (w32 (d.arm.1 % 2 ^ 24))
  else if (k = R.TRD_SLACK_LAST ∨ k = R.TRD_SLACK_MIN) ∧ d.fld F.TRD_CTL_MODE % 2 = 0 then some 0x7FFFFFFF
  else if k = R.PTP_TS then some d.tb.tb
  else if k = R.PTP_STATUS then some (setBits (d.reg k) 1 0 (d.fld F.PTP_CTL_SRC))
  else if k = R.LDR_LAT_VAL then some d.latVal
  else if k = R.LDR_CPATH then some d.cpathVal
  else if k = R.LDR_BMAP then some d.bmapData
  else none

/-- Words of the WRP_, WFT_ and MGT_ blocks that are computed. -/
def Dev.viewLinks (d : Dev) (k : Nat) : Option Word :=
  if k = R.WRP_LANE_STATUS then some (d.laneStatus (d.keyAt k))
  else if R.WRP_UP0 ≤ k ∧ k ≤ R.WRP_UP3 then some (d.upWord ((k - R.WRP_UP0) / 4))
  else if k = R.WRP_RXMSG_CTL then some d.rxmsgCtl
  else if k = R.WFT_LINK_STATUS then
    some (if d.plat.stage < 4 then d.reg (d.keyAt k) else setBits (d.reg (d.keyAt k)) 7 6 (d.logLink (d.fld F.WFT_LINK_SEL_LINK)))
  else if k = R.MGT_STATUS then some (w32 (d.fld F.LOG_STATUS_IDX * 2 ^ 16 + b2n (d.alerts != 0)))
  else none

/-- Words of the CAP_ to BOB_ blocks that are computed. -/
def Dev.viewUnits (d : Dev) (k : Nat) : Option Word :=
  if k = R.CAP_DSK_VAL then some (w32 (SMap.get 0 d.cap.deskew (d.fld F.CAP_DSK_SEL_INDEX)))
  else if k = R.FMP_STATUS then some (setBits (d.reg k) 0 0 (b2n (SMap.get 0 d.cap.clearing (d.fld F.FMP_SEL_MAP) != 0)))
  else if k = R.FMP_APPLIED_LO then some (w32 d.appliedBeat)
  else if k = R.FMP_HELD then some (w32 d.heldRecords)
  else if k = R.HUB_MON_CNT then some d.monCount
  else if k = R.SHT_STATUS then some (d.shtStatus (d.keyAt k))
  else if k = R.SHT_PC then some (w32 (d.sh (d.fld F.SHT_SEL_SHUTTLE)).pc.toNat)
  else if k = R.WSC_STATUS then some d.wscStatus
  else if k = R.WSC_LVL_CNT then
    some (w32 (d.hubd.sched.store.filter (fun i => Desc.prio i.desc == d.fld F.WSC_LVL_SEL_LEVEL)).length)
  else if k = R.BOB_BUSY then some (w32 (ofBits ((List.range 32).map d.bobBusy)))
  else none

/-- Words of the HBM_ to IOC_ blocks that are computed. -/
def Dev.viewPlat (d : Dev) (k : Nat) : Option Word :=
  if k = R.HBM_OCC_CNT then some (w32 (min 0xFFFFFFFF (SMap.get 0 d.loom.occLast (d.fld F.HBM_OCC_SEL_PC))))
  else if k = R.HBM_DWIN_LO then some (w32 (d.loom.win64 (d.fld F.HBM_DWIN_SEL_GB)).toNat)
  else if k = R.HBM_DWIN_HI then some (w32 ((d.loom.win64 (d.fld F.HBM_DWIN_SEL_GB)).toNat / 2 ^ 32))
  else if k ∈ [R.ECC_CE_CNT, R.ECC_CE_LAST, R.ECC_UE_CNT] ∧ d.fld F.ECC_CE_SEL_CLASS = 7 then some 0
  else if k = R.STEP_ID then some (w32 Config.step)
  else if k = R.FUS_UID_LO then some (w32 Config.uid.toNat)
  else if k = R.FUS_UID_HI then some (w32 (Config.uid.toNat / 2 ^ 32))
  else if R.LOG_RD_DATA0 ≤ k ∧ k ≤ R.LOG_RD_DATA3 then some (d.logData ((k - R.LOG_RD_DATA0) / 4))
  else if k = R.WCH_SRC_VAL then some (w32 (d.srcVal (d.fld F.WCH_SRC_SEL_SRC)))
  else if k = R.IOC_PIN_CFG then some (d.pinCfg (d.keyAt k))
  else none

/-- The word that a read of a register returns. -/
def Dev.view (d : Dev) (k : Nat) : Word :=
  ((d.viewLoom k).or ((d.viewTime k).or ((d.viewLinks k).or ((d.viewUnits k).or (d.viewPlat k))))).getD (d.reg (d.keyAt k))

/-- A read of LOM_BEAT_LO latches LOM_BEAT_HI (02 R59). -/
def Dev.beatLatch (d : Dev) : Dev := d.setReg R.LOM_BEAT_HI (w32 (d.loom.beat / 2 ^ 32 % 2 ^ 16))

/-- A read of FMP_APPLIED_LO latches FMP_APPLIED_HI (11 R351). -/
def Dev.appliedLatch (d : Dev) : Dev := d.setReg R.FMP_APPLIED_HI (w32 (d.appliedBeat / 2 ^ 32 % 2 ^ 16))

/-- A word of IOC_INn: levels of pins from p on, as sampled at the read (17 R503). A pin that the device drives is at its level; the
levels of the others are the outside world's, and so free. -/
def Dev.pinLevels (d : Dev) (p n : Nat) : Word :=
  w32 (ofBits ((List.range n).map (fun i => (d.gpioOut (p + i)).getD ((Config.freeWord d.freeCtr).toNat.testBit i))))

/-- A read of a register, with what it does (02 R59, 06 R195, 09 R290, 11 R351). -/
def Dev.regRead (d : Dev) (k : Nat) : Dev × Word :=
  if k = R.LOM_BEAT_LO then (d.beatLatch, d.view k)
  else if k = R.FMP_APPLIED_LO then (d.appliedLatch, d.view k)
  else if k = R.PTP_TXTS0_ID then let d := d.txtsPop 0; (d, d.reg k)
  else if k = R.PTP_TXTS1_ID then let d := d.txtsPop 1; (d, d.reg k)
  else if k = R.WRP_RXMSG_DATA then d.rxData
  else if k = R.WRP_LANE_PRBS_ERR then let d := d.prbsErrors (d.fld F.WRP_LANE_SEL_LANE); (d, d.view k)
  else if k = R.IOC_IN0 ∨ k = R.IOC_IN1 then
    ({ d with freeCtr := d.freeCtr + 1 }, if k = R.IOC_IN0 then d.pinLevels 0 32 else d.pinLevels 32 16)
  else (d, d.view k)

end Sys2Proof.Machine
end

