-- ==== Sys2Proof/Machine/Shuffle.lean ====
section
/-!
DEFINITION. Bobbin descriptors and their shuffles (13 R395 to R398).
-/

namespace Sys2Proof.Machine

/-! ### Descriptors (R395) -/

def Bd.src (x : BitVec 512) : Nat := bitsN x.toNat 63 0
def Bd.dst (x : BitVec 512) : Nat := bitsN x.toNat 127 64
def Bd.srcLen (x : BitVec 512) : Nat := bitsN x.toNat 159 128
def Bd.srcCnt (x : BitVec 512) : Nat := bitsN x.toNat 191 160
def Bd.srcStride (x : BitVec 512) : Int := sgn 64 (bitsN x.toNat 255 192)
def Bd.dstLen (x : BitVec 512) : Nat := bitsN x.toNat 287 256
def Bd.dstCnt (x : BitVec 512) : Nat := bitsN x.toNat 319 288
def Bd.dstStride (x : BitVec 512) : Int := sgn 64 (bitsN x.toNat 383 320)
def Bd.shuf (x : BitVec 512) : Nat := bitsN x.toNat 391 384
def Bd.ways (x : BitVec 512) : Nat := bitsN x.toNat 395 392
def Bd.elem (x : BitVec 512) : Nat := 2 ^ bitsN x.toNat 397 396
def Bd.chain (x : BitVec 512) : Bool := bitN x.toNat 408
def Bd.next (x : BitVec 512) : Nat := bitsN x.toNat 511 448
def Bd.total (x : BitVec 512) : Nat := Bd.srcLen x * Bd.srcCnt x

/-- Every line lies in the 48-bit space. -/
def linesFit (base : Nat) (stride : Int) (len cnt : Nat) : Bool :=
  let last := Int.ofNat base + stride * Int.ofNat (cnt - 1)
  base + len ≤ 2 ^ 48 && 0 ≤ last && last + Int.ofNat len ≤ 2 ^ 48

/-- A length or a count is in range. -/
def inRange24 (n : Nat) : Bool := 1 ≤ n && n ≤ 2 ^ 24

/-- The rules of R396 that every shuffle shares. -/
def Bd.fieldsOk (x : BitVec 512) : Bool :=
  Bd.src x < 2 ^ 48 && Bd.dst x < 2 ^ 48 && Bd.shuf x < 4 && bitsN x.toNat 399 398 == 0 && bitsN x.toNat 415 409 == 0 &&
    bitsN x.toNat 447 416 == 0 && (Bd.chain x || Bd.next x == 0) && Bd.next x % 64 == 0 && decide (Bd.next x < 2 ^ 48) &&
    inRange24 (Bd.srcLen x) && inRange24 (Bd.srcCnt x) && inRange24 (Bd.dstLen x) && inRange24 (Bd.dstCnt x) &&
    Bd.total x == Bd.dstLen x * Bd.dstCnt x && linesFit (Bd.src x) (Bd.srcStride x) (Bd.srcLen x) (Bd.srcCnt x) &&
    linesFit (Bd.dst x) (Bd.dstStride x) (Bd.dstLen x) (Bd.dstCnt x)

/-- The rules of R396 for a shuffle. -/
def Bd.shufOk (x : BitVec 512) : Bool :=
  let e := Bd.elem x
  if Bd.shuf x = 0 then true
  else if Bd.shuf x = 1 then
    Bd.total x % 128 == 0 && Bd.srcLen x % 128 == 0 && Bd.dstLen x % 128 == 0 && Bd.src x % 4 == 0 && Bd.dst x % 4 == 0
  else
    1 ≤ Bd.ways x && Bd.ways x ≤ 5 && Bd.total x % (2 ^ Bd.ways x * e) == 0 && Bd.srcLen x % e == 0 && Bd.dstLen x % e == 0 &&
      Bd.src x % e == 0 && Bd.dst x % e == 0

/-! ### Tokens (R399) -/

/-- A bucket holds at most this many tokens. -/
def bobBucket : Nat := 4096
/-- What a request flit costs. -/
def bobFlit : Nat := 256

/-- One HUB cycle's tokens for each channel, n times; SHARE is that of its descriptor. -/
def Dev.bobTokens (d : Dev) (n : Nat) : Dev :=
  { d with hubd := { d.hubd with bobs := d.hubd.bobs.map (fun x =>
      (x.1, { x.2 with tokens := min bobBucket (x.2.tokens + n * (bitsN x.2.desc.toNat 407 400 + 1)) })) } }

/-! ### Shuffles (R397) -/

/-- COPY, INTERLEAVE, DEINTERLEAVE: the source byte that output byte j is. TRANSPOSE: the last byte of its block. -/
def Bd.from (x : BitVec 512) (j : Nat) : Nat :=
  let e := Bd.elem x
  let k := 2 ^ Bd.ways x
  let per := Bd.total x / k / e
  let n := j / e
  if Bd.shuf x = 0 then j
  else if Bd.shuf x = 1 then j / 128 * 128 + 127
  else (if Bd.shuf x = 2 then per * (n % k) + n / k else k * (n % per) + n / per) * e + j % e

/-- Output byte j of a shuffle of the source stream. -/
def Bd.out (x : BitVec 512) (inp : List Byte) (j : Nat) : Byte :=
  if Bd.shuf x = 1 then
    let b := j / 128 * 128
    let w := j % 128 / 4
    BitVec.ofNat 8 (ofBits ((List.range 8).map (fun t =>
      (inp.getD (b + 4 * (8 * (j % 4) + t) + w / 8) 0).toNat.testBit (w % 8))))
  else inp.getD (Bd.from x j) 0

/-! ### Lines of a stream -/

/-- First address of the lines of a stream and the first after them. -/
def lineSpan (base : Nat) (stride : Int) (len cnt : Nat) : Nat × Nat :=
  let last := (Int.ofNat base + stride * Int.ofNat (cnt - 1)).toNat
  (min base last, max base last + len)

/-- The lines of source and destination lie apart. -/
def Bd.apart (x : BitVec 512) : Bool :=
  let s := lineSpan (Bd.src x) (Bd.srcStride x) (Bd.srcLen x) (Bd.srcCnt x)
  let t := lineSpan (Bd.dst x) (Bd.dstStride x) (Bd.dstLen x) (Bd.dstCnt x)
  s.2 ≤ t.1 || t.2 ≤ s.1

/-- The device address of byte p of a stream of lines. -/
def streamAddr (base : Nat) (stride : Int) (len p : Nat) : Nat := (Int.ofNat (base + p % len) + stride * Int.ofNat (p / len)).toNat

/-- Address and length of the write at output byte p: a whole 64-byte line, or bytes of one half (R398). -/
def Bd.writeAt (x : BitVec 512) (p : Nat) : Nat × Nat :=
  let a := streamAddr (Bd.dst x) (Bd.dstStride x) (Bd.dstLen x) p
  let left := Bd.dstLen x - p % Bd.dstLen x
  (a, if a % 64 = 0 ∧ 64 ≤ left then 64 else min left (32 - a % 32))

/-- A channel that has read n bytes of its source stream and written p of its destination stream can write on. Where source and
destination overlap it reads all of the source first (R397; assumption log 18). -/
def Bd.canWrite (x : BitVec 512) (n p : Nat) : Bool :=
  decide (p < Bd.total x) &&
    (decide (Bd.total x ≤ n) || (Bd.apart x && (List.range (Bd.writeAt x p).2).all (fun i => decide (Bd.from x (p + i) < n))))

end Sys2Proof.Machine
end

