-- ==== Sys2Proof/Machine/RegBus.lean ====
section
/-!
DEFINITION. What a write of a register does (00 R6, R8, R14 to R16; 10 R319, R321; 13 R393): access codes, locks, and the
commands that the registers start.
-/

namespace Sys2Proof.Machine

/-- Who writes: its master ID, the privilege that it presents, whether it holds OWNER authority, whether the write is a pair of the
charter's REGS records (08 R216). -/
structure Who where
  mid : Nat
  fw : Bool
  owner : Bool
  charter : Bool
  deriving DecidableEq, Repr

/-- A master's authority (10 R321), at a privilege. -/
def Dev.whoAs (d : Dev) (fw : Bool) (mid : Nat) : Who :=
  { mid := mid, fw := fw, owner := mid == midMGT || (mid == midJTAG && d.jtagOwner), charter := false }

/-- A master's authority at its present privilege. -/
def Dev.who (d : Dev) (mid : Nat) : Who := d.whoAs (d.fwOf mid) mid

/-- MGT_LOCK.UNLOCK is 1. -/
def Dev.unlocked (d : Dev) : Bool := d.fld F.MGT_LOCK_UNLOCK == 1

/-- RWL fields accept the write (00 R6, R16; 08 R216; 10 R319). -/
def Dev.rwlOk (d : Dev) (w : Who) : Bool :=
  w.charter || (d.unlocked && (w.owner || (decide (w.mid < 128) && w.fw)))

/-- OWNER authority while unlocked, or the charter. -/
def Dev.ownerOpen (d : Dev) (w : Who) : Bool := w.charter || (w.owner && d.unlocked)

/-- What a register's word becomes under its access codes (00 R6); bits outside its fields are 0 (R8). -/
def Dev.coded (d : Dev) (w : Who) (fs : List FieldRow) (old v : Word) : Word :=
  fs.foldl (fun x f =>
    let o := bitsN old.toNat f.hi f.lo
    let n := bitsN v.toNat f.hi f.lo
    setBits x f.hi f.lo (match f.acc with
      | .rw => n
      | .ro => o
      | .wo => 0
      | .w1c => o - (o &&& n)
      | .w1s => o
      | .rwl => if d.rwlOk w then n else o)) 0

/-- The fields of the register at an offset. -/
def fieldsAt (k : Nat) : List FieldRow := ((rowOf k).map RegRow.fields).getD []

/-- The write would change a locked field (00 R6). -/
def Dev.lockHit (d : Dev) (w : Who) (k : Nat) (old v : Word) : Bool :=
  !d.rwlOk w && (fieldsAt k).any (fun f => f.acc == .rwl && bitsN old.toNat f.hi f.lo != bitsN v.toNat f.hi f.lo)

/-- Access event 0x805 where it is due (00 R6). -/
def Dev.lockNote (d : Dev) (w : Who) (k : Nat) (old v : Word) : Dev :=
  if d.lockHit w k old v then d.access 0x805 w.mid k else d

/-- Access event 0x806: the write is ignored (13 R393). -/
def Dev.ignored (d : Dev) (w : Who) (k : Nat) : Dev := d.access 0x806 w.mid k

/-- A write with no behaviour of its own (00 R6). WCH_RULE_LO keeps its PARAM field whole, reserved bits of the rule's
action included (DESIGN CHOICE, assumption log 33). -/
def Dev.plainWrite (d : Dev) (w : Who) (k : Nat) (v : Word) : Dev :=
  let key := d.keyAt k
  let old := d.reg key
  (d.setReg key (d.coded w (fieldsAt k) old v)).lockNote w k old v

/-- The word that a register will hold once the writes that wait for the commit have taken effect. -/
def Dev.pendingReg (d : Dev) (k : Nat) : Word :=
  ((d.loom.atCommit.reverse.find? (fun x => x.1 == k)).map Prod.snd).getD (d.reg k)

/-- A write that takes effect at the next commit while a beat runs (00 R14). -/
def Dev.commitWrite (d : Dev) (w : Who) (k : Nat) (v : Word) : Dev :=
  let old := d.pendingReg k
  (d.setRegAtCommit k (d.coded w (fieldsAt k) old v)).lockNote w k old v

/-! ### Treadle and time base (06 R171 to R195) -/

/-- The treadle accepts writes of its settings (06 R173). -/
def Dev.trdOpen (d : Dev) : Bool := d.ts == tsIdle || d.ts == tsArmed || d.ts == tsHalted

/-- TRD_ registers. A change of MODE, PERIOD or FIRST interrupts the slot grid (06 R160). -/
def Dev.writeTRD (d : Dev) (w : Who) (k : Nat) (v : Word) : Dev :=
  if k = R.TRD_CMD then
    let cmd := bitsN v.toNat 2 0
    if cmd = 1 then d.start (bitN v.toNat 8) else if cmd = 2 then d.stop else if cmd = 3 then d.cancel else d
  else if k ∈ [R.TRD_CTL, R.TRD_PERIOD, R.TRD_FIRST, R.TRD_MARGIN, R.TRD_START_CFG, R.TRD_PIN_CFG] then
    if !d.trdOpen then d.ignored w k
    else
      let d1 := d.plainWrite w k v
      let changed := d1.fld F.TRD_CTL_MODE ≠ d.fld F.TRD_CTL_MODE ∨ d1.reg R.TRD_PERIOD ≠ d.reg R.TRD_PERIOD ∨
        d1.reg R.TRD_FIRST ≠ d.reg R.TRD_FIRST
      if changed then d1.gridStop else d1
  else d.plainWrite w k v

/-- PTP_JUMP_CTL (06 R195). -/
def Dev.jumpCtl (d : Dev) (v : Word) : Dev :=
  if bitN v.toNat 1 then d.jumpClear else if bitN v.toNat 0 then d.jumpAccept else d

/-- PTP_ registers. -/
def Dev.writePTP (d : Dev) (w : Who) (k : Nat) (v : Word) : Dev :=
  if k = R.PTP_OFFSET then d.offsetSample v
  else if k = R.PTP_JUMP_CTL then d.jumpCtl v
  else d.plainWrite w k v

/-! ### Loom (02 R54, 04 R121) -/

/-- LOM_CTL: SHADOW and CHECK change at the commit; a change of CHECK recomputes the arming (02 R54; 06 R165). -/
def Dev.writeLomCtl (d : Dev) (w : Who) (v : Word) : Dev :=
  let d1 := d.commitWrite w R.LOM_CTL v
  if d1.hazard = d.hazard then d1 else d1.checkChanged

/-- DRW_HCFG: LANE_MERGE changes at the commit (04 R121). -/
def Dev.writeHcfg (d : Dev) (w : Who) (v : Word) : Dev :=
  let hn := d.drwSel
  let old := d.reg (instKey R.DRW_HCFG hn)
  if !d.rwlOk w then d.lockNote w R.DRW_HCFG old v
  else if d.inBeat then d.onLoom (fun l => { l with mergeNext := SMap.put 0 l.mergeNext hn (bitsN v.toNat 1 0 + 1) })
  else d.setFld (F.DRW_HCFG_LANE_MERGE.at hn) (bitsN v.toNat 1 0)

/-! ### Loader and charter (08 R248, R249) -/

/-- LDR_CMD. -/
def Dev.ldrCommand (d : Dev) (v : Word) : Dev :=
  let n := v.toNat
  let cmd := bitsN n 2 0
  let slot := bitsN n 23 16
  let bay := bitsN n 12 8
  if cmd = 1 then d.loadCmd slot
  else if cmd = 2 then d.loadAbort
  else if cmd = 3 then d.reloadBay bay (if bitN n 24 then some slot else none)
  else if cmd = 4 then d.abortBay
  else d

/-- LDR_ registers. -/
def Dev.writeLDR (d : Dev) (w : Who) (k : Nat) (v : Word) : Dev :=
  if k = R.LDR_CMD then d.ldrCommand v
  else
    let d := d.plainWrite w k v
    if k = R.LDR_DONE_CFG ∧ d.ldr.doneNew then d.setFld F.LDR_DONE_START_PEND (b2n d.autoStarts) else d

/-- CHR_ registers: the flash registers are OWNER's (08 R249). -/
def Dev.writeCHR (d : Dev) (w : Who) (k : Nat) (v : Word) : Dev :=
  if k ∈ [R.CHR_FL_ADDR, R.CHR_FL_DATA, R.CHR_FL_CMD, R.CHR_FL_STATUS] ∧ !w.owner then d.ignored w k
  else if k = R.CHR_FL_CMD then
    (if bitsN v.toNat 1 0 = 0 then d else d.flashCommand w.mid (bitsN v.toNat 1 0))
  else d.plainWrite w k v

/-! ### Lanes, links, lock (09 R288 to R290; 10 R319, R323) -/

/-- WRP_MSG_CTL. -/
def Dev.msgCtl (d : Dev) (v : Word) : Dev :=
  let n := v.toNat
  let cmd := bitsN n 2 0
  if cmd = 1 then d.msgSend (bitsN n 22 16) (bitsN n 13 8) (bitN n 4) else if cmd = 2 then d.msgAbort else d

/-- WRP_LANE_CFG: a change of EN starts training, or disables the lane (09 R251). -/
def Dev.laneCfg (d : Dev) (w : Who) (v : Word) : Dev :=
  let ph := d.fld F.WRP_LANE_SEL_LANE
  let d1 := d.plainWrite w R.WRP_LANE_CFG v
  if d1.fld (F.WRP_LANE_CFG_EN.at ph) = d.fld (F.WRP_LANE_CFG_EN.at ph) then d1 else d1.startTraining ph

/-- WRP_ registers. -/
def Dev.writeWRP (d : Dev) (w : Who) (k : Nat) (v : Word) : Dev :=
  let ph := d.fld F.WRP_LANE_SEL_LANE
  if k = R.WRP_LANE_CFG then d.laneCfg w v
  else if k = R.WRP_LANE_PWR then d.lanePower ph (bitsN v.toNat 1 0)
  else if k = R.WRP_LANE_LB then d.loopback ph (bitsN v.toNat 1 0) (bitN v.toNat 4)
  else if k = R.WRP_MSG_SEL then d.msgSelect (bitsN v.toNat 3 0)
  else if k = R.WRP_MSG_DATA then d.msgData v
  else if k = R.WRP_MSG_CTL then d.msgCtl v
  else if k = R.WRP_RXMSG_CTL then (if bitN v.toNat 0 then d.msgPop else d)
  else d.plainWrite w k v

/-- WFT_ registers. -/
def Dev.writeWFT (d : Dev) (w : Who) (k : Nat) (v : Word) : Dev :=
  if k = R.WFT_LINK_CFG then
    let p := d.fld F.WFT_LINK_SEL_LINK
    if d.rwlOk w then d.linkEnable p (bitN v.toNat 0) else d.lockNote w k (d.reg (d.keyAt k)) v
  else d.plainWrite w k v

/-- UNLOCK set or cleared, with its event (10 R319). -/
def Dev.setUnlock (d : Dev) (on : Bool) : Dev :=
  if on == d.unlocked then d
  else (d.setFld F.MGT_LOCK_UNLOCK (b2n on)).event bMGT 0 (if on then 0x840 else 0x841) 0

/-- MGT_LOCK (10 R319, R323; 08 R216). UNLOCK takes no write without OWNER authority, whatever its value, and each is logged. -/
def Dev.writeMGT (d : Dev) (w : Who) (k : Nat) (v : Word) : Dev :=
  if k ≠ R.MGT_LOCK then d.plainWrite w k v
  else if w.charter then d.setFld F.MGT_LOCK_TIMEOUT (bitsN v.toNat 31 16)
  else if !w.owner then
    (d.setFld F.MGT_LOCK_TIMEOUT (bitsN v.toNat 31 16)).ignored w k
  else (d.setFld F.MGT_LOCK_TIMEOUT (bitsN v.toNat 31 16)).setUnlock (bitN v.toNat 0)

/-! ### Capture, fail maps, shuttles, scheduler (11 R346, R350; 12 R379) -/

/-- CAP_CMD. -/
def Dev.capCommand (d : Dev) (v : Word) : Dev :=
  let u := d.fld F.CAP_UNIT_SEL_UNIT
  let cmd := bitsN v.toNat 1 0
  if cmd = 1 then d.capArm u else if cmd = 2 then d.capStop u else if cmd = 3 then d.capTrigger u else d

/-- CAP_ registers. -/
def Dev.writeCAP (d : Dev) (w : Who) (k : Nat) (v : Word) : Dev :=
  let st := d.capState (d.fld F.CAP_UNIT_SEL_UNIT)
  if R.CAP_UNIT_CFG ≤ k ∧ k ≤ R.CAP_RED_CFG then
    if st = cpIdle ∨ st = cpEnded then d.plainWrite w k v else d.ignored w k
  else if k = R.CAP_CMD then d.capCommand v
  else if k = R.CAP_DSK_VAL then
    { d with cap := { d.cap with deskew := SMap.put 0 d.cap.deskew (d.fld F.CAP_DSK_SEL_INDEX) (bitsN v.toNat 15 0) } }
  else d.plainWrite w k v

/-- FMP_CMD.CLEAR of the selected map (11 R346). -/
def Dev.fmpClear (d : Dev) (w : Who) : Dev :=
  let m := d.fld F.FMP_SEL_MAP
  if !d.mapValid m ∨ SMap.get 0 d.cap.clearing m ≠ 0 then d.ignored w R.FMP_CMD
  else if d.inBeat then
    (if d.cap.clearPend.contains m then d else { d with cap := { d.cap with clearPend := d.cap.clearPend ++ [m] } })
  else d.clearStart m d.loom.beat

/-- FMP_ registers. -/
def Dev.writeFMP (d : Dev) (w : Who) (k : Nat) (v : Word) : Dev :=
  if k = R.FMP_CMD then (if bitN v.toNat 0 then d.fmpClear w else d) else d.plainWrite w k v

/-- WSC_ registers. -/
def Dev.writeWSC (d : Dev) (w : Who) (k : Nat) (v : Word) : Dev :=
  if k = R.WSC_POST_DATA then d.wscPostData v
  else if k = R.WSC_POST_CMD then d.wscPost (bitN v.toNat 0) w.owner w.mid
  else if k = R.WSC_CMD then (if bitN v.toNat 0 then d.wscCancel (bitsN v.toNat 31 16) else d)
  else d.plainWrite w k v

/-- A shuttle of the cluster runs an item. -/
def Dev.clusterBusy (d : Dev) (c : Nat) : Bool := (List.range 8).any (fun i => (d.sh (8 * c + i)).item.isSome)

/-- A handover: a write of CLM_BANK_OWNER (12 R368). `bank`: 32 * cluster + bank. -/
def Dev.handover (d : Dev) (w : Who) (bank : Nat) (v : Word) : Dev :=
  let kind := bitsN v.toNat 9 8
  let id := if kind = 0 ∨ kind = 3 then 0 else bitsN v.toNat 6 0
  let hide := decide (w.mid < 128) && w.fw && d.fld F.TRC_CTL_FW_VIS == 0
  let ok := (w.owner || w.charter || d.ownsBank w.mid bank) && (kind != 3 || 30 ≤ bank % 32) &&
    !d.rel.badCluster.contains (bank / 32)
  let d := if ok then d.traceNote (bank / 32) false tpHANDOVER (if hide ∨ 128 ≤ w.mid then 0xFF else w.mid)
      (bank / 32 + bank % 32 * 2 ^ 8 + kind * 2 ^ 16 + id * 2 ^ 24 + (if decide (w.mid < 128) && w.fw then 0xFFF else w.mid % 4096) * 2 ^ 32) else d
  if ok then d.setReg (instKey R.CLM_BANK_OWNER bank) (w32 (kind * 2 ^ 8 + id))
  else (d.ignored w (R.CLM_BANK_OWNER + 4 * bank)).event bCLM 0 0x706 (bank / 32 + bank % 32 * 16 + w.mid % 4096 * 2 ^ 12)

/-- CLM_CFG (12 R369). -/
def Dev.writeClmCfg (d : Dev) (w : Who) (v : Word) : Dev :=
  let old := (d.reg R.CLM_CFG).toNat
  let busy := (List.range 16).any (fun c => old.testBit c != v.toNat.testBit c && d.clusterBusy c)
  if d.rwlOk w ∧ busy then d.ignored w R.CLM_CFG else d.plainWrite w R.CLM_CFG v

/-- CLM_ registers. -/
def Dev.writeCLM (d : Dev) (w : Who) (k : Nat) (v : Word) : Dev :=
  if k = R.CLM_CFG then d.writeClmCfg w v
  else if R.CLM_BANK_OWNER ≤ k ∧ k < R.CLM_BANK_OWNER + 0x800 then d.handover w ((k - R.CLM_BANK_OWNER) / 4) v
  else if k = R.CLM_MBX_MODE then d.commitWrite w k v
  else if k = R.CLM_STARVE_CNT then
    let d := d.plainWrite w k v
    if d.reg k = 0 then d.onHubd (fun h => { h with hub := { h.hub with starved := false } }) else d
  else d.plainWrite w k v

/-! ### Hub die (13 R394, R402, R410, R411) -/

/-- GK_ registers (13 R410). -/
def Dev.writeGK (d : Dev) (w : Who) (k : Nat) (v : Word) : Dev :=
  if k = R.GK_SEL then d.gkSelWrite v
  else if k = R.GK_ENT0 then d.gkEnt0 v
  else if R.GK_ENT1 ≤ k ∧ k ≤ R.GK_ENT3 then d.gkStaged ((k - R.GK_ENT0) / 4) v
  else d.plainWrite w k v

/-- A bobbin channel. -/
def Dev.bob (d : Dev) (c : Nat) : Bob := SMap.get Bob.empty d.hubd.bobs c

/-- A bobbin channel changed. -/
def Dev.onBob (d : Dev) (c : Nat) (f : Bob → Bob) : Dev :=
  d.onHubd (fun h => { h with bobs := SMap.put Bob.empty h.bobs c (f (SMap.get Bob.empty h.bobs c)) })

/-- A command of a channel is refused (13 R394, R402, R411). -/
def Dev.bobRefuse (d : Dev) (c : Nat) : Dev := d.setFld (F.BOB_CH_STATUS_REASON.at c) 1

/-- GO (13 R394). `fw`: the privilege of the master that writes it. -/
def Dev.bobGo (d : Dev) (c : Nat) (fw : Bool) : Dev :=
  if 32 ≤ c then d
  else if d.bobBusy c then d.bobRefuse c
  else
    let a := (d.reg (instKey R.BOB_CH_DESC_LO c)).toNat / 64 * 64 + d.fld (F.BOB_CH_DESC_HI_ADDR_HI.at c) * 2 ^ 32
    let d := ((d.setReg (instKey R.BOB_CH_STATUS c) 0).setFld (F.BOB_CH_STATUS_STATUS.at c) 1).setFld (F.BOB_CH_STATUS_STATE.at c) 1
    let d := ((d.setReg (instKey R.BOB_CH_BYTES c) 0).setReg (instKey R.BOB_CH_ERR_LO c) 0).setReg (instKey R.BOB_CH_ERR_HI c) 0
    d.onBob c (fun _ => { Bob.empty with addr := a, priv := fw, tokens := bobBucket })

/-- ABORT (13 R402): a channel that can write on has a write in flight, and drains; any other ends at once. -/
def Dev.bobAbort (d : Dev) (c : Nat) : Dev :=
  let st := d.fld (F.BOB_CH_STATUS_STATE.at c)
  let d0 := d.setFld (F.BOB_CH_STATUS_REASON.at c) 0
  if 32 ≤ c then d
  else if st = 2 ∧ Bd.canWrite (d.bob c).desc (d.bob c).inp.length (d.bob c).outPos then d0.setFld (F.BOB_CH_STATUS_STATE.at c) 3
  else if st = 1 ∨ st = 2 then d0.bobEnd c 3 0
  else if st = 3 then d0
  else d.bobRefuse c

/-- BOB_ registers. -/
def Dev.writeBOB (d : Dev) (w : Who) (k : Nat) (v : Word) : Dev :=
  if k = R.BOB_CH_CMD then
    let c := d.fld F.BOB_CH_SEL_CH
    let cmd := bitsN v.toNat 1 0
    if cmd = 1 then d.bobGo c w.fw else if cmd = 2 then d.bobAbort c else d
  else d.plainWrite w k v

/-! ### Reliability (14 R444 to R447) -/

/-- ECC_ registers. -/
def Dev.writeECC (d : Dev) (w : Who) (k : Nat) (v : Word) : Dev :=
  if k = R.ECC_INJ_CMD then
    if !bitN v.toNat 0 then d else if w.owner && d.unlocked then d.inject w.mid else d.ignored w k
  else d.plainWrite w k v

/-- BST_CFG: ROLL_EN changes at the commit (14 R445). -/
def Dev.writeBstCfg (d : Dev) (w : Who) (v : Word) : Dev :=
  let d1 := d.commitWrite w R.BST_CFG v
  d1.setReg R.BST_CFG (setBits (d1.pendingReg R.BST_CFG) 3 3 (d1.fld F.BST_CFG_ROLL_EN))

/-- BST_ registers. -/
def Dev.writeBST (d : Dev) (w : Who) (k : Nat) (v : Word) : Dev :=
  if k = R.BST_CFG then d.writeBstCfg w v
  else if k = R.BST_CMD then
    let cmd := bitsN v.toNat 1 0
    if w.mid < 128 ∧ cmd = 1 then d.ignored w k
    else if cmd = 1 then d.bistStart w.owner (bitsN v.toNat 11 8) else if cmd = 2 then d.bistAbort else d
  else d.plainWrite w k v

/-- FUS_ registers. -/
def Dev.writeFUS (d : Dev) (w : Who) (k : Nat) (v : Word) : Dev :=
  if k = R.FUS_CMD then (if w.owner then d.fuseStart (bitsN v.toNat 2 0) else d.ignored w k) else d.plainWrite w k v

/-- LOG_ registers. -/
def Dev.writeLOG (d : Dev) (w : Who) (k : Nat) (v : Word) : Dev :=
  if k = R.LOG_CTL then
    let d := d.plainWrite w k v
    if !bitN v.toNat 1 then d else if w.owner then d.logClear else d.ignored w k
  else d.plainWrite w k v

/-! ### Power, watch, trace (15 R471 to R473) -/

/-- PWR_ registers. A pair of the charter does not load the two commands (15 R471). -/
def Dev.writePWR (d : Dev) (w : Who) (k : Nat) (v : Word) : Dev :=
  let req := bitsN v.toNat 1 0
  let p := d.fld F.PWR_PANEL_SEL_PANEL
  if w.charter ∧ (k = R.PWR_DEV_REQ ∨ k = R.PWR_PANEL_REQ) then d
  else if k = R.PWR_DEV_REQ then
    if !d.rwlOk w then d.lockNote w k (d.reg k) v else if req = 3 then d else d.devWrite w.mid req w.owner
  else if k = R.PWR_PANEL_REQ then
    if !d.rwlOk w then d.lockNote w k (d.reg (d.keyAt k)) v
    else if req = 2 then d.sleepRequest w.mid p
    else if req = 3 then d.offRequest w.mid p
    else d.activeRequest p req
  else d.plainWrite w k v

/-- WCH_FILT: a filter that is switched off starts from its next first sample (15 R460). -/
def Dev.writeFilt (d : Dev) (w : Who) (v : Word) : Dev :=
  let f := d.fld F.WCH_SEL_INDEX
  let d := d.plainWrite w R.WCH_FILT v
  if d.fld (F.WCH_FILT_EN.at f) = 0 then (d.setFld (F.WCH_VALUE_Y.at f) 0).onWatch (fun x => { x with primed := offBit x.primed f })
  else d

/-- WCH_ registers. -/
def Dev.writeWCH (d : Dev) (w : Who) (k : Nat) (v : Word) : Dev :=
  if k = R.WCH_CMD then (if bitN v.toNat 0 then d.unpark w.mid w.owner else d)
  else if k = R.WCH_FILT then d.writeFilt w v
  else if k = R.WCH_RULE_HI then
    if d.rwlOk w then d.ruleHi (d.fld F.WCH_SEL_INDEX) v else d.lockNote w k (d.reg (d.keyAt k)) v
  else d.plainWrite w k v

/-- A field that only OWNER authority writes while unlocked, and the event codes of its change (15 R464, R468): for a
shuttle the write is reserved (00 R16). -/
def Dev.ownerBit (d : Dev) (w : Who) (k : Nat) (f : Fld) (v : Word) (code : Nat) : Dev :=
  let n := bitsN v.toNat f.hi f.lo
  if n = d.fld f then d
  else if d.ownerOpen w then (d.setFld f n).event (blkOf k) 0 (if n = 1 then code else code + 1) 0
  else if w.mid < 128 then d.ignored w k
  else d.access 0x805 w.mid k

/-- TRC_ registers: settings only while EN = 0 or in the write that sets EN to 0 (15 R473); EN set restarts TRC_WPTR. -/
def Dev.writeTRC (d : Dev) (w : Who) (k : Nat) (v : Word) : Dev :=
  let was := d.fld F.TRC_CTL_EN
  if k = R.TRC_CTL then
    let d := d.ownerBit w k F.TRC_CTL_FW_VIS v 0xC01
    let new := setBits (v &&& 0x7FFFFC0F) 31 31 (d.fld F.TRC_CTL_FW_VIS)
    if was = 0 ∨ bitsN v.toNat 0 0 = 0 then
      let d := d.setReg k new
      if was = 0 ∧ d.fld F.TRC_CTL_EN = 1 then d.setReg R.TRC_WPTR 0 else d
    else if new = d.reg k then d
    else d.ignored w k
  else if k ∈ [R.TRC_BUF_BASE, R.TRC_ETH_ADDR, R.TRC_ETH_PORT] ∧ was = 1 then d.ignored w k
  else d.plainWrite w k v

/-- TMX_ registers. -/
def Dev.writeTMX (d : Dev) (w : Who) (k : Nat) (v : Word) : Dev :=
  if k = R.TMX_CTL then (d.setFld F.TMX_CTL_URG_MIN (bitsN v.toNat 10 8)).ownerBit w k F.TMX_CTL_EN v 0xC03
  else d.plainWrite w k v

/-- IOC_ registers; pins 48 to 63 ignore writes (17 R503). -/
def Dev.writeIOC (d : Dev) (w : Who) (k : Nat) (v : Word) : Dev :=
  if k = R.IOC_PIN_CFG ∧ 48 ≤ d.fld F.IOC_PIN_SEL_PIN then d else d.plainWrite w k v

/-! ### The write -/

/-- A write of a register by its block (13 R382). -/
def Dev.regWrite (d : Dev) (w : Who) (k : Nat) (v : Word) : Dev :=
  match blkOf k with
  | 0x00 => d.writeTRD w k v
  | 0x01 =>
    if k = R.LOM_CTL then d.writeLomCtl w v
    else if k = R.LOM_RETRY_CFG then d.commitWrite w k v
    else d.plainWrite w k v
  | 0x02 => if k = R.DRW_HCFG then d.writeHcfg w v else d.plainWrite w k v
  | 0x04 => d.writeWRP w k v
  | 0x05 => d.writeWFT w k v
  | 0x07 => d.writePTP w k v
  | 0x08 => d.writeLDR w k v
  | 0x09 => d.writeCHR w k v
  | 0x0A => d.writeCAP w k v
  | 0x0B => d.writeFMP w k v
  | 0x0D => d.writeWSC w k v
  | 0x0E => d.writeCLM w k v
  | 0x10 => d.writeGK w k v
  | 0x11 => d.writeBOB w k v
  | 0x13 => d.writeECC w k v
  | 0x14 => d.writeBST w k v
  | 0x15 => d.writeFUS w k v
  | 0x16 => d.writeLOG w k v
  | 0x17 => d.writeWCH w k v
  | 0x18 => d.writePWR w k v
  | 0x19 => d.writeIOC w k v
  | 0x1A => d.writeTMX w k v
  | 0x1B => d.writeTRC w k v
  | 0x1C => d.writeMGT w k v
  | _ => d.plainWrite w k v

end Sys2Proof.Machine
end

