-- ==== Sys2Proof/Machine/Sinks.lean ====
section
/-!
DEFINITION. Records on their way from a unit's write queue into its buffer (11 R330, R331, R336, R341).
-/

namespace Sys2Proof.Machine

/-- Writes into a unit's ring buffer from byte offset `off`, wrapping at 2^SIZE (R330). -/
def Dev.ringWrite (d : Dev) (u off : Nat) (bs : List Byte) : Dev :=
  let base := d.capFld F.CAP_BUF_BASE_BASE u * 256
  let size := 2 ^ d.capFld F.CAP_UNIT_CFG_SIZE u
  let n := size - off % size
  (d.sinkWrite (midCAP + u) (base + off % size) (bs.take n)).sinkWrite (midCAP + u) base (bs.drop n)

/-- A record's bytes sent to the buffer, and CAP_WPTR advanced past them (R331). -/
def Dev.writeRecord (d : Dev) (u : Nat) (bs : List Byte) : Dev :=
  let w := (d.reg (instKey R.CAP_WPTR u)).toNat
  (d.ringWrite u w bs).setReg (instKey R.CAP_WPTR u) (BitVec.ofNat 32 (w + bs.length))

/-- A MARK record takes the time base at its writing (R330). -/
def Dev.stamped (d : Dev) (bs : List Byte) : List Byte := if bs[8]? = some 4 then leBytes 4 d.tb.tb.toNat ++ bs.drop 4 else bs

/-- Every write response of the oldest queued record has arrived; the record that ends the capture ends it DONE; after
LOW nothing is written until the next commit (16 R476, R331,
R336). -/
def Dev.recordWritten (d : Dev) (u : Nat) : Dev :=
  match (d.cu u).queue with
  | [] => d
  | r :: t =>
    if 16 ≤ u ∨ d.cap.quiet then d
    else
      let d := (d.onUnit u (fun x => { x with queue := t })).writeRecord u (d.stamped r.2)
      if (d.cu u).closing && t.isEmpty then d.capEnd u 2 0x603 r.1 else d

/-- The queue has drained and the OVERFLOW MARK is written (R341). -/
def Dev.overflowMark (d : Dev) (u : Nat) : Dev :=
  match (d.cu u).mark with
  | none => d
  | some m =>
    if (d.cu u).queue.isEmpty && !d.cap.quiet then
      (d.writeRecord u (d.markRecord u 1 m.1 m.2)).onUnit u (fun x => { x with mark := none, seq := x.seq + 1 })
    else d

end Sys2Proof.Machine
end

