-- ==== Sys2Proof/Machine/State.lean ====
section
/-!
DEFINITION. The machine: the device and the queue of commands that wait; faults and refusals; the state after reset; how a
command acts on the device.
-/

namespace Sys2Proof.Machine

/-- Faults of the model. None: no command of the spec ends the machine, and a command whose condition does not hold leaves the
state as it is (assumption log 1). Safe: nothing raises one. -/
inductive Fault where
  deriving DecidableEq, Repr

/-- Refusals of the model. -/
inductive Refusal where
  /-- A command that the model gives no meaning. Raised by no arm: safe. -/
  | notModelled (mnemonic : String)
  deriving DecidableEq, Repr

/-- The machine. -/
structure State where
  dev : Dev
  /-- commands that wait, first in, first out -/
  pending : List Instr
  deriving DecidableEq, Repr

/-- What a meaning answers. -/
abbrev Outcome := Host.Outcome State Fault Refusal

/-- The device right after PORST_N has risen with every supply, the AON clocks and WRST_N in place (08 R210 event 1): every
register at its reset value, memories, queues and units empty (assumption log 3). -/
def Dev.reset : Dev :=
  { regs := [], mem := [], chk := [], bad := [], loom := Loom.empty, trd := Treadle.empty, tb := TimeBase.empty
    log := { slots := [], queue := [], burst := false }, warp := Warp.empty, cap := Cap.empty, weft := Weft.empty, rel := Rel.empty
    plat := { Plat.empty with aonUp := true, crystalDone := true, aonPll := 2, porst := true, stage := 1 }
    hubd := HubDie.empty, charter := none, ldr := Loader.empty, eth := Eth.empty, flash := [], tick := 0, tickNs := 0
    alerts := 0, freeCtr := 0 }

/-- The machine right after reset: no command waits. -/
def State.reset : State := { dev := Dev.reset, pending := [] }

/-- The device is powered and out of reset: its logic other than the AON domain runs (08 R211; 15 R455). -/
def Dev.on (d : Dev) : Bool := d.plat.porst && d.plat.wrst && d.fld F.PWR_STATUS_DEV != 2

/-- The AON domain runs: watch unit, error log, power controller (01 R18). -/
def Dev.aonOn (d : Dev) : Bool := d.plat.aonUp && d.plat.porst && d.plat.crystalDone

/-- A command of a pin, a supply or the management port. -/
def State.actPin (s : State) (f : Dev → Dev) : Outcome := .next { s with dev := f s.dev }

/-- A command of the powered device; otherwise nothing happens (assumption log 1). -/
def State.act (s : State) (f : Dev → Dev) : Outcome := if s.dev.on then .next { s with dev := f s.dev } else .next s

/-- The powered device's hub rings carry requests: no link has failed (13 R407). -/
def Dev.ringsOn (d : Dev) : Bool := d.on && !d.hubd.hub.stopped

/-- A command that travels on the hub rings: a register access, or a unit's access to memory (13 R383, R407); otherwise nothing happens
(assumption log 1). -/
def State.actHub (s : State) (f : Dev → Dev) : Outcome := if s.dev.ringsOn then .next { s with dev := f s.dev } else .next s

/-- A command of the AON domain; otherwise nothing happens (assumption log 1). -/
def State.actAon (s : State) (f : Dev → Dev) : Outcome := if s.dev.aonOn then .next { s with dev := f s.dev } else .next s

end Sys2Proof.Machine
end

