-- ==== Sys2Proof/Machine/CmdCapture.lean ====
section
/-!
DEFINITION. The meanings of the commands of capture units and fail maps (11).
-/

namespace Sys2Proof.Machine

/-- ARM (R332). -/
def execArm (u : Nat) (s₀ : State) : Outcome := s₀.actHub (fun d => d.capArm u)

/-- CAP_STOP (R340). -/
def execCapStop (u : Nat) (s₀ : State) : Outcome := s₀.actHub (fun d => d.capStop u)

/-- TRIGGER (R334). -/
def execTrigger (u : Nat) (s₀ : State) : Outcome := s₀.act (fun d => d.capTrigger u)

/-- RECORD_COMPLETE (R329). -/
def execRecordComplete (u : Nat) (s₀ : State) : Outcome := s₀.act (fun d => d.recordComplete u)

/-- CAPTURE_RSP_TIMEOUT (R329). -/
def execCaptureRspTimeout (u : Nat) (s₀ : State) : Outcome := s₀.act (fun d => d.captureTimeout u)

/-- RECORD_WRITTEN (R331). -/
def execRecordWritten (u : Nat) (s₀ : State) : Outcome := s₀.actHub (fun d => d.recordWritten u)

/-- OVERFLOW_MARK (R341). -/
def execOverflowMark (u : Nat) (s₀ : State) : Outcome := s₀.actHub (fun d => d.overflowMark u)

/-- FAIL_MAP_OR (R344). -/
def execFailMapOr (s₀ : State) : Outcome := s₀.actHub (fun d => d.failMapOr)

/-- CLEAR (R346). -/
def execClear (mid : Nat) (s₀ : State) : Outcome := s₀.actHub (fun d => d.fmpClear (d.who mid))

/-- CLEAR_COMPLETE (R346). -/
def execClearComplete (map : Nat) (s₀ : State) : Outcome := s₀.actHub (fun d => d.clearComplete map)

/-- APPLIED_READ (R351). -/
def execAppliedRead (s₀ : State) : Outcome := s₀.actHub (fun d => d.appliedLatch)

/-- BEAT_COUNT_READ (R59). -/
def execBeatCountRead (s₀ : State) : Outcome := s₀.actHub (fun d => d.beatLatch)

end Sys2Proof.Machine
end

