-- ==== Sys2Proof/Machine/Access.lean ====
section
/-!
DEFINITION. A master's request at its target: the gatekeeper, then memory or register space (13 R380 to R392).
-/

namespace Sys2Proof.Machine

/-- A read of n bytes of one 64-byte line: STATUS and the bytes. `acc`: a read, or an instruction fetch. Register space takes
only one aligned 32-bit word (00 R5). -/
def Dev.busRead (d : Dev) (mid acc a n : Nat) : Dev × Nat × List Byte :=
  let (d, st) := d.gate mid acc a
  if st ≠ stOK then (d, st, [])
  else if regionOf a = .regs then
    if n = 4 ∧ a % 4 = 0 then
      let (d, w) := d.regRead (a - regBase)
      (d, stOK, leBytes 4 w.toNat)
    else (d.access 0x804 mid (a - regBase), stALIGN, [])
  else d.memRead mid a n

/-- A write of bytes of one 64-byte line, by rising address: STATUS. -/
def Dev.busWrite (d : Dev) (mid a : Nat) (ws : List (Nat × Byte)) : Dev × Nat :=
  let (d, st) := d.gate mid gkWRITE a
  if st ≠ stOK then (d, st)
  else if regionOf a = .regs then
    match ws with
    | [x, _, _, _] =>
      if x.1 % 4 = 0 ∧ ws.map Prod.fst = [x.1, x.1 + 1, x.1 + 2, x.1 + 3] then
        (d.regWrite (d.who mid) (x.1 - regBase) (w32 (leNat (ws.map Prod.snd))), stOK)
      else (d.access 0x804 mid (a - regBase), stALIGN)
    | _ => (d.access 0x804 mid (a - regBase), stALIGN)
  else d.memWrite (d.fwOf mid) a ws

/-- An OR of one 32-bit word: STATUS and the word before (13 R385). -/
def Dev.busOr (d : Dev) (mid a : Nat) (bits : Word) : Dev × Nat × Word :=
  let (d, st) := d.gate mid gkOR a
  if st ≠ stOK then (d, st, 0)
  else if regionOf a = .regs then
    let (d, w) := d.regRead (a - regBase)
    (d.regWrite (d.who mid) (a - regBase) (w ||| bits), stOK, w)
  else d.memOr mid a bits

/-- A 32-bit word written (13 R385). -/
def Dev.busWord (d : Dev) (mid a : Nat) (w : Word) : Dev × Nat := d.busWrite mid a (pairsAt a (leBytes 4 w.toNat))

/-- A register of register space written by a master: a command that the register starts (00 R14, R16; 10 R321). -/
def Dev.regCommand (d : Dev) (mid k : Nat) (v : Word) : Dev := (d.busWord mid (regBase + k) v).1

/-- A handover: a write of CLM_BANK_OWNER of a bank (12 R368). -/
def Dev.handoverBy (d : Dev) (mid bank : Nat) (v : Word) : Dev := d.regCommand mid (R.CLM_BANK_OWNER + 4 * bank) v

/-- n bytes of any memory, line by line, up to the first error. -/
def Dev.busReadMany (d : Dev) (mid a n : Nat) : Dev × Nat × List Byte :=
  (linePieces (n / 64 + 2) a n).foldl (fun (s : Dev × Nat × List Byte) p =>
    if s.2.1 ≠ stOK then s
    else
      let (d, st, bs) := s.1.busRead mid gkREAD p.1 p.2
      (d, st, s.2.2 ++ bs)) (d, stOK, [])

/-- Bytes written to any memory, line by line, up to the first error. -/
def Dev.busWriteMany (d : Dev) (mid a : Nat) (bs : List Byte) : Dev × Nat :=
  (linePieces (bs.length / 64 + 2) a bs.length).foldl (fun (s : Dev × Nat) p =>
    if s.2 ≠ stOK then s
    else s.1.busWrite mid p.1 (pairsAt p.1 ((bs.drop (p.1 - a)).take p.2))) (d, stOK)

end Sys2Proof.Machine
end

