-- ==== Sys2Proof/Machine/Bobbin.lean ====
section
/-!
DEFINITION. Bobbin DMA (13 R394 to R402): what a channel does as its accesses are answered.
-/

namespace Sys2Proof.Machine

/-- An address is one of the bytes of a stream of lines. -/
def inStream (base : Nat) (stride : Int) (len cnt a : Nat) : Bool :=
  (List.range cnt).any (fun i => let b := (Int.ofNat base + stride * Int.ofNat i).toNat; b ≤ a && a < b + len)

/-! ### The channel -/

/-- A channel ends HALTED on a failure at an address (R396, R401). -/
def Dev.bobHalted (d : Dev) (c cause st a : Nat) : Dev :=
  let d := (d.setReg (instKey R.BOB_CH_ERR_LO c) (w32 a)).setFld (F.BOB_CH_ERR_HI_ADDR_HI.at c) (a / 2 ^ 32)
  let d := (d.setFld (F.BOB_CH_STATUS_RSP.at c) st).event bBOB c (0x80F + cause) (c % 32 + st % 16 * 32 + bitsN a 36 6 * 2 ^ 9)
  d.bobEnd c 5 cause

/-- A write of the running channel is outstanding: one goes out as soon as its bytes are read. -/
def Dev.bobWriting (d : Dev) (c : Nat) : Bool :=
  d.fld (F.BOB_CH_STATUS_STATE.at c) == 2 && Bd.canWrite (d.bob c).desc (d.bob c).inp.length (d.bob c).outPos

/-- A channel halts on a failure: it sends no new request, and one that has a write outstanding beside a read that failed waits for its
response in DRAIN (R401). -/
def Dev.bobHalt (d : Dev) (c cause st a : Nat) (read : Bool) : Dev :=
  if read ∧ d.bobWriting c then
    (d.onBob c (fun x => { x with halt := some ⟨cause, st, a⟩ })).setFld (F.BOB_CH_STATUS_STATE.at c) 3
  else d.bobHalted c cause st a

/-- A channel in DRAIN has its last response: it ends HALTED, or for an ABORT ABORTED (R401, R402). -/
def Dev.bobDrained (d : Dev) (c : Nat) : Dev :=
  match (d.bob c).halt with
  | some x => (d.onBob c (fun y => { y with halt := none })).bobHalted c x.cause x.status x.addr
  | none => d.bobEnd c 3 0

/-- A response with an error: the access is retried, or the channel halts (R401). Uncorrectable data halts it at once. -/
def Dev.bobError (d : Dev) (c st a : Nat) (read : Bool) : Dev :=
  if st = stUE then d.bobHalt c (if read then 2 else 1) st a read
  else if read && (d.bob c).retries < d.fld (F.BOB_CH_CFG_RETRY_MAX.at c) then
    d.onBob c (fun x => { x with retries := x.retries + 1 })
  else if !read && (d.bob c).wretries < d.fld (F.BOB_CH_CFG_RETRY_MAX.at c) then
    d.onBob c (fun x => { x with wretries := x.wretries + 1 })
  else d.bobHalt c 1 st a read

/-- The channel's bucket holds the tokens of a request flit (R399). -/
def Dev.bobReady (d : Dev) (c : Nat) : Bool := decide (bobFlit ≤ (d.bob c).tokens)

/-- A request flit leaves the channel (R399). -/
def Dev.bobPay (d : Dev) (c : Nat) : Dev := d.onBob c (fun x => { x with tokens := x.tokens - bobFlit })

/-- The channel fetches its descriptor and checks it (R394, R396). -/
def Dev.descFetch (d : Dev) (c : Nat) : Dev :=
  if 32 ≤ c ∨ d.fld (F.BOB_CH_STATUS_STATE.at c) ≠ 1 ∨ d.hubd.hub.stopped ∨ !d.bobReady c then d
  else
    let a := (d.bob c).addr
    let (d, st, bs) := (d.bobPay c).busRead (midBOB + c) gkREAD a 64
    if st ≠ stOK then d.bobError c st a true
    else
      let x : BitVec 512 := BitVec.ofNat 512 (leNat bs)
      if Bd.fieldsOk x && Bd.shufOk x then
        (d.onBob c (fun b => { b with desc := x, inp := [], outPos := 0, retries := 0, wretries := 0 })).setFld (F.BOB_CH_STATUS_STATE.at c) 2
      else d.bobHalted c 3 0 a

/-- The next read of the source stream: a whole 64-byte line, of which the stream takes its bytes (R398). -/
def Dev.bobRead (d : Dev) (c : Nat) : Dev :=
  let b := d.bob c
  let x := b.desc
  let p := b.inp.length
  let a := streamAddr (Bd.src x) (Bd.srcStride x) (Bd.srcLen x) p
  let n := min (Bd.srcLen x - p % Bd.srcLen x) (64 - a % 64)
  let (d, st, bs) := (d.bobPay c).busRead (midBOB + c) gkREAD (a / 64 * 64) 64
  if st ≠ stOK then d.bobError c st a true
  else d.onBob c (fun y => { y with inp := y.inp ++ (bs.drop (a % 64)).take n, retries := 0 })

/-- Every write of the descriptor is acknowledged: the chain goes on, or is DONE (R394, R400). -/
def Dev.bobNext (d : Dev) (c : Nat) : Dev :=
  let x := (d.bob c).desc
  if Bd.chain x then (d.onBob c (fun y => { y with addr := Bd.next x, retries := 0 })).setFld (F.BOB_CH_STATUS_STATE.at c) 1
  else d.bobEnd c 2 0

/-- Bytes of an overlap of source and destination: each ends new or old (R397). -/
def Dev.bobOverlap (d : Dev) (x : BitVec 512) (ws : List (Nat × Byte)) : Dev × List (Nat × Byte) :=
  ws.foldl (fun (s : Dev × List (Nat × Byte)) w =>
    if inStream (Bd.src x) (Bd.srcStride x) (Bd.srcLen x) (Bd.srcCnt x) w.1 then
      let (d, keep) := s.1.flip
      (d, if keep then s.2 ++ [w] else s.2)
    else (s.1, s.2 ++ [w])) (d, [])

/-- The next write of the destination stream: a whole line, or bytes of one half (R398). -/
def Dev.bobWrite (d : Dev) (c : Nat) : Dev :=
  let b := d.bob c
  let x := b.desc
  let p := b.outPos
  let (a, n) := Bd.writeAt x p
  let ws := pairsAt a ((List.range n).map (fun i => Bd.out x b.inp (p + i)))
  let d := d.bobPay c
  let (d1, ws) := if regionOf a = .regs ∨ Bd.apart x then (d, ws) else d.bobOverlap x ws
  let (d1, st) := d1.busWrite (midBOB + c) a ws
  if st ≠ stOK then (if d.fld (F.BOB_CH_STATUS_STATE.at c) = 3 then d1.bobDrained c else d1.bobError c st a false)
  else
    let d1 := d1.setReg (instKey R.BOB_CH_BYTES c) (d1.reg (instKey R.BOB_CH_BYTES c) + w32 n)
    let d1 := d1.onBob c (fun y => { y with outPos := p + n, wretries := 0 })
    if d1.fld (F.BOB_CH_STATUS_STATE.at c) = 3 then d1.bobDrained c
    else if Bd.total x ≤ p + n then d1.bobNext c
    else d1

/-- A response of the channel arrives: that of its next write, or without `write` of its next read (R397 to R402). A write goes out as
soon as its bytes are read; an access waits for tokens. -/
def Dev.bobResponse (d : Dev) (c : Nat) (write : Bool) : Dev :=
  let st := d.fld (F.BOB_CH_STATUS_STATE.at c)
  let b := d.bob c
  if 32 ≤ c ∨ !(st = 2 ∨ st = 3) ∨ d.hubd.hub.stopped then d
  else if st = 3 then d.bobWrite c
  else if !d.bobReady c then d
  else if write then (if Bd.canWrite b.desc b.inp.length b.outPos then d.bobWrite c else d)
  else if b.inp.length < Bd.total b.desc then d.bobRead c
  else d

end Sys2Proof.Machine
end

