-- ==== Sys2Proof/Machine/HubRing.lean ====
section
/-!
DEFINITION. Requests and responses on the hub rings, and what their links report (12 R369; 13 R383 to R392, R407, R409).
-/

namespace Sys2Proof.Machine

/-- The hub changed. -/
def Dev.onHub (d : Dev) (f : Hub → Hub) : Dev := d.onHubd (fun h => { h with hub := f h.hub })

/-- The ring of an address (R386). -/
def ringOf (a : Nat) : Nat := bitsN a 8 6 ^^^ bitsN a 11 9

/-- Direction of a request between two stops: 0 UP, 1 DOWN (R386). -/
def dirOf (src dst : Nat) : Nat := if (dst + 32 - src % 32) % 32 ≤ 16 then 0 else 1

/-- The stop that sends a master's requests: a deep port's is its beam's panel bridge, the journal agent's that of the beam it serves (R383,
R389). None: the MID names no master, or the journal agent, whose beam decides. -/
def Dev.masterStop (d : Dev) (mid : Nat) : Option Nat :=
  if mid < 0x80 then some (mid / 8)
  else if 0x100 ≤ mid ∧ mid < 0x120 then some 28
  else if 0x200 ≤ mid ∧ mid < 0x280 then some (24 + d.panelOf (mid - 0x200) % 4)
  else if 0x320 ≤ mid ∧ mid ≤ 0x330 then some 29
  else if mid ∈ [0x300, 0x301, 0x310, 0x311, 0x340, 0x350, 0x370] then some 30
  else none

/-- The stop after stop j in direction UP (0) or DOWN (1) (R383). -/
def nextStop (dir j : Nat) : Nat := if dir = 0 then (j + 1) % 32 else (j + 31) % 32

/-- Hops from one stop to another in the direction of R386, and the stops on the way, the source included. -/
def hopsOf (src dst : Nat) : Nat := if dirOf src dst = 0 then (dst + 32 - src % 32) % 32 else (src + 32 - dst % 32) % 32
def stopsPassed (src dst : Nat) : List Nat :=
  ((List.range (hopsOf src dst)).foldl (fun (s : List Nat × Nat) _ => (s.1 ++ [s.2], nextStop (dirOf src dst) s.2)) ([], src % 32)).1

/-- HUB cycles from the injection of a flit to its arrival; at a target the check adds 2 (R383). -/
def flitCycles (src dst : Nat) : Nat := 2 + hopsOf src dst + 2

/-- LINE of an address: the 64-byte line within the space that its stop serves; at an HBM stop {pc[4:0], block, addr[7:6]} (R384; 05
R146, R147). -/
def Dev.lineOf (d : Dev) (a : Nat) : Nat :=
  match regionOf a with
  | .hbm =>
    let block := if d.loom.hashMode = 0 then bitsN a 37 16 else bitsN (a % 0x600000000) 34 13
    d.loom.hbmPc a % 32 * 2 ^ 24 + block * 4 + bitsN a 7 6
  | .jacquard => (a - jacquardBase) / 64 % 2 ^ 28
  | .beamMem => (a - beamMemBase) / 64 % 2 ^ 19
  | .cluster => (a - clusterBase) / 64 % 2 ^ 16
  | .tablet => 2 ^ 16 + (a - tabletBase) / 64 % 2 ^ 15
  | _ => (a - regBase) / 64 % 2 ^ 22

/-- The stop holds a response slot of its own on the ring and a credit for the target on it (R387); no stop injects once a link
has failed (R407). TAG is unique among the outstanding requests. -/
def Dev.mayInject (d : Dev) (q : HubReq) : Bool :=
  let r := ringOf q.addr
  let mine := d.hubd.hub.rsps.filter (fun x => x.ring == r && x.src == q.src)
  let there := mine.filter (fun x => x.dst == d.stopOf q.addr)
  !d.hubd.hub.stopped && mine.length < 64 && there.length < 16 && !there.any (fun x => x.tag == q.tag % 32)

/-- What the wait of a request leaves: a shuttle's own request starves no other master, and its access to its own tablet is no hub-side one
(12 R357, R369). -/
def Dev.waitCounted (d : Dev) (q : HubReq) : Dev :=
  if q.waited = 0 then d
  else match regionOf q.addr with
    | .cluster =>
      if q.mid < 128 then d
      else if (d.fld F.CLM_CFG_FULL).testBit ((q.addr - clusterBase) / 0x400000) then d.addFld F.CLM_STARVE_CNT_COUNT q.waited else d
    | .tablet =>
      if q.mid = (q.addr - tabletBase) / 0x40000 then d else d.addFld (F.SHT_STATUS_TAB_WAIT.at ((q.addr - tabletBase) / 0x40000)) 1
    | _ => d

/-- A request is served: what comes before its check. -/
def Dev.reqSeen (d : Dev) (q : HubReq) : Dev :=
  let d := match q.lost with
    | some e => d.gkLost e
    | none => d
  d.waitCounted q

/-- The urgency of a request by its age in HUB cycles (R388). -/
def Dev.urgOf (d : Dev) (age : Nat) : Nat := min 7 (age / max 1 (d.fld F.HUB_URG_CFG_STEP))

/-- The request that a target serves next: of the highest urgency, and among those the oldest (R388). -/
def Dev.targetNext (d : Dev) (qs : List HubReq) : Option HubReq :=
  qs.foldl (fun m q => match m with
    | none => some q
    | some p => if d.urgOf p.waited < d.urgOf q.waited ∨ (d.urgOf p.waited = d.urgOf q.waited ∧ p.waited < q.waited) then some q else m) none

/-- The head of an injection queue has reached URG 7: the stops upstream on its ring and direction each leave one slot empty (R388). -/
def Dev.slotLeft (d : Dev) (q : HubReq) : List Nat :=
  if d.urgOf q.waited = 7 then
    (List.range 32).filter (fun j => j != q.src % 32 && (stopsPassed j q.src).length ≤ 16 && dirOf j q.src == dirOf q.src (d.stopOf q.addr))
  else []

/-- The header of a request flit (R384). -/
def Dev.reqHead (d : Dev) (q : HubReq) (typ : Nat) : BitVec 64 :=
  BitVec.ofNat 64 (typ % 16 * 2 ^ 60 + d.stopOf q.addr * 2 ^ 55 + q.src % 32 * 2 ^ 50 + d.urgOf q.waited * 2 ^ 47 + q.tag % 32 * 2 ^ 42 +
    b2n (d.fwOf q.mid) * 2 ^ 41 + q.mid % 4096 * 2 ^ 29 + d.lineOf q.addr)

/-- The header of a response flit (R384). -/
def HubRsp.head (r : HubRsp) : BitVec 64 :=
  BitVec.ofNat 64 (r.typ % 16 * 2 ^ 60 + r.src % 32 * 2 ^ 55 + r.dst % 32 * 2 ^ 50 + r.urg % 8 * 2 ^ 47 + r.tag % 32 * 2 ^ 42 +
    r.status % 16 * 2 ^ 38)

/-- A response flit: 576 bits (R384). -/
def HubRsp.flit (r : HubRsp) : BitVec 576 := r.head ++ r.payload

/-- The response enters the ring (R385, R387). -/
def Dev.respond (d : Dev) (q : HubReq) (typ st : Nat) (payload : BitVec 512) : Dev :=
  let r : HubRsp := { ring := ringOf q.addr, src := q.src, dst := d.stopOf q.addr, tag := q.tag % 32, typ := typ, status := st,
                      urg := d.urgOf q.waited, payload := payload }
  d.onHub (fun h => { h with rsps := h.rsps ++ [r] })

/-- The bytes of a line that a mask names, all others 0. -/
def maskLine (lo : Nat) (mask : BitVec 64) (bs : List Byte) : BitVec 512 :=
  BitVec.ofNat 512 (leNat ((List.range 64).map (fun i =>
    if mask.toNat.testBit i && decide (lo ≤ i) then bs.getD (i - lo) 0 else 0)))

/-- First byte named by a mask, and the bytes up to the last. -/
def maskSpan (mask : BitVec 64) : Nat × Nat :=
  let is := (List.range 64).filter (fun i => mask.toNat.testBit i)
  (is.headD 0, (is.getLast?.map (· + 1)).getD 0 - is.headD 0)

/-- READ (R385). A READ of register space is checked as one whole: only a mask of one aligned 32-bit word is served (00 R5).
The payload of an error response is not stated: free bytes. -/
def Dev.hubRead (d : Dev) (q : HubReq) (mask : BitVec 64) : Dev :=
  if !d.mayInject q then d
  else
    let d := d.reqSeen q
    let line := q.addr / 64 * 64
    let (lo, n) := maskSpan mask
    let whole := regionOf line != .regs || (popcount 64 mask.toNat == n)
    let (d, st, bs) := if mask = 0 ∧ regionOf line ≠ .regs then
        (let (d, st) := d.gate q.mid gkREAD line; (d, st, []))
      else d.busRead q.mid gkREAD (line + lo) (if whole then n else 0)
    let (d, bs) := if st = stOK then (d, bs) else d.freeBytes n
    d.respond q 8 st (maskLine lo mask bs)

/-- WRITE_L: 64 bytes, all written (R385). -/
def Dev.hubWriteL (d : Dev) (q : HubReq) (data : BitVec 512) : Dev :=
  if !d.mayInject q then d
  else
    let line := q.addr / 64 * 64
    let (d, st) := (d.reqSeen q).busWrite q.mid line (pairsAt line (leBytes 64 data.toNat))
    d.respond q 9 st 0

/-- The bytes that a mask names of a list, with their addresses. -/
def maskPairs (a : Nat) (mask : Nat) (bs : List Byte) : List (Nat × Byte) :=
  ((pairsAt a bs).zipIdx.filter (fun x => mask.testBit x.2)).map Prod.fst

/-- WRITE_M: bytes of one half of the line (R385). -/
def Dev.hubWriteM (d : Dev) (q : HubReq) (half : Bool) (mask : BitVec 32) (data : BitVec 256) : Dev :=
  if !d.mayInject q then d
  else
    let a := q.addr / 64 * 64 + 32 * b2n half
    let (d, st) := (d.reqSeen q).busWrite q.mid a (maskPairs a mask.toNat (leBytes 32 data.toNat))
    d.respond q 9 st 0

/-- OR of one 32-bit word of the line (R385). -/
def Dev.hubOr (d : Dev) (q : HubReq) (word : Nat) (bits : Word) : Dev :=
  if !d.mayInject q then d
  else
    let (d, st, old) := (d.reqSeen q).busOr q.mid (q.addr / 64 * 64 + 4 * (word % 16)) bits
    let (d, old) : Dev × Word := if st = stOK then (d, old) else ({ d with freeCtr := d.freeCtr + 1 }, Config.freeWord d.freeCtr)
    d.respond q 10 st (old.setWidth 512)

/-- A response arrives at its requester, which takes it at once: its credit and its slot are free again (R387; assumption log 20). -/
def Dev.hubResponse (d : Dev) (ring src dst tag : Nat) : Dev :=
  d.onHub (fun h => { h with rsps := dropFirst (fun x => x.ring == ring && x.src == src && x.dst == dst && x.tag == tag) h.rsps })

/-- A link is numbered (2 * ring + direction) * 32 + stop. -/
def linkKey (ring dir stop : Nat) : Nat := (2 * (ring % 8) + dir % 2) * 32 + stop % 32

/-- A flit fails parity on a link and is resent (R407). `again`: it is the flit that failed last on this link. -/
def Dev.parityResend (d : Dev) (ring dir stop : Nat) (again : Bool) : Dev :=
  let k := linkKey ring dir stop
  let n := if again then SMap.get 0 d.hubd.hub.fails k + 1 else 1
  if d.hubd.hub.stopped ∨ 7 < n then d
  else (d.addFld F.HUB_LINK_ERR_COUNT 1).onHub (fun h => { h with fails := SMap.put 0 h.fails k n })

/-- A link fails one flit for the eighth time in a row: the weave halts at the commit and the hub stops (R407). -/
def Dev.ringFail (d : Dev) (ring dir stop : Nat) : Dev :=
  if d.hubd.hub.stopped ∨ SMap.get 0 d.hubd.hub.fails (linkKey ring dir stop) < 7 then d
  else ((d.onHub (fun h => { h with stopped := true })).event bHUB 0 0x821 0).requestHalt 7

/-- A non-shuttle request to a bank of a FULL cluster has waited more than CLM_STARVE_CFG.LIMIT cycles (12 R369). -/
def Dev.starveLimit (d : Dev) (cluster bank : Nat) : Dev :=
  if d.hubd.hub.starved ∨ !(d.fld F.CLM_CFG_FULL).testBit (cluster % 16) then d
  else (d.event bCLM 0 0x707 (cluster % 16 + bank % 32 * 16)).onHub (fun h => { h with starved := true })

/-- An interval of 65,536 HUB cycles ends: flits that the selected link moved in it; what the others moved is open (R409; assumption log
20). -/
def Dev.monInterval (d : Dev) (flits : Nat) : Dev :=
  { d.onHub (fun h => { h with mon := some ⟨d.monSel, min 0x10000 flits, d.freeCtr⟩ }) with freeCtr := d.freeCtr + 512 }

end Sys2Proof.Machine
end

