-- ==== Sys2Proof/Machine/CmdHub.lean ====
section
/-!
DEFINITION. The meanings of the commands of hub rings, gatekeepers, bobbin channels and registers (13).
-/

namespace Sys2Proof.Machine

/-- HANDOVER (R368). -/
def execHandover (mid bank : Nat) (v : Word) (s₀ : State) : Outcome := s₀.actHub (fun d => d.handoverBy mid bank v)

/-- READ (R385). -/
def execRead (q : HubReq) (mask : BitVec 64) (s₀ : State) : Outcome := s₀.act (fun d => d.hubRead q mask)

/-- WRITE_L (R385). -/
def execWriteL (q : HubReq) (data : BitVec 512) (s₀ : State) : Outcome := s₀.act (fun d => d.hubWriteL q data)

/-- WRITE_M (R385). -/
def execWriteM (q : HubReq) (half : Bool) (mask : BitVec 32) (data : BitVec 256) (s₀ : State) : Outcome :=
  s₀.act (fun d => d.hubWriteM q half mask data)

/-- OR (R385). -/
def execOr (q : HubReq) (word : Nat) (bits : Word) (s₀ : State) : Outcome := s₀.act (fun d => d.hubOr q word bits)

/-- HUB_RESPONSE (R387). -/
def execHubResponse (ring src dst tag : Nat) (s₀ : State) : Outcome := s₀.act (fun d => d.hubResponse ring src dst tag)

/-- LINK_PARITY_RESEND (R407). -/
def execLinkParityResend (ring dir node : Nat) (again : Bool) (s₀ : State) : Outcome :=
  s₀.act (fun d => d.parityResend ring dir node again)

/-- RING_LINK_FAIL (R407). -/
def execRingLinkFail (ring dir node : Nat) (s₀ : State) : Outcome := s₀.act (fun d => d.ringFail ring dir node)

/-- GK_SEL_WRITE (R410). -/
def execGkSelWrite (mid : Nat) (v : Word) (s₀ : State) : Outcome := s₀.actHub (fun d => d.regCommand mid R.GK_SEL v)

/-- GK_ENT0_WRITE (R410). -/
def execGkEnt0Write (mid : Nat) (v : Word) (s₀ : State) : Outcome := s₀.actHub (fun d => d.regCommand mid R.GK_ENT0 v)

/-- GO (R394). -/
def execGo (mid c : Nat) (s₀ : State) : Outcome := s₀.actHub (fun d => d.bobGo c (d.fwOf mid))

/-- BOBBIN_ABORT (R402). -/
def execBobbinAbort (c : Nat) (s₀ : State) : Outcome := s₀.actHub (fun d => d.bobAbort c)

/-- DESCRIPTOR_FETCH (R396). -/
def execDescriptorFetch (c : Nat) (s₀ : State) : Outcome := s₀.act (fun d => d.descFetch c)

/-- BOBBIN_RESPONSE (R401). -/
def execBobbinResponse (r : BobAnswer) (s₀ : State) : Outcome := s₀.act (fun d => d.bobResponse r.chan r.write)

/-- REGISTER_WRITE (R6). -/
def execRegisterWrite (mid offset : Nat) (v : Word) (s₀ : State) : Outcome := s₀.actHub (fun d => d.regCommand mid offset v)

/-- CLM_STARVE_LIMIT (R369). -/
def execClmStarveLimit (cl bank : Nat) (s₀ : State) : Outcome := s₀.act (fun d => d.starveLimit cl bank)

/-- HUB_MON_INTERVAL_END (R409). -/
def execHubMonIntervalEnd (flits : Nat) (s₀ : State) : Outcome := s₀.act (fun d => d.monInterval flits)

end Sys2Proof.Machine
end

