-- ==== Sys2Proof/Machine/CmdLoad.lean ====
section
/-!
DEFINITION. The meanings of the commands of loading, DONE, bays and flash (08).
-/

namespace Sys2Proof.Machine

/-- LOAD (R221). -/
def execLoad (slot : Nat) (s₀ : State) : Outcome := s₀.actHub (fun d => d.loadCmd slot)

/-- ABORT (R239). -/
def execAbort (s₀ : State) : Outcome := s₀.actHub (fun d => d.loadAbort)

/-- LOAD_ENTRY_ATTEMPT (R230). -/
def execLoadEntryAttempt (medium : List Byte) (s₀ : State) : Outcome := s₀.actHub (fun d => d.entryAttempt medium)

/-- EMMC_RETRY (R230). -/
def execEmmcRetry (r : EmmcEnd) (s₀ : State) : Outcome := s₀.act (fun d => d.emmcRetry r.status r.again)

/-- LOAD_COMPLETE (R230). -/
def execLoadComplete (cacheBad : Bool) (s₀ : State) : Outcome := s₀.actHub (fun d => d.loadComplete cacheBad)

/-- DONE_SEEN_HIGH (R233). -/
def execDoneSeenHigh (s₀ : State) : Outcome := s₀.act (fun d => d.doneSeen)

/-- AUTO_START (R234). -/
def execAutoStart (s₀ : State) : Outcome := s₀.act (fun d => d.autoStart)

/-- DONE_TIMEOUT (R235). -/
def execDoneTimeout (s₀ : State) : Outcome := s₀.act (fun d => d.doneTimeout)

/-- DONE_FALL (R235). -/
def execDoneFall (s₀ : State) : Outcome := s₀.act (fun d => d.doneFall)

/-- RELOAD_BAY (R241). -/
def execReloadBay (bay : Nat) (slot : Option Nat) (s₀ : State) : Outcome := s₀.actHub (fun d => d.reloadBay bay slot)

/-- ABORT_BAY (R246). -/
def execAbortBay (s₀ : State) : Outcome := s₀.actHub (fun d => d.abortBay)

/-- BAY_STAGED (R243). -/
def execBayStaged (medium : List Byte) (s₀ : State) : Outcome := s₀.actHub (fun d => d.bayStaged medium)

/-- BAY_WRITE_DONE (R243). -/
def execBayWriteDone (s₀ : State) : Outcome := s₀.actHub (fun d => d.bayWritten)

/-- FLASH_READ (R249). -/
def execFlashRead (mid : Nat) (s₀ : State) : Outcome := s₀.actHub (fun d => d.regCommand mid R.CHR_FL_CMD 1)

/-- FLASH_PROGRAM (R249). -/
def execFlashProgram (mid : Nat) (s₀ : State) : Outcome := s₀.actHub (fun d => d.regCommand mid R.CHR_FL_CMD 2)

/-- FLASH_ERASE (R249). -/
def execFlashErase (mid : Nat) (s₀ : State) : Outcome := s₀.actHub (fun d => d.regCommand mid R.CHR_FL_CMD 3)

/-- FLASH_CMD_COMPLETE (R249). -/
def execFlashCmdComplete (verified : Bool) (s₀ : State) : Outcome := s₀.actAon (fun d => d.flashEnd verified)

end Sys2Proof.Machine
end

