-- ==== Sys2Proof/Machine/Shuttle.lean ====
section
/-!
DEFINITION. The shuttles (12 R352 to R366, R371, R373): instruction words and their fields, fetch, caches, loads and stores,
the measure datapath, control words, traps.
-/

namespace Sys2Proof.Machine

/-! ### Instructions (R355, R356) -/

/-- A decoded instruction; constants are the fields as they stand, before sign extension. -/
inductive ShOp where
  | sum (rd ra rb : Nat) | dif (rd ra rb : Nat) | conj (rd ra rb : Nat) | disj (rd ra rb : Nat) | excl (rd ra rb : Nat)
  | shl (rd ra rb : Nat) | shr (rd ra rb : Nat) | sha (rd ra rb : Nat) | less (rd ra rb : Nat) | lessu (rd ra rb : Nat)
  | prod (rd ra rb : Nat) | prodhs (rd ra rb : Nat) | prodhu (rd ra rb : Nat)
  | sumk (rd ra k : Nat) | conjk (rd ra k : Nat) | disjk (rd ra k : Nat) | exclk (rd ra k : Nat) | lessk (rd ra k : Nat)
  | topk (rd k : Nat)
  | get (rt ra sz disp : Nat) | sto (rt ra sz disp : Nat)
  | ifeq (ra rb w : Nat) | ifne (ra rb w : Nat) | iflt (ra rb w : Nat) | ifge (ra rb w : Nat) | iflo (ra rb w : Nat)
  | ifhs (ra rb w : Nat)
  | leap (rd w : Nat) | via (rd ra k : Nat)
  | macd (sat : Bool) (acc xo yo xp yp : Nat) | macp (sat : Bool) (acc xo yo xp yp : Nat)
  | ext (rd : Nat) (sat : Bool) (w acc shift : Nat) | clra (acc : Nat) | mva (rd acc : Nat) | mvta (acc ra : Nat) | ldo (o ra : Nat)
  | rdcw (rd cw : Nat) | wrcw (ra cw : Nat)
  | fence | clean (ra rb : Nat) | inval (ra rb : Nat) | iinv (ra rb : Nat)
  | post (rd ra : Nat) | done | wait (ra : Nat) | trap (rb : Nat) | untrap
  deriving DecidableEq, Repr

/-- The instruction of format A with a sub-code. -/
def opA (sub rd ra rb : Nat) : Option ShOp :=
  match sub with
  | 0 => some (.sum rd ra rb)
  | 1 => some (.dif rd ra rb)
  | 2 => some (.conj rd ra rb)
  | 3 => some (.disj rd ra rb)
  | 4 => some (.excl rd ra rb)
  | 5 => some (.shl rd ra rb)
  | 6 => some (.shr rd ra rb)
  | 7 => some (.sha rd ra rb)
  | 8 => some (.less rd ra rb)
  | 9 => some (.lessu rd ra rb)
  | 10 => some (.prod rd ra rb)
  | 11 => some (.prodhs rd ra rb)
  | 12 => some (.prodhu rd ra rb)
  | _ => none

/-- The instruction of format C with a condition. -/
def opC (cond ra rb w : Nat) : Option ShOp :=
  match cond with
  | 0 => some (.ifeq ra rb w)
  | 1 => some (.ifne ra rb w)
  | 2 => some (.iflt ra rb w)
  | 3 => some (.ifge ra rb w)
  | 4 => some (.iflo ra rb w)
  | 5 => some (.ifhs ra rb w)
  | _ => none

/-- The instruction of format Y with a sub-function; fields it does not name must be 0. -/
def opY (sfn rd ra rb cw : Nat) : Option ShOp :=
  let cwOk : Bool := cw ≤ 11
  match sfn with
  | 0 => if ra = 0 ∧ rb = 0 ∧ cwOk then some (.rdcw rd cw) else none
  | 1 => if rd = 0 ∧ rb = 0 ∧ cwOk then some (.wrcw ra cw) else none
  | 2 => if rd = 0 ∧ ra = 0 ∧ rb = 0 ∧ cw = 0 then some .fence else none
  | 3 => if rd = 0 ∧ cw = 0 then some (.clean ra rb) else none
  | 4 => if rd = 0 ∧ cw = 0 then some (.inval ra rb) else none
  | 5 => if rd = 0 ∧ cw = 0 then some (.iinv ra rb) else none
  | 6 => if rb = 0 ∧ cw = 0 then some (.post rd ra) else none
  | 7 => if rd = 0 ∧ ra = 0 ∧ rb = 0 ∧ cw = 0 then some .done else none
  | 8 => if rd = 0 ∧ rb = 0 ∧ cw = 0 then some (.wait ra) else none
  | 9 => if rd = 0 ∧ ra = 0 ∧ cw = 0 then some (.trap rb) else none
  | 10 => if rd = 0 ∧ ra = 0 ∧ rb = 0 ∧ cw = 0 then some .untrap else none
  | _ => none

/-- The instruction that a word spells; none: the word is ILLEGAL (R355, R356). -/
def shDecode (w : Word) : Option ShOp :=
  let x := w.toNat
  let rd := bitsN x 26 22
  let ra := bitsN x 21 17
  let rb := bitsN x 16 12
  let k := bitsN x 16 0
  let sz := bitsN x 16 14
  let disp := bitsN x 13 0
  let acc := bitsN x 18 17
  let sat := bitN x 21
  match bitsN x 31 27 with
  | 0x01 => if bitsN x 5 0 = 0 then opA (bitsN x 11 6) rd ra rb else none
  | 0x02 => some (.sumk rd ra k)
  | 0x03 => some (.conjk rd ra k)
  | 0x04 => some (.disjk rd ra k)
  | 0x05 => some (.exclk rd ra k)
  | 0x06 => some (.lessk rd ra k)
  | 0x07 => if ra = 0 then some (.topk rd k) else none
  | 0x08 => if sz ≤ 6 then some (.get rd ra sz disp) else none
  | 0x09 => if sz ≤ 3 then some (.sto rd ra sz disp) else none
  | 0x0A => opC (bitsN x 26 24) (bitsN x 23 19) (bitsN x 18 14) disp
  | 0x0B => some (.leap rd (bitsN x 21 0))
  | 0x0C => some (.via rd ra k)
  | 0x10 => if bitsN x 7 0 = 0 then some (.macd (bitN x 26) (bitsN x 25 24) (bitsN x 23 21) (bitsN x 20 18) (bitsN x 17 13) (bitsN x 12 8)) else none
  | 0x11 => if bitsN x 7 0 = 0 then some (.macp (bitN x 26) (bitsN x 25 24) (bitsN x 23 21) (bitsN x 20 18) (bitsN x 17 13) (bitsN x 12 8)) else none
  | 0x12 => if bitsN x 10 0 = 0 ∧ bitsN x 20 19 ≠ 3 then some (.ext rd sat (bitsN x 20 19) acc (bitsN x 16 11)) else none
  | 0x13 => if rd = 0 ∧ bitsN x 21 19 = 0 ∧ bitsN x 16 0 = 0 then some (.clra acc) else none
  | 0x14 => if bitsN x 21 19 = 0 ∧ bitsN x 16 0 = 0 then some (.mva rd acc) else none
  | 0x15 => if rd < 4 ∧ k = 0 then some (.mvta rd ra) else none
  | 0x16 => if rd < 8 ∧ k = 0 then some (.ldo rd ra) else none
  | 0x1F => if bitN x 6 then none else opY (bitsN x 5 0) rd ra rb (bitsN x 11 7)
  | _ => none

/-! ### Registers -/

/-- A general register; g0 reads 0 (R352). -/
def Shuttle.reg (x : Shuttle) (r : Nat) : BitVec 64 := if r = 0 then 0 else SMap.get 0 x.g r
/-- A general register written; writes of g0 are ignored. -/
def Shuttle.setReg (x : Shuttle) (r : Nat) (v : BitVec 64) : Shuttle := if r = 0 then x else { x with g := SMap.put 0 x.g r v }
/-- An accumulator as a signed number. -/
def Shuttle.accInt (x : Shuttle) (a : Nat) : Int := (SMap.get 0 x.acc a).toInt
/-- An offset register, sign-extended. -/
def Shuttle.ofs64 (x : Shuttle) (o : Nat) : BitVec 64 := (SMap.get 0 x.ofs o).signExtend 64
/-- A field of n bits, sign-extended to 64. -/
def sext (n v : Nat) : BitVec 64 := BitVec.ofInt 64 (sgn n v)

/-- Causes of traps (R362). -/
def cILLEGAL : Nat := 1
def cPRIV : Nat := 2
def cMISALIGN : Nat := 3
def cACCESS : Nat := 4
def cUEFETCH : Nat := 5
def cUEDATA : Nat := 6
def cTRAP : Nat := 7
def cLIMIT : Nat := 8

/-- A trap to be taken: its cause and TVAL. -/
abbrev ShTrap := Nat × BitVec 64

/-! ### Caches (R363 to R365) -/

/-- A cached line. -/
def findLine (c : List CLine) (l : Nat) : Option CLine := c.find? (fun x => x.line == l)

/-- A line counts as clean. -/
def Shuttle.cleaned (x : Shuttle) (line : Nat) : Shuttle :=
  { x with dcache := x.dcache.map (fun y => if y.line = line then { y with dirty := 0 } else y) }

/-- The bytes of a buffered write reach their target (R363), with the privilege that its store presented (R353): STATUS. -/
def Dev.wbWrite (d : Dev) (s : Nat) (e : WbEnt) : Dev × Nat :=
  if regionOf e.addr = .regs then (d.regWrite (d.whoAs e.fw s) (e.addr - regBase) (w32 (leNat (e.bytes.map Prod.snd))), stOK)
  else d.memWrite e.fw e.addr e.bytes

/-- A write of a shuttle whose gatekeeper check passed with its store reaches its target: a fixed rule that refuses it by then, and an
uncorrectable unit that it would have to merge, give an error response, which traps (R353; 13 R385, R391, R404). -/
def Dev.wbArrive (d : Dev) (s : Nat) (e : WbEnt) : Dev × Option ShTrap :=
  if d.fixedRefusesAs e.fw s gkWRITE e.addr then
    (d.violation s gkWRITE e.addr stREFUSED 2, some (cACCESS, BitVec.ofNat 64 e.addr))
  else
    let (d, st) := d.wbWrite s e
    (d, if st = stOK then none else some (cACCESS, BitVec.ofNat 64 e.addr))

/-- The access crosses the hub rings after a link has failed: it is never sent (13 R407). A shuttle's own stop serves its cluster's
tablets and cluster memory (13 R383). -/
def Dev.shBlocked (d : Dev) (s a : Nat) : Bool := d.hubd.hub.stopped && d.stopOf a != s / 8

/-- No cause of R362: what an instruction reports whose access waits for good. -/
def cBLOCKED : Nat := 16

/-- The oldest write of the buffer is issued. A bank that has a new owner by then refuses it, which is an error response (R353,
R367, R368). -/
def Dev.wbIssue (d : Dev) (s : Nat) : Dev × Option ShTrap :=
  match (d.sh s).wbuf with
  | [] => (d, none)
  | e :: t =>
    let blocked := d.shBlocked s e.addr
    let d := if blocked then d else d.onSh s (fun x => { x with wbuf := t })
    if blocked then (d, some (cBLOCKED, 0))
    else d.wbArrive s e

/-- The n oldest writes of the buffer are issued in order: the first error response. -/
def Dev.wbDrain (d : Dev) (s n : Nat) : Dev × Option ShTrap :=
  (List.range n).foldl (fun (r : Dev × Option ShTrap) _ =>
    let (d, t) := r.1.wbIssue s
    (d, r.2.or t)) (d, none)

/-- Writes of the buffer up to the last that p selects. -/
def wbUpTo (b : List WbEnt) (p : WbEnt → Bool) : Nat := b.length - ((b.reverse.findIdx? p).getD b.length)

/-- The write touches a byte of [a, a + n). -/
def WbEnt.touches (e : WbEnt) (a n : Nat) : Bool := e.bytes.any (fun w => a ≤ w.1 && w.1 < a + n)

/-- A write enters the buffer; a full one issues its oldest first. -/
def Dev.wbPush (d : Dev) (s : Nat) (e : WbEnt) : Dev × Option ShTrap :=
  match (if (d.sh s).wbuf.length < 8 then (d, none) else d.wbIssue s) with
  | (d, some t) => (d, some t)
  | (d, none) => (d.onSh s (fun x => { x with wbuf := x.wbuf ++ [e] }), none)

/-- The write of a line's dirty bytes, from the first of them, under the shuttle's present privilege. -/
def Dev.lineEnt (d : Dev) (s : Nat) (l : CLine) : WbEnt := ⟨(l.dirtyBytes.map Prod.fst).headD (64 * l.line), l.dirtyBytes, (d.sh s).priv⟩

/-- A dirty line is written back: its written bytes reach HBM (R361, R364). The line counts as clean after an error response too
(assumption log 18). -/
def Dev.writeBack (d : Dev) (s : Nat) (l : CLine) : Dev × Option ShTrap :=
  if l.dirty = 0 then (d, none)
  else
    let (d, t) := d.wbArrive s (d.lineEnt s l)
    (d.onSh s (fun x => x.cleaned l.line), t)

/-- The dirty lines that p selects are written back: the first error response. -/
def Dev.cleanLines (d : Dev) (s : Nat) (p : Nat → Bool) : Dev × Option ShTrap :=
  ((d.sh s).dcache.filter (fun l => p l.line)).foldl (fun (r : Dev × Option ShTrap) l =>
    let (d, t) := r.1.writeBack s l
    (d, r.2.or t)) (d, none)

/-- A write-back that p selects waits for the hub rings (13 R407). -/
def Dev.cleanBlocked (d : Dev) (s : Nat) (p : Nat → Bool) : Bool :=
  (d.sh s).dcache.any (fun l => p l.line && l.dirty != 0 && d.shBlocked s (64 * l.line))

/-- Room for a line in a cache of sets of 4 ways: the line of a full set that goes is the device's choice (assumption log 2). -/
def victim (sets : Nat) (c : List CLine) (line choice : Nat) : Option CLine :=
  let same := c.filter (fun x => x.line % sets == line % sets)
  if same.length < 4 then none else same[choice % same.length]?

/-- A line leaves the data cache; a dirty one enters the write buffer. -/
def Dev.evict (d : Dev) (s : Nat) (l : CLine) : Dev × Option ShTrap :=
  match (if l.dirty = 0 then (d, none) else d.wbPush s (d.lineEnt s l)) with
  | (d, some t) => (d, some t)
  | (d, none) => (d.onSh s (fun x => { x with dcache := x.dcache.filter (fun y => y.line ≠ l.line) }), none)

/-- A line of HBM is brought into the data cache, after the shuttle's own buffered writes of it; none where it holds an uncorrectable
unit. -/
def Dev.fillData (d : Dev) (s line : Nat) : Dev × Except ShTrap (Option CLine) :=
  match findLine (d.sh s).dcache line with
  | some l => (d, .ok (some l))
  | none =>
    if d.shBlocked s (64 * line) then (d, .error (cBLOCKED, 0))
    else match d.wbDrain s (wbUpTo (d.sh s).wbuf (fun e => e.touches (64 * line) 64)) with
    | (d, some t) => (d, .error t)
    | (d, none) =>
      match (match victim 64 (d.sh s).dcache line (Config.freeWord d.freeCtr).toNat with
        | some v => { d with freeCtr := d.freeCtr + 1 }.evict s v
        | none => (d, none)) with
      | (d, some t) => (d, .error t)
      | (d, none) =>
        let (d, st, bs) := d.memRead s (64 * line) 64
        if st ≠ stOK then (d, .ok none)
        else
          let l : CLine := { line := line, data := BitVec.ofNat 512 (leNat bs), dirty := 0, bad := false }
          (d.onSh s (fun x => { x with dcache := x.dcache ++ [l] }), .ok (some l))

/-- Bytes of a line. -/
def CLine.bytes (l : CLine) (off n : Nat) : List Byte := leBytes n (l.data.toNat / 2 ^ (8 * off))

/-- Bytes of a line written. -/
def CLine.write (l : CLine) (off : Nat) (bs : List Byte) : CLine :=
  let m := (2 ^ (8 * bs.length) - 1) * 2 ^ (8 * off)
  { l with
    data := BitVec.ofNat 512 (l.data.toNat - (l.data.toNat &&& m) + leNat bs * 2 ^ (8 * off))
    dirty := l.dirty ||| BitVec.ofNat 64 ((2 ^ bs.length - 1) * 2 ^ off) }

/-- The line overlaps [a, a + n) mod 2^48 (R361). -/
def lineIn (a n : BitVec 64) (line : Nat) : Bool :=
  let a := a.toNat % 2 ^ 48
  let b := 64 * line
  n != 0 && (decide ((b + 2 ^ 48 - a) % 2 ^ 48 < n.toNat) || decide ((a + 2 ^ 48 - b) % 2 ^ 48 < 64))

/-! ### Loads, stores, fetch (R353, R354, R366) -/

/-- What is wrong with an address (R353). -/
def addrTrap (a : BitVec 64) (n : Nat) : Option ShTrap :=
  if a.toNat % n ≠ 0 then some (cMISALIGN, a) else if 2 ^ 48 ≤ a.toNat then some (cACCESS, a) else none

/-- An uncorrectable load: event 0x703 for a tablet or a cluster memory (R366). -/
def Dev.ueData (d : Dev) (s a : Nat) : Dev :=
  if regionOf a = .tablet ∨ regionOf a = .cluster then d.event bSHT s 0x703 (shData s cUEDATA (d.sh s).cls) else d

/-- A load of n bytes: the bytes, or a trap. An uncached load waits for the shuttle's own buffered stores to the same bytes
(R363). -/
def Dev.shLoad (d : Dev) (s : Nat) (a : BitVec 64) (n : Nat) : Dev × Except ShTrap (List Byte) :=
  match addrTrap a n with
  | some t => (d, .error t)
  | none =>
    let x := a.toNat
    if regionOf x = .hbm then
      let (d, st) := d.gate s gkREAD x
      if st ≠ stOK then (d, .error (cACCESS, a))
      else
        match d.fillData s (x / 64) with
        | (d, .ok (some l)) => (d, .ok (l.bytes (x % 64) n))
        | (d, .ok none) => (d, .error (cUEDATA, a))
        | (d, .error t) => (d, .error t)
    else if d.shBlocked s x then (d, .error (cBLOCKED, a))
    else
      match d.wbDrain s (wbUpTo (d.sh s).wbuf (fun e => e.touches x n)) with
      | (d, some t) => (d, .error t)
      | (d, none) =>
        let (d, st, bs) := d.busRead s gkREAD x n
        if st = stOK then (d, .ok bs)
        else if st = stUE then (d.ueData s x, .error (cUEDATA, a))
        else (d, .error (cACCESS, a))

/-- Stores to an address go through the write buffer: not those to HBM, to the shuttle's own tablet or to a mailbox bank (R354; 05
R141). -/
def buffered (s a : Nat) : Bool :=
  match regionOf a with
  | .tablet => (a - tabletBase) / 0x40000 != s
  | .cluster => (mailboxOf a).isNone
  | .beamMem | .regs => true
  | _ => false

/-- A store: a trap, or none. The gatekeeper of its target is asked at the store (R353). -/
def Dev.shStore (d : Dev) (s : Nat) (a : BitVec 64) (bs : List Byte) : Dev × Option ShTrap :=
  match addrTrap a bs.length with
  | some t => (d, some t)
  | none =>
    let x := a.toNat
    if regionOf x = .hbm then
      let (d, st) := d.gate s gkWRITE x
      if st ≠ stOK then (d, some (cACCESS, a))
      else
        match d.fillData s (x / 64) with
        | (d, .ok (some l)) =>
          (d.onSh s (fun y => { y with dcache := y.dcache.map (fun z => if z.line = l.line then z.write (x % 64) bs else z) }), none)
        | (d, .ok none) => (d, some (cUEDATA, a))
        | (d, .error t) => (d, some t)
    else if d.shBlocked s x then (d, some (cBLOCKED, a))
    else if buffered s x then
      let (d, st) := d.gate s gkWRITE x
      if st ≠ stOK then (d, some (cACCESS, a))
      else if regionOf x = .regs ∧ bs.length ≠ 4 then (d.access 0x804 s (x - regBase), some (cACCESS, a))
      else d.wbPush s ⟨x, pairsAt x bs, (d.sh s).priv⟩
    else
      let (d, st) := d.busWrite s x (pairsAt x bs)
      if st = stOK then (d, none) else (d, some (cACCESS, a))

/-- A line is brought into the instruction cache; one with an uncorrectable word is discarded and fetched again (R366). -/
def Dev.fillCode (d : Dev) (s line : Nat) : Dev × Option CLine :=
  match (findLine (d.sh s).icache line).filter (fun l => !l.bad) with
  | some l => (d, some l)
  | none =>
    let d := d.onSh s (fun x => { x with icache := x.icache.filter (fun y => y.line ≠ line) })
    let d := match victim 128 (d.sh s).icache line (Config.freeWord d.freeCtr).toNat with
      | some v => { d with freeCtr := d.freeCtr + 1 }.onSh s (fun x => { x with icache := x.icache.filter (fun y => y.line ≠ v.line) })
      | none => d
    let (d, st, bs) := d.memRead s (64 * line) 64
    if st ≠ stOK then (d, none)
    else
      let l : CLine := { line := line, data := BitVec.ofNat 512 (leNat bs), dirty := 0, bad := false }
      (d.onSh s (fun x => { x with icache := x.icache ++ [l] }), some l)

/-- The word at pc, or a trap: instructions come from HBM and cluster memory (R353, R354, R366). -/
def Dev.shFetch (d : Dev) (s : Nat) : Dev × Except ShTrap Word :=
  let pc := (d.sh s).pc
  let x := pc.toNat
  match addrTrap pc 4 with
  | some t => (d, .error t)
  | none =>
    if regionOf x ≠ .hbm ∧ regionOf x ≠ .cluster then (d, .error (cACCESS, pc))
    else if d.shBlocked s x ∧ ((findLine (d.sh s).icache (x / 64)).filter (fun l => !l.bad)).isNone then (d, .error (cBLOCKED, pc))
    else
      let (d, st) := d.gate s gkFETCH x
      if st ≠ stOK then (d, .error (cACCESS, pc))
      else
        match d.fillCode s (x / 64) with
        | (d, some l) => (d, .ok (BitVec.ofNat 32 (leNat (l.bytes (x % 64) 4))))
        | (d, none) => (d.event bSHT s 0x702 (shData s cUEFETCH (d.sh s).cls), .error (cUEFETCH, pc))

/-! ### Traps (R362) -/

/-- Every store of the shuttle becomes visible (R361 FENCE, R364): the write buffer drains, and every dirty line is written back. -/
def Dev.shFence (d : Dev) (s : Nat) : Dev × Option ShTrap :=
  let (d, t) := d.wbDrain s (d.sh s).wbuf.length
  if d.cleanBlocked s (fun _ => true) then (d, some (cBLOCKED, 0))
  else
    let (d, u) := d.cleanLines s (fun _ => true)
    (d, t.or u)

/-- A trap is taken: EPC, CAUSE, TVAL, PRIOR, FIRMWARE, TVEC; or the item ends FAULTED. The data of event 0x701 has the layout of
R377, not that of R362 (assumption log 18). -/
def Dev.shTrap (d : Dev) (s : Nat) (t : ShTrap) : Dev :=
  let x := d.sh s
  let d := (d.addFld (F.SHT_TRAPS_COUNT.at s) 1).setFld (F.SHT_CAUSE_CAUSE.at s) t.1
  let d := d.onSh s (fun y => { y with
    epc := x.pc, cause := BitVec.ofNat 64 t.1, tval := t.2, prior := x.priv, pc := x.tvec, fresh := true, inTrap := true
    wait := none, slept := false })
  let d := d.traceSh s true tpTRAP (t.1 + bitsN x.pc.toNat 31 0 * 2 ^ 32)
  let d := if x.tvec = 0 ∨ x.fresh then ((d.event bSHT s 0x701 (shData s t.1 x.cls)).shFence s).1.complete s true else d
  d.setPriv s true

/-! ### What an instruction does -/

/-- How an instruction ends: at a next pc, in a trap, asleep in WAIT, at a pc and privilege out of a handler, or with its item
done. -/
inductive ShEnd where
  | to (pc : BitVec 64)
  | trap (t : ShTrap)
  | sleep
  | back
  | done
  deriving DecidableEq, Repr

/-- The next instruction. -/
def Dev.pc4 (d : Dev) (s : Nat) : ShEnd := .to ((d.sh s).pc + 4)

/-- A packet on the main path finds its FIFO full: the instruction waits (15 R465). -/
def Dev.shStalled (d : Dev) (s : Nat) : Bool :=
  d.fld F.TRC_CTL_STALL == 1 && d.traced (s / 8) && !(d.sh s).hidden && d.traceFull (s / 8)

/-- The end of an instruction takes effect. -/
def Dev.shEnd (d : Dev) (s : Nat) (e : ShEnd) : Dev :=
  match e with
  | .to pc => d.onSh s (fun x => { x with pc := pc, fresh := false })
  | .trap t => d.shTrap s t
  | .sleep => (d.onSh s (fun x => { x with fresh := false })).sleepCheck (s / 8)
  | .back =>
    let x := d.sh s
    let d := d.traceSh s true tpUNTRAP (b2n x.prior + bitsN x.epc.toNat 31 0 * 2 ^ 32)
    (d.onSh s (fun y => { y with pc := x.epc, fresh := false, inTrap := false })).setPriv s x.prior
  | .done => match d.shFence s with
    | (d, some t) => d.shTrap s t
    | (d, none) => d.complete s false

/-- The end waits for the hub rings (13 R407): a load, store or fence that needs them, or DONE with stores still to be made visible. -/
def Dev.endBlocked (d : Dev) (s : Nat) (e : ShEnd) : Bool :=
  match e with
  | .trap t => t.1 == cBLOCKED
  | .done => d.cleanBlocked s (fun _ => true) || (d.sh s).wbuf.any (fun w => d.shBlocked s w.addr)
  | _ => false

/-- The shuttle executes: it runs an item and does not sleep (R372, R361). -/
def Dev.shRuns (d : Dev) (s : Nat) : Bool :=
  d.shActive s && (d.sh s).item.isSome && (d.sh s).wait.isNone && d.fld F.PWR_STATUS_DEV == 0

/-- Shuttle s executes its next instruction, when it is one that `f` covers; a fetch that fails traps. What an instruction does
that must wait for trace is done when it no longer waits. -/
def Dev.shRun (d : Dev) (s : Nat) (f : ShOp → Option (Dev → Dev × ShEnd)) : Dev :=
  if !d.shRuns s then d
  else
    let finish := fun (r : Dev × ShEnd) => match r.2 with
      | .to _ => r.1.shEnd s r.2
      | e => if d.shStalled s ∨ r.1.endBlocked s e then d else r.1.shEnd s e
    match d.shFetch s with
    | (d1, .error t) => finish (d1, .trap t)
    | (d1, .ok w) => match (shDecode w).bind f with
      | none => d
      | some g => finish (g d1)

/-- A result into gD. -/
def Dev.shPut (d : Dev) (s rd : Nat) (v : BitVec 64) : Dev × ShEnd := (d.onSh s (fun x => x.setReg rd v), d.pc4 s)

/-- An operation of two general registers. -/
def Dev.shAlu (d : Dev) (s rd ra rb : Nat) (f : BitVec 64 → BitVec 64 → BitVec 64) : Dev × ShEnd :=
  d.shPut s rd (f ((d.sh s).reg ra) ((d.sh s).reg rb))

/-- An operation of a general register and a constant. -/
def Dev.shAluK (d : Dev) (s rd ra : Nat) (k : BitVec 64) (f : BitVec 64 → BitVec 64 → BitVec 64) : Dev × ShEnd :=
  d.shPut s rd (f ((d.sh s).reg ra) k)

/-- 1 for true, in 64 bits. -/
def bool64 (b : Bool) : BitVec 64 := if b then 1 else 0

/-- A taken or untaken branch. -/
def Dev.shIf (d : Dev) (s ra rb w : Nat) (c : BitVec 64 → BitVec 64 → Bool) : Dev × ShEnd :=
  let x := d.sh s
  (d, if c (x.reg ra) (x.reg rb) then .to (x.pc + sext 16 (4 * w)) else .to (x.pc + 4))

/-- A jump with a link (R356): gD = pc + 4. -/
def Dev.shJump (d : Dev) (s rd : Nat) (target : BitVec 64) : Dev × ShEnd :=
  (d.onSh s (fun x => x.setReg rd (x.pc + 4)), .to target)

/-- An instruction that waits for write responses goes on, or traps on an error response. -/
def Dev.shAfter (r : Dev × Option ShTrap) (s : Nat) : Dev × ShEnd :=
  match r with
  | (d, some t) => (d, .trap t)
  | (d, none) => (d, d.pc4 s)

/-- CLEAN: the dirty lines of a range are written back behind the writes that the buffer holds, and those of the range have left it
(R361). -/
def Dev.shClean (d : Dev) (s ra rb : Nat) : Dev × Option ShTrap :=
  let x := d.sh s
  let p := lineIn (x.reg ra) (x.reg rb)
  let n := if x.dcache.any (fun l => p l.line && l.dirty != 0) then x.wbuf.length else wbUpTo x.wbuf (fun e => p (e.addr / 64))
  let (d, t) := d.wbDrain s n
  if d.cleanBlocked s p then (d, some (cBLOCKED, 0))
  else
    let (d, u) := d.cleanLines s p
    (d, t.or u)

/-- INVAL: as CLEAN, and the lines of the range are discarded. -/
def Dev.shInval (d : Dev) (s ra rb : Nat) : Dev × Option ShTrap :=
  let x := d.sh s
  let (d, t) := d.shClean s ra rb
  (d.onSh s (fun y => { y with dcache := y.dcache.filter (fun l => !lineIn (x.reg ra) (x.reg rb) l.line) }), t)

/-- IINV: instruction-cache lines of a range are discarded. -/
def Dev.shIinv (d : Dev) (s ra rb : Nat) : Dev :=
  d.onSh s (fun x => { x with icache := x.icache.filter (fun l => !lineIn (x.reg ra) (x.reg rb) l.line) })

/-- Bytes of a transfer (R356): SZ 0 to 3 signed, 4 to 6 unsigned. -/
def szBytes (sz : Nat) : Nat := 2 ^ (sz % 4)

/-- GET. -/
def Dev.shGet (d : Dev) (s rt ra sz disp : Nat) : Dev × ShEnd :=
  let n := szBytes sz
  match d.shLoad s ((d.sh s).reg ra + sext 14 disp) n with
  | (d, .error t) => (d, .trap t)
  | (d, .ok bs) => d.shPut s rt (if sz < 4 then sext (8 * n) (leNat bs) else BitVec.ofNat 64 (leNat bs))

/-- STO. -/
def Dev.shSto (d : Dev) (s rt ra sz disp : Nat) : Dev × ShEnd :=
  let x := d.sh s
  match d.shStore s (x.reg ra + sext 14 disp) (leBytes (szBytes sz) (x.reg rt).toNat) with
  | (d, some t) => (d, .trap t)
  | (d, none) => (d, d.pc4 s)

/-! ### The measure datapath (R357, R359, R360) -/

/-- A tablet word of the shuttle at an offset, or a trap. -/
def Dev.macWord (d : Dev) (s : Nat) (o : BitVec 64) : Dev × Except ShTrap Word :=
  let a := tabletBase + s * 0x40000 + o.toNat % 0x40000
  if o.toNat % 4 ≠ 0 then (d, .error (cMISALIGN, BitVec.ofNat 64 a))
  else
    let (d, st, bs) := d.memRead s a 4
    if st = stOK then (d, .ok (BitVec.ofNat 32 (leNat bs))) else (d.ueData s a, .error (cUEDATA, BitVec.ofNat 64 a))

/-- The largest value of an accumulator. -/
def accMax : Int := 2 ^ 39 - 1

/-- A sum into an accumulator, with its sticky overflow bit. -/
def Shuttle.accPut (x : Shuttle) (sat : Bool) (a : Nat) (v : Int) : Shuttle :=
  let out := v < -2 ^ 39 ∨ accMax < v
  let r := if sat then max (-2 ^ 39) (min accMax v) else v
  { x with
    acc := SMap.put 0 x.acc a (BitVec.ofInt 40 r)
    ovf := if out then x.ovf ||| BitVec.ofNat 4 (2 ^ a) else x.ovf }

/-- MACD and MACP. -/
def Dev.shMac (d : Dev) (s : Nat) (pair sat : Bool) (acc xo yo xp yp : Nat) : Dev × ShEnd :=
  let x := d.sh s
  match d.macWord s (x.reg xp) with
  | (d, .error t) => (d, .trap t)
  | (d, .ok xw) => match d.macWord s (x.reg yp) with
    | (d, .error t) => (d, .trap t)
    | (d, .ok yw) =>
      let lo := sgn 16 xw.toNat * sgn 16 yw.toNat
      let hi := sgn 16 (xw.toNat / 65536) * sgn 16 (yw.toNat / 65536)
      (d.onSh s (fun x =>
        let x := if pair then (x.accPut sat acc (x.accInt acc + lo)).accPut sat (acc ^^^ 1) (x.accInt (acc ^^^ 1) + hi)
          else x.accPut sat acc (x.accInt acc + lo + hi)
        let x := x.setReg xp (x.reg xp + x.ofs64 xo)
        x.setReg yp (x.reg yp + x.ofs64 yo)), d.pc4 s)

/-- The value of EXT. -/
def extValue (a : Int) (sat : Bool) (w shift : Nat) : BitVec 64 :=
  let k := min shift 39
  let a := if k = 0 then a else (a + 2 ^ (k - 1)) / 2 ^ k
  let n := if w = 0 then 16 else if w = 1 then 32 else 40
  let a := if sat then max (-2 ^ (n - 1)) (min (2 ^ (n - 1) - 1) a) else a
  sext n (unsgn n a)

/-! ### Control words and system instructions (R358, R361, R362) -/

/-- A control word. -/
def Dev.cwRead (d : Dev) (s cw : Nat) : BitVec 64 :=
  let x := d.sh s
  match cw with
  | 0 => BitVec.ofNat 64 (b2n x.priv + 2 * b2n x.prior)
  | 1 => x.tvec
  | 2 => x.epc
  | 3 => x.cause
  | 4 => x.tval
  | 5 => x.cwItem
  | 6 => x.cwClass
  | 7 => d.shCycles - x.cyc0
  | 8 => d.tb.tb.setWidth 64
  | 9 => x.ovf.setWidth 64
  | 10 => BitVec.ofNat 64 s
  | _ => bool64 x.evt

/-- A control word written; CW 8 and CW 10 are read-only. -/
def Dev.cwWrite (d : Dev) (s cw : Nat) (v : BitVec 64) : Dev :=
  match cw with
  | 0 => (d.onSh s (fun x => { x with prior := v.getLsbD 1 })).setPriv s (v.getLsbD 0)
  | 1 => d.onSh s (fun x => { x with tvec := v &&& ~~~3#64 })
  | 2 => d.onSh s (fun x => { x with epc := v })
  | 3 => d.onSh s (fun x => { x with cause := v })
  | 4 => d.onSh s (fun x => { x with tval := v })
  | 5 => d.onSh s (fun x => { x with cwItem := v })
  | 6 => d.onSh s (fun x => { x with cwClass := v })
  | 7 => d.onSh s (fun x => { x with cyc0 := d.shCycles - v })
  | 9 => d.onSh s (fun x => { x with ovf := v.setWidth 4 })
  | 11 => d.onSh s (fun x => { x with evt := v.getLsbD 0 })
  | _ => d

/-- The instruction word as TVAL. -/
def Dev.shWord (d : Dev) (s : Nat) : BitVec 64 :=
  let x := (d.sh s).pc.toNat
  match findLine (d.sh s).icache (x / 64) with
  | some l => BitVec.ofNat 64 (leNat (l.bytes (x % 64) 4))
  | none => 0

/-- WRCW. -/
def Dev.shWrcw (d : Dev) (s ra cw : Nat) : Dev × ShEnd :=
  if !(d.sh s).priv ∧ cw ≠ 9 then (d, .trap (cPRIV, d.shWord s)) else (d.cwWrite s cw ((d.sh s).reg ra), d.pc4 s)

/-- RDCW. -/
def Dev.shRdcw (d : Dev) (s rd cw : Nat) : Dev × ShEnd :=
  d.shPut s rd (d.cwRead s cw)

/-- 32 bytes at an address, as four loads of 8. -/
def Dev.shLoad32 (d : Dev) (s : Nat) (a : BitVec 64) : Dev × Except ShTrap (List Byte) :=
  [0, 8, 16, 24].foldl (fun (r : Dev × Except ShTrap (List Byte)) i =>
    match r.2 with
    | .error _ => r
    | .ok bs => match r.1.shLoad s (a + BitVec.ofNat 64 i) 8 with
      | (d, .error t) => (d, .error t)
      | (d, .ok b) => (d, .ok (bs ++ b))) (d, .ok [])

/-- POST: KERNEL does not post FIRMWARE items (R371). -/
def Dev.shPost (d : Dev) (s rd ra : Nat) : Dev × ShEnd :=
  match d.shLoad32 s ((d.sh s).reg ra) with
  | (d, .error t) => (d, .trap t)
  | (d, .ok bs) =>
    let x := BitVec.ofNat 256 (leNat bs)
    if Desc.priv x ∧ !(d.sh s).priv then (d, .trap (cPRIV, d.shWord s))
    else
      let (d, r) := d.post s x 0 none
      d.shPut s rd (bool64 (r != .posted))

/-- The time of a WAIT has come. -/
def Dev.waitOver (d : Dev) (a : BitVec 64) : Bool := a != 0 && decide (0 ≤ sgn 32 (d.tb.tb - a.setWidth 32).toNat)

/-- WAIT. -/
def Dev.shWait (d : Dev) (s ra : Nat) : Dev × ShEnd :=
  let a := (d.sh s).reg ra
  if (d.sh s).evt ∨ d.waitOver a then (d.onSh s (fun x => { x with evt := false }), d.pc4 s)
  else (d.onSh s (fun x => { x with wait := some a, slept := false }), .sleep)

/-- A sleeping shuttle wakes (R361; 15 R466). -/
def Dev.waitWake (d : Dev) (s : Nat) : Dev :=
  let x := d.sh s
  match x.wait with
  | none => d
  | some a =>
    if !x.evt ∧ !d.waitOver a then d
    else
      let d := d.onSh s (fun y => { y with evt := false, wait := none, slept := false, pc := x.pc + 4 })
      if x.slept then (d.traceSh s false tpWAKE (if x.evt then 1 else 2)).traceSync s else d

/-- UNTRAP. -/
def Dev.shUntrap (d : Dev) (s : Nat) : Dev × ShEnd := if (d.sh s).priv then (d, .back) else (d, .trap (cPRIV, d.shWord s))

/-- A word that spells no instruction traps (R355). -/
def Dev.shIllegal (d : Dev) (s : Nat) : Dev :=
  if !d.shRuns s then d
  else
    match d.shFetch s with
    | (d1, .error t) => if d.shStalled s ∨ t.1 = cBLOCKED then d else d1.shTrap s t
    | (d1, .ok w) => if (shDecode w).isSome ∨ d.shStalled s then d else d1.shTrap s (cILLEGAL, w.setWidth 64)

/-- A master's access through port S gets an error response: a shuttle traps, with event 0x703 for uncorrectable data (R353, R366). -/
def Dev.portSFails (d : Dev) (mid st a : Nat) : Dev :=
  if 128 ≤ mid ∨ !d.shRuns mid then d
  else if st = stUE then (d.ueData mid a).shTrap mid (cUEDATA, BitVec.ofNat 64 a)
  else d.shTrap mid (cACCESS, BitVec.ofNat 64 a)

/-- A shuttle's or hub-side access to a word of a mailbox bank, through port S (05 R141, R143; R366, R367). `wr`: the data of a
write. -/
def Dev.portSAccess (d : Dev) (mid bank word : Nat) (wr : Option Word) (rel : MbxRel) : Dev :=
  let a := mailboxAddr bank word
  let (d, st) := d.gate mid (if wr.isSome then gkWRITE else gkREAD) a
  if st ≠ stOK then d.portSFails mid st a
  else match wr with
    | some v => d.portSWrite (d.fwOf mid) bank word 15 v rel
    | none =>
      let d := (d.countRead a 4).latchRaw mid a
      if d.memBad a 4 then (d.countUes a 4).portSFails mid stUE a else (d.portSRead bank word rel).1

/-- Time passes: each write buffer issues its oldest write (assumption log 18). -/
def Dev.buffersIssue (d : Dev) : Dev :=
  d.hubd.shuttles.foldl (fun d x =>
    if x.2.wbuf.all (fun e => d.shBlocked x.1 e.addr) then d
    else match d.wbIssue x.1 with
      | (d, none) => d
      | (d, some t) => if (d.sh x.1).item.isSome ∧ t.1 ≠ cBLOCKED then d.shTrap x.1 t else d) d

/-- The HUB clock runs: its PLL has locked and the device is in RUN (01 R18, R20; 15 R453). -/
def Dev.hubClock (d : Dev) : Bool := d.plat.porst && d.plat.wrst && d.plat.pllUp.testBit 4 && d.fld F.PWR_STATUS_DEV == 0

/-- What 1 ns, two HUB cycles, does by itself on the hub die: write buffers issue, bobbin channels gain tokens (12 R363; 13
R399). -/
def Dev.hubCycle (d : Dev) : Dev := if d.hubClock then d.buffersIssue.bobTokens 2 else d

/-- A running item exceeds the run limit (R371). What TVAL takes is open. -/
def Dev.runLimit (d : Dev) (s : Nat) : Dev :=
  if (d.sh s).item.isNone ∨ d.fld F.WSC_CFG_RUN_LIMIT = 0 then d
  else
    let d := d.event bSHT s 0x704 (shData s cLIMIT (d.sh s).cls)
    let (d, v) := d.free64
    d.shTrap s (cLIMIT, v)

end Sys2Proof.Machine
end

