-- ==== Sys2Proof/Machine/CmdLoom.lean ====
section
/-!
DEFINITION. The meanings of the commands of picks, delivery, lanes, rings, commit, faults, journals and deep reads (02 to 05).
-/

namespace Sys2Proof.Machine

/-- BEAT_RELEASE (R159). -/
def execBeatRelease (s₀ : State) : Outcome := s₀.act (fun d => d.beatRelease)

/-- RELEASE_REACHES_HEDDLES (R33). -/
def execReleaseReachesHeddles (gpio : Nat) (s₀ : State) : Outcome := s₀.act (fun d => d.releaseAt gpio)

/-- PLAIN_PICK (R67). -/
def execPlainPick (gb h k : Nat) (s₀ : State) : Outcome := s₀.act (fun d => d.singlePick (fun x => x == .plain) gb h k)

/-- MRD (R77). -/
def execMrd (gb h : Nat) (s₀ : State) : Outcome := s₀.act (fun d => d.mrd gb h)

/-- MWR (R78). -/
def execMwr (gb h : Nat) (s₀ : State) : Outcome := s₀.act (fun d => d.mwr gb h)

/-- DRD (R80). -/
def execDrd (gb h : Nat) (s₀ : State) : Outcome := s₀.act (fun d => d.drd gb h)

/-- DWR (R82). -/
def execDwr (gb h : Nat) (s₀ : State) : Outcome := s₀.act (fun d => d.dwr gb h)

/-- PUT (R84). -/
def execPut (gb h k : Nat) (s₀ : State) : Outcome := s₀.act (fun d => d.singlePick (fun x => x == .put) gb h k)

/-- EDGE (R86). -/
def execEdge (gb h k : Nat) (s₀ : State) : Outcome := s₀.act (fun d => d.singlePick (fun x => x == .edge) gb h k)

/-- FAIL (R88). -/
def execFail (gb h : Nat) (s₀ : State) : Outcome := s₀.act (fun d => d.fail gb h)

/-- BRK (R89). -/
def execBrk (gb h k : Nat) (s₀ : State) : Outcome := s₀.act (fun d => d.singlePick (fun x => x == .brk) gb h k)

/-- RESERVED_ENCODING (R90). -/
def execReservedEncoding (gb h k : Nat) (s₀ : State) : Outcome := s₀.act (fun d => d.singlePick PickKind.isReserved gb h k)

/-- HARNESS_HANDSHAKE_CLOSE (R75). -/
def execHarnessHandshakeClose (gb h : Nat) (s₀ : State) : Outcome := s₀.act (fun d => d.handshakeClose gb h)

/-- WINDOW_DELIVERY (R97). -/
def execWindowDelivery (gb h k : Nat) (s₀ : State) : Outcome := s₀.act (fun d => d.deliverHeld gb h k)

/-- BEAM_OUT_LANE_CLOSE (R100). -/
def execBeamOutLaneClose (gb h j pick : Nat) (s₀ : State) : Outcome := s₀.act (fun d => d.laneClose gb h j pick)

/-- PULL (R105). -/
def execPull (gb h : Nat) (s₀ : State) : Outcome := s₀.act (fun d => d.pull gb h)

/-- RING_INJECT (R110). -/
def execRingInject (gb entry : Nat) (s₀ : State) : Outcome := s₀.act (fun d => d.ringInject gb entry)

/-- RING_HOP (R108). -/
def execRingHop (i : Nat) (s₀ : State) : Outcome := s₀.act (fun d => d.ringHop i)

/-- RING_EXTRACT (R111). -/
def execRingExtract (gb entry : Nat) (s₀ : State) : Outcome := s₀.act (fun d => d.ringExtract gb entry)

/-- WEFT_GATEWAY_HANDOFF (R117). -/
def execWeftGatewayHandoff (i : Nat) (s₀ : State) : Outcome := s₀.act (fun d => d.gatewayHandoff i)

/-- TAP_FIFO_DRAIN (R328). -/
def execTapFifoDrain (gb : Nat) (s₀ : State) : Outcome := s₀.act (fun d => d.tapDrain gb)

/-- FAIL_STAGING_DRAIN (R345). -/
def execFailStagingDrain (gb : Nat) (s₀ : State) : Outcome := s₀.act (fun d => d.failDrain gb)

/-- REED_COMPLETE (R33). -/
def execReedComplete (s₀ : State) : Outcome := s₀.act (fun d => d.reedComplete)

/-- COMMIT (R35). -/
def execCommit (s₀ : State) : Outcome := s₀.act (fun d => d.commit)

/-- FAULT_FLAG (R41). -/
def execFaultFlag (f : FaultIn) (s₀ : State) : Outcome := s₀.act (fun d => d.faultFlag f.fault f.hits)

/-- ATTEMPT_ABORT (R41). -/
def execAttemptAbort (s₀ : State) : Outcome := s₀.act (fun d => d.attemptAbort)

/-- FIX_COMPLETE (R38). -/
def execFixComplete (s₀ : State) : Outcome := s₀.act (fun d => d.fixComplete)

/-- REPAIR_STEP_COMPLETE (R42). -/
def execRepairStepComplete (s₀ : State) : Outcome := s₀.act (fun d => d.repairStep)

/-- STALL_WATCHDOG_EXPIRY (R49). -/
def execStallWatchdogExpiry (s₀ : State) : Outcome := s₀.act (fun d => d.stallExpiry)

/-- JOURNAL_SPILL (R129). -/
def execJournalSpill (gb h : Nat) (s₀ : State) : Outcome := s₀.actHub (fun d => d.journalSpill gb h)

/-- SPILL_READBACK (R130). -/
def execSpillReadback (gb : Nat) (s₀ : State) : Outcome := s₀.actHub (fun d => d.spillReadback gb)

/-- DEEP_JOURNAL_HANDOFF (R138). -/
def execDeepJournalHandoff (s₀ : State) : Outcome := s₀.actHub (fun d => d.journalHandoff)

/-- LINE_INVALIDATE (R136). -/
def execLineInvalidate (gb : Nat) (s₀ : State) : Outcome := s₀.act (fun d => d.lineInvalidate gb)

/-- DEEP_READ_RETURN (R140). -/
def execDeepReadReturn (gb h pick : Nat) (s₀ : State) : Outcome := s₀.actHub (fun d => d.deepReturn gb h pick)

/-- MAILBOX_PORT_L_SERVE (R141). -/
def execMailboxPortLServe (bank : Nat) (deep : Option (Nat × Nat × Nat)) (rel : MbxRel) (s₀ : State) : Outcome :=
  s₀.actHub (fun d => d.portLServe bank deep rel)

/-- MAILBOX_PORT_S_ACCESS (R141). -/
def execMailboxPortSAccess (mid bank word : Nat) (wr : Option Word) (rel : MbxRel) (s₀ : State) : Outcome :=
  s₀.actHub (fun d => d.portSAccess mid bank word wr rel)

/-- HBM_OCC_INTERVAL_END (R149). -/
def execHbmOccIntervalEnd (s₀ : State) : Outcome := s₀.act (fun d => d.occIntervalEnd)

end Sys2Proof.Machine
end

