-- ==== Sys2Proof/Machine/Start.lean ====
section
/-!
DEFINITION. Supplies, clocks, resets and the start-up sequence (01 R18 to R22; 08 R210 to R220, R232, R236 to R238; 14 R437;
17 R489 to R497).
-/

namespace Sys2Proof.Machine

/-! ### What a reset leaves -/

/-- Registers kept across PORST_N while VDD_AON stays within range: the LOG_ block (14 R447). -/
def keptPorst (k : Nat) : Bool := blkOf k == bLOG

/-- Fields kept across WRST_N (00 R9; 02 R60; 08 R248; 13 R412; 14 R444, R445; 17 R495 to R497). -/
def keptWrst (k : Nat) : Bool :=
  keptPorst k || k % 0x1000000 ∈ [R.LOM_LAST_FAULT, R.LOM_LAST_FAULT_X, R.HBM_SCRUB_PASS, R.HBM_CE_CNT, R.HBM_UE_CNT,
    R.HBM_CA_CNT, R.ECC_CE_CNT, R.ECC_UE_CNT, R.BST_BAD_CNT, R.IOC_PIN_CFG, R.IOC_STRAP, R.PWR_PANEL_V]

/-- A fuse or shadow write that a reset cuts off (14 R429, R430): what it leaves of its word, entry or erase is open. -/
def Dev.fuseBreak (d : Dev) : Dev :=
  let cmd := d.rel.fuseCmd
  let d1 := d.onRel (fun r => { r with fuseCmd := 0, toRecord := [] })
  if cmd = 1 then d1.burnPart d.rel.fuseWord (d.rel.fuseData &&& 0x7FFFFFFF)
  else if cmd = 3 then
    match d.freeShadow with
    | some i => d1.freeFlash (shadowAt i) 2
    | none => d1
  else if cmd = 4 then d1.freeFlash 0xF0000 16384
  else d1

/-- A flash write that a loss of its clock cuts off (08 R220; 17 R490). -/
def Dev.flashBreak (d : Dev) : Dev :=
  let cmd := d.ldr.flashCmd % 4
  let a := d.ldr.flashCmd / 4
  if cmd = flERASE then d.freeFlash (a / 4096 * 4096) 1024 else if cmd = flPROGRAM then d.freeFlash a 1 else d

/-- Everything but what PORST_N keeps is at its reset value: kept are the log with its registers, flash, fuses, the AON clocks,
the straps at the lands and the supply. -/
def Dev.coldReset (d : Dev) : Dev :=
  let d := d.fuseBreak.flashBreak
  { d with
    regs := d.regs.filter (fun e => keptPorst e.1), mem := [], chk := [], bad := [], loom := Loom.empty
    trd := { Treadle.empty with haltLow := d.trd.haltLow }
    tb := TimeBase.empty, warp := Warp.empty, cap := Cap.empty, weft := Weft.empty
    rel := { Rel.empty with hard := d.rel.hard, fuses := d.rel.fuses }
    plat := { Plat.empty with aonUp := d.plat.aonUp, crystalDone := d.plat.crystalDone, crystal := d.plat.crystal
                              aonPll := d.plat.aonPll, strapPins := d.plat.strapPins, wrst := d.plat.wrst
                              doneOther := d.plat.doneOther }
    hubd := HubDie.empty, charter := none, ldr := Loader.empty, eth := Eth.empty, alerts := 0 }

/-- PORST_N falls (00 R9; 08 R236). -/
def Dev.porstFall (d : Dev) : Dev := d.coldReset

/-- IOC_STRAP takes the straps (17 R496) and the result of the crystal detection (01 R19). -/
def Dev.sampleStraps (d : Dev) : Dev :=
  d.setReg R.IOC_STRAP (w32 (d.plat.strapPins % 16 + b2n (d.plat.crystalDone && d.plat.crystal) * 16))

/-- The start-up sequence is past event 1: event 2 ends at once where the AON clocks run (08 R210). From event 3 on ALERT_N is
released but for a PLL (08 R236). -/
def Dev.startEvents (d : Dev) : Dev :=
  if d.plat.crystalDone ∧ 2 ≤ d.plat.aonPll then
    ({ d with alerts := if d.alerts.testBit alPll then 2 ^ alPll else 0 }).setStage 3
  else d.setStage 2

/-- PORST_N rises: event 1 of R210 (08 R210; 17 R489, R496). `straps`: MADR [2:0] and JTAG_OWNER [3] at the lands. -/
def Dev.porstRise (d : Dev) (straps : Nat) : Dev :=
  if !d.plat.aonUp ∨ d.plat.porst then d
  else ((d.onPlat (fun x => { x with porst := true, warm := false, strapPins := straps % 16 })).sampleStraps).startEvents

/-! ### Supplies and the AON clocks (01 R19, R20, R22; 14 R437) -/

/-- VDD_AON comes within range: every entry of the log reads 0, the tick stands at 0. -/
def Dev.aonRise (d : Dev) : Dev :=
  if d.plat.aonUp then d
  else
    let d := d.coldReset
    { d with regs := [], log := { slots := [], queue := [], burst := false }, tick := 0, tickNs := 0
             plat := { d.plat with aonUp := true, crystalDone := false, crystal := false, aonPll := 0 } }

/-- VDD_AON goes: the log is lost. -/
def Dev.aonFall (d : Dev) : Dev :=
  let d := d.coldReset
  { d with regs := [], log := { slots := [], queue := [], burst := false }, tick := 0, tickNs := 0
           plat := { d.plat with aonUp := false, crystalDone := false, crystal := false, aonPll := 0 } }

/-- Crystal detection ends: the source takes over, the AON PLL starts, the tick starts to count (01 R19). -/
def Dev.crystalEnd (d : Dev) (present : Bool) : Dev :=
  if !d.plat.aonUp ∨ d.plat.crystalDone then d
  else
    let d := { d.onPlat (fun x => { x with crystalDone := true, crystal := present, aonPll := 1 }) with tick := 0, tickNs := 0 }
    if d.plat.porst then d.setFld F.IOC_STRAP_XTAL (b2n present) else d

/-- Lowest domain numbers of the PLLs of the second group (01 R18, R20). -/
def pllDomains : List Nat := [3, 4, 7, 13, 14, 15]

/-- Every PLL of the second group has locked: event 4 of R210 ends. -/
def Dev.pllsDone (d : Dev) : Dev :=
  if d.plat.stage = 4 ∧ pllDomains.all (fun n => d.plat.pllUp.testBit n) then d.setStage 5 else d

/-- A PLL locks: the AON PLL as domain 1, another by the lowest domain that it feeds (01 R20). -/
def Dev.pllLock (d : Dev) (dom : Nat) : Dev :=
  if dom = 1 then
    if d.plat.aonPll ≠ 1 then d
    else
      let d := d.onPlat (fun x => { x with aonPll := 2 })
      if d.plat.porst ∧ d.plat.stage = 2 then d.setStage 3 else d
  else if !pllDomains.contains dom ∨ !d.plat.pllStarted ∨ d.plat.pllUp.testBit dom ∨ d.plat.pllBad.testBit dom then d
  else (d.onPlat (fun x => { x with pllUp := orBit x.pllUp dom })).pllsDone

/-- A PLL does not lock within 1 ms of its start (01 R20). -/
def Dev.pllTimeout (d : Dev) (dom : Nat) : Dev :=
  if dom = 1 then
    if d.plat.aonPll ≠ 1 then d
    else
      let d := ((d.onPlat (fun x => { x with aonPll := 3 })).event bPWR 0 0x021 33).alert alPll
      if d.plat.porst ∧ d.plat.stage = 2 then d.setStage 3 else d
  else if !pllDomains.contains dom ∨ !d.plat.pllStarted ∨ d.plat.pllUp.testBit dom ∨ d.plat.pllBad.testBit dom then d
  else
    ((((d.onPlat (fun x => { x with pllBad := orBit x.pllBad dom, txIdle := true })).event bPWR 0 0x021 dom).driveDone true)).alert alPll

/-! ### The charter read: event 3 (08 R213 to R219) -/

/-- WEAVE, IDENTITY and the copy in use shown (08 R214, R215, R249). -/
def Dev.showCharter (d : Dev) (c : Charter) (copy : Nat) : Dev :=
  let d := ({ d with charter := some c }).setReg R.CHR_STATUS (w32 (c.seq % 2 ^ 16 * 2 ^ 16 + (if copy = 1 then 4 else 8) + copy))
  let d := d.setReg R.CHR_SYSTEM_ID (w32 c.systemId)
  (d.setFld F.TRD_WEAVE_ROLE c.role).setFld F.TRD_WEAVE_POSITION c.position

/-- GPIO cells (17 R495, R503); the pins take their LOAD states (08 R236). -/
def Dev.applyCells (d : Dev) (c : Charter) : Dev :=
  let d := c.gpio.zipIdx.foldl (fun d x => d.setReg (instKey R.IOC_PIN_CFG x.2) (w32 (x.1.cell % 256 / 8 * 8))) d
  d.onPlat (fun x => { x with gpioStage := 2, safeCopy := c.gpio.map GpioCfg.safe })

/-- Filters and rules of the WATCH record (15 R462). -/
def Dev.applyWatch (d : Dev) (c : Charter) : Dev :=
  let d := c.filters.zipIdx.foldl (fun d x => d.setReg (instKey R.WCH_FILT x.2) x.1) d
  c.rules.zipIdx.foldl (fun d x =>
    let d := d.setReg (instKey R.WCH_RULE_LO x.2) (w32 x.1.toNat)
    (d.setReg (instKey R.WCH_RULE_HI x.2) (w32 (x.1.toNat / 2 ^ 32))).ruleWrite x.2 x.1) d

/-- The pairs of the REGS records, in order, as OWNER writes that bypass the lock (08 R216). -/
def Dev.applyRegs (d : Dev) (c : Charter) : Dev :=
  c.writes.foldl (fun d x => d.regWrite { mid := midLDR, fw := true, owner := true, charter := true } x.1 x.2) d

/-- A charter takes effect, its mapping of HBM with it (05 R148). -/
def Dev.applyCharter (d : Dev) (c : Charter) (copy : Nat) : Dev :=
  let d := ((d.showCharter c copy).applyCells c).applyWatch c
  let d := (if copy = 1 then d.event bCHR 0 0x001 0 else d).applyRegs c
  d.onLoom (fun l => { l with hashMode := d.fld F.HBM_HASH_CTL_MODE, hashSeed := (d.reg R.HBM_HASH_SEED).toNat })

/-- No valid charter (08 R214, R237): no image is loaded, DONE and ALERT_N are low. -/
def Dev.noCharter (d : Dev) : Dev :=
  let d := (({ d with charter := none }).event bCHR 0 0x003 0).setFld F.LDR_STATUS_STATE 4
  let d := (List.range 48).foldl (fun d p => d.setReg (instKey R.IOC_PIN_CFG p) (w32 8)) d
  ((d.onPlat (fun x => { x with gpioStage := 0 })).driveDone true).alert alLoad

/-- The charter is read and checked, copy A and then copy B (08 R210 event 3, R214); at its end the PLLs of the second group
start (01 R20). -/
def Dev.charterRead (d : Dev) : Dev :=
  if d.plat.stage = 0 ∨ 3 < d.plat.stage ∨ !d.plat.crystalDone ∨ d.plat.aonPll < 2 then d
  else
    let d := match d.copyAt copyA with
      | .ok c => d.applyCharter c 1
      | .error r => match d.copyAt copyB with
        | .ok c => (d.event bCHR 0 0x002 r).applyCharter c 2
        | .error _ => d.noCharter
    ((d.onPlat (fun x => { x with pllStarted := true, pllUp := if x.warm then x.pllUp else 0, pllBad := if x.warm then x.pllBad else 0 })).setStage 4).pllsDone

/-! ### HBM and lanes: events 7 and 8 -/

/-- Lanes and links that the charter enables start to train (09 R257; 10 R291). -/
def Dev.lanesStart (d : Dev) : Dev :=
  let d := d.onPlat (fun x => { x with txIdle := false })
  (List.range 144).foldl (fun d ph =>
    let d := if isWeft ph ∧ d.laneEn ph ∧ ph % 4 = 0 then d.setLinkState ((ph - 128) / 4) 2 else d
    if d.laneEn ph then (d.startTraining ph).onLane ph (fun x => { x with boot := true }) else d) d

/-- The load at event 9: of LDR_BOOT_SLOT, or none (08 R210, R221). -/
def Dev.bootLoad (d : Dev) : Dev :=
  let slot := d.fld F.LDR_BOOT_SLOT_SLOT
  if d.charter.isNone ∨ slot = 0xFF then d
  else if d.slotUsed slot then d.beginLoad true slot
  else (d.setFld F.LDR_STATUS_SLOT slot).loadFailed
    { boot := true, slot := slot, entry := 0, step := 1, retries := 0, ready := none, base := 0, written := false } 0x112

/-- Training and clearing of HBM has ended; `failed`: stacks that failed (08 R210 event 7, R237). Without a charter the lanes stay
in electrical idle (R236). -/
def Dev.hbmTrained (d : Dev) (failed : Nat) : Dev :=
  if d.plat.stage ≠ 7 then d
  else
    let train := fun (d : Dev) => if d.charter.isNone then d else d.lanesStart
    let bad := failed % 256
    let d := d.setFld F.HBM_STATUS_TRAINED (255 - bad)
    if bad ≠ 0 then
      let d := ((List.range 8).filter (fun s => bad.testBit s)).foldl (fun d s => d.event bHBM s 0x010 s) d
      train ((d.setFld F.LDR_STATUS_STATE (if d.charter.isNone then 4 else 3)).alert alLoad)
    else ((train ((d.clearHbm).onPlat (fun x => { x with hbmReady := true }))).setStage 9).bootLoad

/-! ### Warm reset (08 R211) -/

/-- A byte of a region whose transparent test the reset cut off: its saved value, or one of the four march patterns (14 R435). -/
def Dev.marchByte (d : Dev) (a : Nat) : Dev :=
  let n := d.freeCtr
  let v : Byte := if Config.freeBit n then d.byte a
    else if Config.freeBit (n + 1) then (if Config.freeBit (n + 2) then 0x00 else 0xFF)
    else if Config.freeBit (n + 2) then 0x55 else 0xAA
  { d.setByte a v with freeCtr := n + 3 }

/-- The region of the class that holds an address, as a reset in its test leaves it; a class that is not tested has none. -/
def Dev.marchRegion (d : Dev) (cls a : Nat) : Dev :=
  match (if (d.fld F.BST_TMT_CFG_CLASS).testBit cls ∧ d.fld F.BST_TMT_CFG_RATE ≠ 0 then tmtRegion cls a else none) with
  | some (b, n) => (List.range n).foldl (fun d i => d.marchByte (b + i)) d
  | none => d

/-- What the reset writes to the log: captures end, a load is abandoned (08 R240; 11 R340). The
step number in event 0x114 is a DESIGN CHOICE (assumption log 14). -/
def Dev.warmEvents (d : Dev) : Dev :=
  let d := d.capAbortAll
  match d.ldr.load with
  | none => d
  | some x => d.loadEvent 0x114 (loadData x ⟨0x114, 0⟩ + x.step % 16 * 2 ^ 16)

/-- WRST_N falls (08 R211; 02 R48), which does nothing to a device in OFF (15 R452): what is kept is the log, the registers and fields of R9, the deskew table, fuses, flash and a
flash command that runs, the memories of the hub. `test`: class and address of a region under transparent test. -/
def Dev.wrstFall (d : Dev) (test : Option (Nat × Nat)) : Dev :=
  if !d.plat.wrst then d
  else if !d.plat.porst ∨ d.fld F.PWR_STATUS_DEV = 2 then d.onPlat (fun x => { x with wrst := false })
  else
    let d := d.warmEvents
    let code := d.fld F.LDR_STATUS_CODE
    let busy := d.fld F.CHR_FL_STATUS_BUSY
    let d := (match test with
      | some t => d.marchRegion t.1 t.2
      | none => d).fuseBreak.clearHbm
    let d := { d with
      regs := d.regs.filter (fun e => keptWrst e.1), loom := Loom.empty, trd := { Treadle.empty with haltLow := d.trd.haltLow }
      tb := TimeBase.empty, warp := Warp.empty, cap := { Cap.empty with deskew := d.cap.deskew }, weft := Weft.empty
      rel := { Rel.empty with hard := d.rel.hard, fuses := d.rel.fuses }
      plat := { d.plat with stage := 0, warm := true, wrst := false, gpioStage := 1, txIdle := true, parked := false, hbmReady := false
                            waking := 0, panelBad := 0, sleeping := 0, panelCause := [], trans := 0, transCause := 0
                            devOwed := [], sleepOwed := [], saved := [], watch := Watch.empty, doneLow := true
                            penLow := ((List.range 4).filter (fun p => !d.pen p)).foldl (fun m p => m + 2 ^ p) 0 }
      hubd := HubDie.empty, ldr := { Loader.empty with flashCmd := d.ldr.flashCmd }, eth := Eth.empty }
    let d := (List.range 4).foldl (fun d p => d.setFld (F.PWR_PANEL_V_TP.at p) 0) d
    (((d.setFld F.LDR_STATUS_CODE code).setFld F.CHR_FL_STATUS_BUSY busy).donePin)

/-- WRST_N rises: events 3 to 14 of R210 run again, PEN high and code 30 (08 R211; 17 R497); a device in OFF stays there (15 R452). -/
def Dev.wrstRise (d : Dev) : Dev :=
  if d.plat.wrst then d
  else
    let d := d.onPlat (fun x => { x with wrst := true })
    if !d.plat.porst ∨ d.fld F.PWR_STATUS_DEV = 2 then d
    else ((List.range 4).foldl (fun d p => d.setFld (F.PWR_PANEL_V_CODE.at p) 30) (d.onPlat (fun x => { x with penLow := 0 }))).startEvents

end Sys2Proof.Machine
end

