-- ==== Sys2Proof/Machine/Net.lean ====
section
/-!
DEFINITION. The Ethernet ports, the loom control protocol, the management port and JTAG (06 R177, R178; 10 R306 to R321).
Octets of addresses and headers outside the spec's own tables follow RFC 768, 791, 792, 826 and IEEE 1588 (assumption log 23).
-/

namespace Sys2Proof.Machine

/-- The Ethernet side changed. -/
def Dev.onEth (d : Dev) (f : Eth → Eth) : Dev := { d with eth := f d.eth }

/-- The AUTHORITY record of the charter in force. -/
def Dev.authRec (d : Dev) : Option Authority := d.charter.bind Charter.authority

/-- A port's part of the AUTHORITY record; without the record the port is off (R307). -/
def Dev.ethCfg (d : Dev) (port : Nat) : EthCfg :=
  ((d.authRec.map Authority.ports).getD []).getD port
    { mac := 0, vid := 0, tagged := false, ip := 0, mask := 0, gateway := 0, mode := 0, fec := 0 }

/-- MTU of the record. -/
def Dev.mtu (d : Dev) : Nat := (d.authRec.map Authority.mtu).getD 1500

/-- The port's link is up. -/
def Dev.ethUp (d : Dev) (port : Nat) : Bool := decide (port < 2) && d.fld (F.ETH_PORT_STATUS_UP.at port) == 1

/-- A dropped frame is counted; the field is FILTER, RING or OTHER (R323). -/
def Dev.ethDrop (d : Dev) (f : Fld) (port : Nat) : Dev := d.addFld (f.at port) 1

/-- The FEC in use that a mode and the record's FEC can resolve to (R306, R504). -/
def fecFits (mode want fec : Nat) : Bool :=
  (if mode = 3 then 1 ≤ fec && fec ≤ 3 else fec == 1) && (want == 0 || want == fec)

/-- A port's link comes up, with the FEC in use, or goes down (R306, R323). A port comes up in the mode of the record. -/
def Dev.ethLink (d : Dev) (port : Nat) (up : Bool) (fec : Nat) : Dev :=
  let c := d.ethCfg port
  let set := fun (u m f : Nat) => ((d.setFld (F.ETH_PORT_STATUS_UP.at port) u).setFld (F.ETH_PORT_STATUS_MODE.at port) m).setFld
    (F.ETH_PORT_STATUS_FEC.at port) f
  if 2 ≤ port then d
  else if up then (if c.mode ≠ 0 ∧ d.plat.pllUp.testBit 15 ∧ fecFits c.mode c.fec fec then set 1 c.mode fec else d)
  else (set 0 0 0).onEth (fun x => { x with paused := SMap.del x.paused port, held := x.held.filter (fun m => m.iface != port) })

/-- The longest frame that the MAC takes, FCS and all (R306). -/
def maxFrame : Nat := 9216

/-! ### Checksums and frames -/

/-- Big-endian bytes of a number. -/
def beBytes (n x : Nat) : List Byte := (leBytes n x).reverse
/-- Bytes off .. off + n - 1 of a list, as a big-endian number. -/
def beAt (bs : List Byte) (off n : Nat) : Nat := leNat ((bs.drop off).take n).reverse

/-- The sum of the 16-bit big-endian words of a list of bytes. -/
def sum16 : List Byte → Nat
  | [] => 0
  | [a] => a.toNat * 256
  | a :: b :: t => a.toNat * 256 + b.toNat + sum16 t

/-- The internet checksum of a sum. -/
def inetSum (s : Nat) : Nat :=
  let f := fun x => x % 0x10000 + x / 0x10000
  0xFFFF - f (f (f s))

/-- n bytes of a list replaced from an offset on. -/
def patch (bs : List Byte) (off : Nat) (new : List Byte) : List Byte := bs.take off ++ new ++ bs.drop (off + new.length)

/-- The ARP reply. -/
def Dev.arpReply (d : Dev) (port mac ip : Nat) : List Byte :=
  let c := d.ethCfg port
  leBytes 6 mac ++ leBytes 6 c.mac ++ beBytes 2 0x0806 ++ beBytes 8 0x0001080006040002 ++ leBytes 6 c.mac ++ beBytes 4 c.ip ++
    leBytes 6 mac ++ beBytes 4 ip

/-- The ICMP echo reply: type 0, the rest as received, a new checksum. -/
def echoReply (msg : List Byte) : List Byte :=
  let z := patch (patch msg 0 [0]) 2 [0, 0]
  patch z 2 (beBytes 2 (inetSum (sum16 z)))

/-- Such a frame arrives (R306). -/
def Dev.ethFrame (d : Dev) (port : Nat) (f : EthFrame) : Dev :=
  let c := d.ethCfg port
  if !d.ethUp port then d
  else match f with
    | .arp mac ip target =>
      if target = c.ip then d.send [⟨port, d.vlanOf port, 0, 0, 0, d.arpReply port mac ip⟩] else d.ethDrop F.ETH_RX_DROP_OTHER port
    | .echo ip dest msg =>
      if dest = c.ip ∧ msg.length + 38 ≤ maxFrame then d.send [⟨port, d.vlanOf port, ip, 0, 0, echoReply msg⟩] else d.ethDrop F.ETH_RX_DROP_OTHER port
    | .pause q =>
      (d.onEth (fun x => { x with paused := SMap.put 0 x.paused port (q % 0x10000 * (if c.mode = 3 then 2048 else 512)) })).unpaused
    | .other => d.ethDrop F.ETH_RX_DROP_OTHER port

/-! ### PTP messages (06 R177, R178; R315) -/

/-- Ring r: receive 0, transmit 0, receive 1, transmit 1. -/
def Dev.ringAddr (d : Dev) (r : Nat) : Nat :=
  (d.reg R.ETH_RING_BASE_LO).toNat + d.fld F.ETH_RING_BASE_HI_BASE_HI * 2 ^ 32 + 8192 * r + 32 * (SMap.get 0 d.eth.rings r % 256)

/-- The ring's next descriptor has been used. -/
def Dev.ringNext (d : Dev) (r : Nat) : Dev :=
  d.onEth (fun x => { x with rings := SMap.put 0 x.rings r ((SMap.get 0 x.rings r + 1) % 256) })

/-- The port time-stamps event messages. -/
def Dev.ptpEn (d : Dev) (port : Nat) : Bool := d.fld (if port = 0 then F.PTP_PORT0_CFG_EN else F.PTP_PORT1_CFG_EN) == 1

/-- Where the PTP header of a frame starts, and whether it is UDP over IPv4. -/
def ptpHeader (frame : List Byte) : Nat × Bool :=
  let e := if beAt frame 12 2 = 0x8100 then 16 else 12
  if beAt frame e 2 = 0x0800 then (e + 2 + leAt frame (e + 2) 1 % 16 * 4 + 8, true) else (e + 2, false)

/-- The transport is one of the two that the device supports: UDP over IPv4, or IEEE 802.3 with the EtherType of PTP (06 R177). -/
def ptpCarried (frame : List Byte) : Bool :=
  let e := if beAt frame 12 2 = 0x8100 then 16 else 12
  beAt frame e 2 == 0x88F7 || (beAt frame e 2 == 0x0800 && leAt frame (e + 11) 1 == 17)

/-- A message's domainNumber, transport and delay mechanism are those of the port's PTP_PORTn_CFG (06 R177, R195). messageType 1 and 9
belong to delay request-response, 2, 3 and 10 to peer-delay. -/
def Dev.ptpFits (d : Dev) (port : Nat) (frame : List Byte) : Bool :=
  let c := (d.reg (if port = 0 then R.PTP_PORT0_CFG else R.PTP_PORT1_CFG)).toNat
  let (p, udp) := ptpHeader frame
  let kind := leAt frame p 1 % 16
  ptpCarried frame && leAt frame (p + 4) 1 == bitsN c 31 24 && udp == !bitN c 4 &&
    (if bitN c 5 then kind != 1 && kind != 9 else kind != 2 && kind != 3 && kind != 10)

/-- A PTP message arrives: it is one that the port's configuration supports, or dropped (R177; assumption log 22). A descriptor that the device owns takes it, with the time at which it crossed the medium-dependent
interface if it is an event message. -/
def Dev.ptpRx (d : Dev) (port : Nat) (event : Bool) (frame : List Byte) : Dev :=
  let mid := midETH + port
  let r := 2 * port
  let a := d.ringAddr r
  if !d.ethUp port then d
  else if !d.ptpFits port frame ∨ maxFrame < frame.length + 4 then d.ethDrop F.ETH_RX_DROP_OTHER port
  else
    let (d, st, x) := d.busRead mid gkREAD a 32
    if st ≠ stOK ∨ leAt x 10 1 % 2 = 0 then d.ethDrop F.ETH_RX_DROP_RING port
    else
      let (d, st) := d.busWriteMany mid (leAt x 0 8) frame
      if st ≠ stOK then d.ethDrop F.ETH_RX_DROP_RING port
      else
        let ok := event && d.ptpEn port
        let lat := d.fld (if port = 0 then F.PTP_PORT0_LAT_INGRESS else F.PTP_PORT1_LAT_INGRESS)
        let t := if ok then (d.tb.tb - w32 lat).toNat else 0
        let y := leBytes 8 (leAt x 0 8) ++ leBytes 2 frame.length ++ leBytes 1 (2 * b2n ok) ++ leBytes 1 0 ++ leBytes 4 t ++ leBytes 16 0
        (d.busWriteMany mid a y).1.ringNext r

/-- The frame with its UDP checksum computed again; `p`: where the PTP header starts. -/
def udpAgain (frame : List Byte) (p : Nat) : List Byte :=
  let u := p - 8
  let ipHead := if beAt frame 12 2 = 0x8100 then 18 else 14
  let z := patch frame (u + 6) [0, 0]
  let n := beAt frame (u + 4) 2
  let s := sum16 ((z.drop (ipHead + 12)).take 8) + 17 + n + sum16 ((z.drop u).take n)
  patch z (u + 6) (beBytes 2 (if inetSum s = 0 then 0xFFFF else inetSum s))

/-- correctionField raised by a difference in ns. -/
def correct (frame : List Byte) (diff : Int) : List Byte :=
  let (p, udp) := ptpHeader frame
  let f := patch frame (p + 8) (beBytes 8 (unsgn 64 (sgn 64 (beAt frame (p + 8) 8) + diff * 65536)))
  if udp then udpAgain f p else f

/-- PTP_PORTn_CFG.STEP is one-step. -/
def Dev.ptpStep (d : Dev) (port : Nat) : Bool := d.fld (if port = 0 then F.PTP_PORT0_CFG_STEP else F.PTP_PORT1_CFG_STEP) == 1

/-- The port's next transmit descriptor: a frame that the device owns is sent. Its one-step flag counts on a port whose STEP is one-step
(R195), and the port stamps and corrects only messages that its configuration supports (R177; assumption log 22). -/
def Dev.ptpTx (d : Dev) (port : Nat) : Dev :=
  let mid := midETH + port
  let r := 2 * port + 1
  let a := d.ringAddr r
  if !d.ethUp port ∨ SMap.get 0 d.eth.paused port ≠ 0 then d
  else
    let (d, st, x) := d.busRead mid gkREAD a 32
    let flags := leAt x 10 1
    if st ≠ stOK ∨ flags % 2 = 0 then d
    else
      let (d, st, frame) := d.busReadMany mid (leAt x 0 8) (leAt x 8 2)
      if st ≠ stOK then d
      else
        let t := d.tb.tb + w32 (d.fld (if port = 0 then F.PTP_PORT0_LAT_EGRESS else F.PTP_PORT1_LAT_EGRESS))
        let diff := sgn 32 (t - w32 (leAt x 12 4)).toNat
        let ours := d.ptpEn port && d.ptpFits port frame
        let one := bitN flags 1 && ours && d.ptpStep port
        let bad := one && (decide (diff < -1048576) || decide (1048576 < diff))
        let d := d.send [⟨port, none, 0, 0, 0, if one && !bad then correct frame diff else frame⟩]
        let d := if bitN flags 2 ∧ ours then d.txtsPush port (beAt frame ((ptpHeader frame).1 + 30) 2) t else d
        let y := x.take 10 ++ leBytes 1 (flags - 1) ++ leBytes 1 (b2n bad) ++ (x.drop 12).take 4 ++ leBytes 16 0
        (d.busWriteMany mid a y).1.ringNext r

/-! ### Loom control datagrams: acceptance (R308, R310, R313) -/

/-- The first filter entry whose prefix covers the source and whose ports include the arrival port. -/
def Dev.ethFilter (d : Dev) (port ip : Nat) : Option HostFilter :=
  ((d.authRec.map Authority.filters).getD []).find? (fun f =>
    ip / 2 ^ (32 - f.prefixLen) == f.ip / 2 ^ (32 - f.prefixLen) && f.ports.testBit port)

/-- Reply statuses (R310). -/
def rpOK : Nat := 0
def rpFORMAT : Nat := 1
def rpOP : Nat := 2
def rpRIGHT : Nat := 3
def rpACCESS : Nat := 4
def rpBUSY : Nat := 5
def rpLONG : Nat := 6
def rpDUP : Nat := 7

/-- A loom control header. -/
def ctlHeader (kind op status seq len : Nat) : List Byte :=
  leBytes 2 0x4C43 ++ leBytes 1 1 ++ leBytes 1 kind ++ leBytes 2 op ++ leBytes 2 status ++ leBytes 4 seq ++ leBytes 2 len ++ leBytes 2 0

/-- A request's OP, SEQ and body. -/
def EthReq.op (q : EthReq) : Nat := leAt q.data 4 2
def EthReq.seq (q : EthReq) : Nat := leAt q.data 8 4
def EthReq.body (q : EthReq) : List Byte := q.data.drop 16

/-- A reply to a request. -/
def Dev.ethReply (d : Dev) (port : Nat) (q : EthReq) (status : Nat) (body : List Byte) : Dev :=
  d.send [⟨port, d.vlanOf port, q.ip, q.udp, d.udpPort, ctlHeader 2 q.op status q.seq body.length ++ body⟩]

/-- A request's header is as R310 gives it. -/
def headerOk (data : List Byte) : Bool :=
  16 ≤ data.length && leAt data 0 2 == 0x4C43 && leAt data 2 1 == 1 && leAt data 3 1 == 1 && leAt data 6 2 == 0 &&
    leAt data 12 2 == data.length - 16 && leAt data 14 2 == 0

/-- The requests that wait at a port. -/
def Dev.ethQueue (d : Dev) (port : Nat) : List EthReq := if port = 0 then d.eth.queue0 else d.eth.queue1
def Dev.setEthQueue (d : Dev) (port : Nat) (q : List EthReq) : Dev :=
  d.onEth (fun x => if port = 0 then { x with queue0 := q } else { x with queue1 := q })

/-- A datagram to the port: source and destination, whether its UDP checksum is non-zero and correct, its bytes. A datagram
accepted in state LOW wakes the device where PWR_WAKE_CFG.ETH says so (15 R454). A frame of more than 9,216 bytes (14 of Ethernet
header, 20 of IPv4, 8 of UDP, 4 of FCS, and the datagram) is dropped (R306). -/
def Dev.datagram (d : Dev) (port ip udp destIp destUdp : Nat) (sumOk : Bool) (data : List Byte) : Dev :=
  if !d.ethUp port then d
  else if maxFrame < data.length + 46 then d.ethDrop F.ETH_RX_DROP_OTHER port
  else match d.ethFilter port ip with
    | none => d.ethDrop F.ETH_RX_DROP_FILTER port
    | some f =>
      if destIp ≠ (d.ethCfg port).ip ∨ destUdp ≠ d.udpPort ∨ !sumOk then d.ethDrop F.ETH_RX_DROP_FILTER port
      else
        let q : EthReq := { ip := ip, udp := udp, rights := ((d.authRec.map Authority.opRights).getD 0) &&& f.rights, data := data }
        let d := if d.fld F.PWR_STATUS_DEV = 1 ∧ d.fld F.PWR_WAKE_CFG_ETH = 1 ∧ d.plat.trans = 0 then d.devAsk 0 3
          else if (d.plat.trans = 1 ∨ d.plat.trans = 3) ∧ d.fld F.PWR_WAKE_CFG_ETH = 1 then d.devAsk 0 3 else d
        if !headerOk data then d.ethReply port q rpFORMAT []
        else if q.op = 0 ∨ 7 < q.op then d.ethReply port q rpOP []
        else if 64 ≤ (d.ethQueue port).length then d.ethReply port q rpBUSY []
        else d.setEthQueue port (d.ethQueue port ++ [q])

/-! ### Execution (R311 to R314) -/

/-- The kept reply status of a source's request, if its SEQ is kept (R313). -/
def Dev.ethKept (d : Dev) (q : EthReq) : Option Nat :=
  ((d.eth.srcs.find? (fun s => s.ip == q.ip && s.udp == q.udp)).bind (fun s => s.kept.find? (fun k => k.1 == q.seq))).map Prod.snd

/-- The last n entries of a list. -/
def lastN {α : Type} (n : Nat) (l : List α) : List α := l.drop (l.length - n)

/-- Sources with a request's SEQ and reply status added: the last 64 of each of the last 16 sources (R313). -/
def keepIn (srcs : List EthSrc) (q : EthReq) (status : Nat) : List EthSrc :=
  let mine := fun (s : EthSrc) => s.ip == q.ip && s.udp == q.udp
  if srcs.any mine then srcs.map (fun s => if mine s then { s with kept := lastN 64 (s.kept ++ [(q.seq, status)]) } else s)
  else lastN 16 (srcs ++ [{ ip := q.ip, udp := q.udp, kept := [(q.seq, status)] }])

/-- A request's SEQ and reply status are kept. -/
def Dev.ethKeep (d : Dev) (q : EthReq) (status : Nat) : Dev := d.onEth (fun x => { x with srcs := keepIn x.srcs q status })

/-- Requests are executed: not in a transition, and not in LOW where a datagram wakes the device (15 R454). -/
def Dev.ethRuns (d : Dev) (port : Nat) : Bool :=
  d.ethUp port && d.plat.trans == 0 && !(d.fld F.PWR_STATUS_DEV == 1 && d.fld F.PWR_WAKE_CFG_ETH == 1)

/-- The oldest request of a port, when it has this OP. -/
def Dev.ethFront (d : Dev) (port op : Nat) : Option EthReq :=
  match d.ethQueue port with
  | [] => none
  | q :: _ => if d.ethRuns port ∧ q.op = op then some q else none

/-- A read operation of a port's queue: it needs READ. `f` gives the reply's status and body. -/
def Dev.ethRead (d : Dev) (port op : Nat) (f : Dev → EthReq → Dev × Nat × List Byte) : Dev :=
  match d.ethFront port op with
  | none => d
  | some q =>
    let d := d.setEthQueue port (d.ethQueue port).tail
    if !q.rights.testBit 0 then d.ethReply port q rpRIGHT []
    else
      let (d, st, body) := f d q
      d.ethReply port q st body

/-- A write operation of a port's queue, not executed a second time (R313). -/
def Dev.ethWrite (d : Dev) (port op : Nat) (f : Dev → EthReq → Dev × Nat × List Byte) : Dev :=
  match d.ethFront port op with
  | none => d
  | some q =>
    let d := d.setEthQueue port (d.ethQueue port).tail
    match d.ethKept q with
    | some st => d.ethReply port q rpDUP (leBytes 2 st)
    | none =>
      let (d, st, body) := f d q
      (d.ethKeep q st).ethReply port q st body

/-- A register's four bytes. -/
def Dev.reg4 (d : Dev) (k : Nat) : List Byte := leBytes 4 (d.view k).toNat

/-- INFO. -/
def Dev.ethInfo (d : Dev) (port : Nat) : Dev :=
  d.ethRead port 1 (fun d q =>
    if q.body ≠ [] then (d, rpFORMAT, [])
    else
      let name := (d.charter.map Charter.name).getD []
      (d, rpOK, d.reg4 R.CHIP_ID ++ d.reg4 R.STEP_ID ++ d.reg4 R.CHR_SYSTEM_ID ++ (name ++ List.replicate 24 0).take 24 ++
        d.reg4 R.LDR_STATUS ++ d.reg4 R.TRD_STATUS ++ d.reg4 R.LOM_STATUS ++ d.reg4 R.LDR_IMAGE_ID_LO ++ d.reg4 R.LDR_IMAGE_ID_HI))

/-- An offset names a register: 0, or the access event's code (00 R5; 13 R381). -/
def offsetBad (k : Nat) : Nat := if k % 4 ≠ 0 then 0x804 else if blocks * 0x10000 ≤ k then 0x803 else 0

/-- REG_READ: in order, up to the first offset that names no register. -/
def Dev.ethRegRead (d : Dev) (port : Nat) : Dev :=
  d.ethRead port 2 (fun d q =>
    let n := q.body.length / 4
    if q.body.length % 4 ≠ 0 ∨ n = 0 ∨ 256 < n then (d, rpFORMAT, [])
    else
      let (d, st, bs) := (List.range n).foldl (fun (s : Dev × Nat × List Byte) i =>
        let k := leAt q.body (4 * i) 4
        if s.2.1 ≠ rpOK then s
        else if offsetBad k ≠ 0 then (s.1.access (offsetBad k) (midETH + port) k, rpACCESS, [])
        else
          let (d, w) := s.1.regRead k
          (d, rpOK, s.2.2 ++ leBytes 4 w.toNat)) (d, rpOK, [])
      (d, st, bs))

/-- Registers of events, whose W1C bits the right RUN covers (R312). -/
def eventRegs : List Nat := [R.TRD_EVENTS, R.LOM_EVENTS, R.WRP_LANE_EVENTS]

/-- The right that a REG_WRITE pair needs: its bit, or none where the target is not in the list of R312. -/
def rightOf (k : Nat) : Option Nat :=
  if k = R.LDR_CMD then some 1
  else if k ∈ [R.TRD_CMD, R.TRD_START_AT, R.WRP_MSG_SEL, R.WRP_MSG_DATA, R.WRP_MSG_CTL, R.WRP_MSG_AT] ∨ eventRegs.contains k then some 2
  else if (fieldsAt k).any (fun f => f.acc == .rw) ∧ (blkOf k = bCAP ∨ blkOf k = bFMP) then some 3
  else if k = R.CAP_CMD ∨ k = R.FMP_CMD then some 3
  else none

/-- REG_WRITE: pairs in order, up to the first that is refused (R312). -/
def Dev.ethRegWrite (d : Dev) (port : Nat) : Dev :=
  d.ethWrite port 3 (fun d q =>
    let n := q.body.length / 8
    if q.body.length % 8 ≠ 0 ∨ n = 0 ∨ 128 < n then (d, rpFORMAT, [])
    else
      let mid := midETH + port
      let (d, st, done) := (List.range n).foldl (fun (s : Dev × Nat × Nat) i =>
        let k := leAt q.body (8 * i) 4
        let v := w32 (leAt q.body (8 * i + 4) 4)
        if s.2.1 ≠ rpOK then s
        else if offsetBad k ≠ 0 then (s.1.access (offsetBad k) mid k, rpRIGHT, s.2.2)
        else match rightOf k with
          | none => (s.1.access 0x806 mid k, rpRIGHT, s.2.2)
          | some r =>
            if q.rights.testBit r then (s.1.regWrite (s.1.who mid) k v, rpOK, s.2.2 + 1)
            else (s.1.access 0x806 mid k, rpRIGHT, s.2.2)) (d, rpOK, 0)
      (d, st, leBytes 2 done ++ leBytes 2 st))

/-- MEM_READ. -/
def Dev.ethMemRead (d : Dev) (port : Nat) : Dev :=
  d.ethRead port 4 (fun d q =>
    let a := leAt q.body 0 8
    let n := leAt q.body 8 4
    if q.body.length ≠ 12 ∨ a % 8 ≠ 0 ∨ n % 8 ≠ 0 then (d, rpFORMAT, [])
    else if d.mtu - 44 < n then (d, rpLONG, [])
    else
      let (d, st, bs) := d.busReadMany (midETH + port) a n
      if st ≠ stOK then (d, rpACCESS, []) else (d, rpOK, bs))

/-- MEM_WRITE: it needs CAPTURE; a write that is done fires its trigger entries (12 R374). -/
def Dev.ethMemWrite (d : Dev) (port : Nat) : Dev :=
  d.ethWrite port 5 (fun d q =>
    let a := leAt q.body 0 8
    let bs := q.body.drop 8
    if !q.rights.testBit 3 then (d, rpRIGHT, [])
    else if q.body.length < 8 ∨ a % 8 ≠ 0 ∨ bs.length % 8 ≠ 0 then (d, rpFORMAT, [])
    else
      let (d, st) := d.busWriteMany (midETH + port) a bs
      if st ≠ stOK then (d, rpACCESS, []) else (d.fireHost a bs.length, rpOK, []))

/-- LOG_READ: entries by slot, wrapping from the last to the first (14 R440). -/
def Dev.ethLogRead (d : Dev) (port : Nat) : Dev :=
  d.ethRead port 6 (fun d q =>
    let i := leAt q.body 0 2
    let n := leAt q.body 2 2
    if q.body.length ≠ 4 ∨ n = 0 ∨ 64 < n ∨ 4096 ≤ i then (d, rpFORMAT, [])
    else (d, rpOK, (List.range n).flatMap (fun j => leBytes 16 (SMap.get 0 d.log.slots ((i + j) % 4096)).toNat)))

/-- SUBSCRIBE: a subscriber is a source on a port; a repeat changes its mask and severity (R314). -/
def Dev.ethSubscribe (d : Dev) (port : Nat) : Dev :=
  d.ethRead port 7 (fun d q =>
    let mask := leAt q.body 0 2
    let sev := leAt q.body 2 1
    let mine := fun (s : EthSub) => s.port == port && s.ip == q.ip && s.udp == q.udp
    if q.body.length ≠ 3 then (d, rpFORMAT, [])
    else if mask = 0 then (d.onEth (fun x => { x with subs := x.subs.filter (fun s => !mine s) }), rpOK, [])
    else if d.eth.subs.any mine then
      (d.onEth (fun x => { x with subs := x.subs.map (fun s => if mine s then { s with mask := mask, sev := sev } else s) }), rpOK, [])
    else if 4 ≤ d.eth.subs.length then (d, rpBUSY, [])
    else (d.onEth (fun x => { x with subs := x.subs ++ [{ port := port, ip := q.ip, udp := q.udp, mask := mask, sev := sev, seq := 0 }] }), rpOK, []))

/-- A subscriber's mask and severity match an entry (R314). -/
def EthSub.takes (s : EthSub) (e : LogWord) : Bool :=
  s.mask.testBit (bitsN e.toNat 59 56) && s.sev ≤ bitsN e.toNat 47 44

/-- The next entry of the log's queue is written, and its event messages are sent (R314; 14 R439). -/
def Dev.logStep (d : Dev) : Dev :=
  let (d, e) := d.logWrite
  match e with
  | none => d
  | some e =>
    let who := d.eth.subs.filter (fun s => s.takes e && d.ethUp s.port)
    if who.isEmpty then d
    else
      (d.send (who.map (fun s => ⟨s.port, d.vlanOf s.port, s.ip, s.udp, d.udpPort, ctlHeader 3 0 0 s.seq 16 ++ leBytes 16 e.toNat⟩))).onEth
        (fun x => { x with subs := x.subs.map (fun s => if s.takes e && d.ethUp s.port then { s with seq := (s.seq + 1) % 2 ^ 32 } else s) })

/-! ### Management port and JTAG (R316 to R320) -/

/-- The management port serves (R316). -/
def Dev.mgtServes (d : Dev) : Bool := d.plat.aonUp && d.plat.porst && d.plat.crystalDone && decide (2 ≤ d.plat.aonPll)

/-- The hub answers: it is out of reset, its PLL has locked, its supply is on, and its rings carry requests (13 R407). -/
def Dev.hubAnswers (d : Dev) : Bool :=
  d.plat.wrst && d.plat.pllUp.testBit 4 && d.fld F.PWR_STATUS_DEV != 2 && !d.hubd.hub.stopped

/-- STAT of a response (R317). -/
def mgOK : Nat := 0
def mgACCESS : Nat := 1
def mgFRAME : Nat := 2
def mgRUNNING : Nat := 3
def mgHUB : Nat := 4

/-- The transport JTAG, beside those of `MgtFrame.via`. -/
def viaJTAG : Nat := 3

/-- The master that a transport's requests come from. -/
def midVia (via : Nat) : Nat := if via = viaJTAG then midJTAG else midMGT

/-- A response; on the UART in its frame of 0x7E, length byte, response, CRC-32C (R317). -/
def Dev.mgReply (d : Dev) (via stat : Nat) (bs : List Byte) : Dev :=
  let r := leBytes 1 stat ++ bs
  d.send [⟨2 + via, none, 0, 0, 0, if via = 2 then leBytes 1 0x7E ++ leBytes 1 r.length ++ r ++ leBytes 4 (crc32c r) else r⟩]

/-- The LOG_ block stands in the AON domain, which needs neither the hub nor its PLL (01 R18, R20). -/
def aonWord (a : Nat) : Bool := regionOf a == .regs && blkOf (a - regBase) == bLOG && a % 4 == 0

/-- n words read at rising addresses, up to the first that fails. Without the hub only the always-on words answer. -/
def Dev.mgReadWords (d : Dev) (mid a n : Nat) : Dev × Nat × List Byte :=
  (List.range n).foldl (fun (s : Dev × Nat × List Byte) i =>
    if s.2.1 ≠ mgOK then s
    else if !s.1.hubAnswers then
      if aonWord (a + 4 * i) then
        let (d, w) := s.1.regRead (a + 4 * i - regBase)
        (d, mgOK, s.2.2 ++ leBytes 4 w.toNat)
      else (s.1, mgHUB, s.2.2)
    else
      let (d, st, bs) := s.1.busRead mid gkREAD (a + 4 * i) 4
      if st = stOK ∧ a % 4 = 0 then (d, mgOK, s.2.2 ++ bs) else (d, mgACCESS, s.2.2)) (d, mgOK, [])

/-- Words written at rising addresses, up to the first that fails. Without the hub only the always-on words answer. -/
def Dev.mgWriteWords (d : Dev) (mid a : Nat) (ws : List Word) : Dev × Nat :=
  ws.zipIdx.foldl (fun (s : Dev × Nat) x =>
    if s.2 ≠ mgOK then s
    else if !s.1.hubAnswers then
      if aonWord (a + 4 * x.2) then (s.1.regWrite (s.1.who mid) (a + 4 * x.2 - regBase) x.1, mgOK) else (s.1, mgHUB)
    else if a % 4 ≠ 0 ∧ regionOf a ≠ .regs then (s.1, mgACCESS)
    else
      let (d, st) := s.1.busWord mid (a + 4 * x.2) x.1
      (d, if st = stOK then mgOK else mgACCESS)) (d, mgOK)

/-- A READ of n words. -/
def Dev.mgRead (d : Dev) (via a n : Nat) : Dev :=
  let (d, st, bs) := d.mgReadWords (midVia via) a n
  d.mgReply via st bs

/-- A WRITE. -/
def Dev.mgWrite (d : Dev) (via a : Nat) (ws : List Word) : Dev :=
  let (d, st) := d.mgWriteWords (midVia via) a ws
  d.mgReply via st []

/-- STATUS: always-on copies (R318); N and ADDR of its request are 0 (R317). -/
def Dev.mgStatus (d : Dev) (via n a : Nat) : Dev :=
  if n ≠ 0 ∨ a ≠ 0 then d.mgReply via mgFRAME []
  else d.mgReply via mgOK (d.reg4 R.LDR_STATUS ++ d.reg4 R.TRD_STATUS ++ d.reg4 R.LOM_STATUS ++ d.reg4 R.MGT_STATUS)

/-- An I2C transaction is for this device: its address is 0x58 plus MADR (R316). -/
def Dev.mgtMine (d : Dev) (f : MgtFrame) : Bool := f.via != 1 || f.addr7 == 0x58 + d.fld F.IOC_STRAP_MADR

/-- A request of the management port runs; one whose frame is not intact is answered with STAT 0x02, and one that finds the previous
request still running with STAT 0x03 (R317). -/
def Dev.mgRequest (d : Dev) (f : MgtFrame) (g : Dev → Nat → Dev) : Dev :=
  if !d.mgtServes ∨ !d.mgtMine f then d
  else if !f.intact then d.mgReply f.via mgFRAME []
  else if f.running then d.mgReply f.via mgRUNNING []
  else g d f.via

/-- A request through the JTAG TAP: OP, address, words to read, words to write. Without OWNER authority it is no command
(R320, R321); while a reset line is low TDO is high impedance and nothing is served (17 R497). -/
def Dev.jtagRequest (d : Dev) (op a n : Nat) (ws : List Word) : Dev :=
  if !d.plat.porst ∨ !d.plat.wrst ∨ !d.jtagOwner then d
  else if op = 1 then d.mgRead viaJTAG a n
  else if op = 2 then d.mgWrite viaJTAG a ws
  else if op = 3 then d.mgStatus viaJTAG 0 0
  else d.mgReply viaJTAG mgFRAME []

/-- A write of MGT_LOCK with UNLOCK set, by the management port or JTAG; bits [31:16] are TIMEOUT (R319, R323). -/
def Dev.unlockSet (d : Dev) (jtag : Bool) (timeout : Nat) : Dev :=
  let mid := if jtag then midJTAG else midMGT
  if !d.hubAnswers then d else (d.busWord mid (regBase + R.MGT_LOCK) (w32 (timeout % 65536 * 65536 + 1))).1

/-- TIMEOUT seconds have passed without an OWNER request (R319). -/
def Dev.unlockTimeout (d : Dev) : Dev := d.setUnlock false

end Sys2Proof.Machine
end

