-- ==== Sys2Proof/Machine/CmdNet.lean ====
section
/-!
DEFINITION. The meanings of the commands of Ethernet, management port and JTAG (10).
-/

namespace Sys2Proof.Machine

/-- PTP_RX_MESSAGE (R178). -/
def execPtpRxMessage (port : Nat) (event : Bool) (frame : List Byte) (s₀ : State) : Outcome :=
  s₀.actHub (fun d => d.ptpRx port event frame)

/-- PTP_TX_DESCRIPTOR (R178). -/
def execPtpTxDescriptor (port : Nat) (s₀ : State) : Outcome := s₀.actHub (fun d => d.ptpTx port)

/-- DATAGRAM_RX (R308). -/
def execDatagramRx (port ip udp destIp destUdp : Nat) (sumOk : Bool) (data : List Byte) (s₀ : State) : Outcome :=
  s₀.act (fun d => d.datagram port ip udp destIp destUdp sumOk data)

/-- INFO (R311). -/
def execInfo (port : Nat) (s₀ : State) : Outcome := s₀.act (fun d => d.ethInfo port)

/-- REG_READ (R311). -/
def execRegRead (port : Nat) (s₀ : State) : Outcome := s₀.actHub (fun d => d.ethRegRead port)

/-- REG_WRITE (R312). -/
def execRegWrite (port : Nat) (s₀ : State) : Outcome := s₀.actHub (fun d => d.ethRegWrite port)

/-- MEM_READ (R311). -/
def execMemRead (port : Nat) (s₀ : State) : Outcome := s₀.actHub (fun d => d.ethMemRead port)

/-- MEM_WRITE (R311). -/
def execMemWrite (port : Nat) (s₀ : State) : Outcome := s₀.actHub (fun d => d.ethMemWrite port)

/-- LOG_READ (R311). -/
def execLogRead (port : Nat) (s₀ : State) : Outcome := s₀.actHub (fun d => d.ethLogRead port)

/-- SUBSCRIBE (R314). -/
def execSubscribe (port : Nat) (s₀ : State) : Outcome := s₀.act (fun d => d.ethSubscribe port)

/-- MGT_READ (R317). -/
def execMgtRead (f : MgtFrame) (addr n : Nat) (s₀ : State) : Outcome :=
  s₀.actPin (fun d => d.mgRequest f (fun d via => d.mgRead via addr n))

/-- MGT_WRITE (R317). -/
def execMgtWrite (f : MgtFrame) (addr : Nat) (ws : List Word) (s₀ : State) : Outcome :=
  s₀.actPin (fun d => d.mgRequest f (fun d via => d.mgWrite via addr ws))

/-- MGT_STATUS (R318). -/
def execMgtStatus (q : MgtStatusReq) (s₀ : State) : Outcome :=
  s₀.actPin (fun d => d.mgRequest q.frame (fun d via => d.mgStatus via q.n q.addr))

/-- UNLOCK_SET (R319). -/
def execUnlockSet (jtag : Bool) (timeout : Nat) (s₀ : State) : Outcome := s₀.actHub (fun d => d.unlockSet jtag timeout)

/-- UNLOCK_TIMEOUT (R319). -/
def execUnlockTimeout (s₀ : State) : Outcome := s₀.act (fun d => d.unlockTimeout)

/-- ETH_LINK_STATE_CHANGE (R306). -/
def execEthLinkStateChange (port : Nat) (up : Bool) (fec : Nat) (s₀ : State) : Outcome :=
  s₀.act (fun d => d.ethLink port up fec)

/-- ETHERNET_FRAME_RX (R306). -/
def execEthernetFrameRx (port : Nat) (f : EthFrame) (s₀ : State) : Outcome := s₀.act (fun d => d.ethFrame port f)

/-- JTAG_ACCESS (R320). -/
def execJtagAccess (op addr n : Nat) (ws : List Word) (s₀ : State) : Outcome :=
  s₀.actPin (fun d => d.jtagRequest op addr n ws)

end Sys2Proof.Machine
end

