-- ==== Sys2Proof/Machine/CmdPower.lean ====
section
/-!
DEFINITION. The meanings of the commands of power states, watch unit, trace (15).
-/

namespace Sys2Proof.Machine

/-- DEV_LOW_REQUEST (R453). -/
def execDevLowRequest (mid : Nat) (s₀ : State) : Outcome := s₀.actHub (fun d => d.regCommand mid R.PWR_DEV_REQ 1)

/-- LOW_ENTRY_DONE (R453). -/
def execLowEntryDone (s₀ : State) : Outcome := s₀.act (fun d => d.lowDone)

/-- DEV_RUN_REQUEST (R454). -/
def execDevRunRequest (mid : Nat) (s₀ : State) : Outcome := s₀.actHub (fun d => d.regCommand mid R.PWR_DEV_REQ 0)

/-- LOW_EXIT_DONE (R454). -/
def execLowExitDone (s₀ : State) : Outcome := s₀.act (fun d => d.runDone)

/-- DEV_OFF_REQUEST (R455). -/
def execDevOffRequest (mid : Nat) (s₀ : State) : Outcome := s₀.actHub (fun d => d.regCommand mid R.PWR_DEV_REQ 2)

/-- PANEL_SLEEP_REQUEST (R449). -/
def execPanelSleepRequest (mid : Nat) (s₀ : State) : Outcome := s₀.actHub (fun d => d.regCommand mid R.PWR_PANEL_REQ 2)

/-- PANEL_OFF_REQUEST (R449). -/
def execPanelOffRequest (mid : Nat) (s₀ : State) : Outcome := s₀.actHub (fun d => d.regCommand mid R.PWR_PANEL_REQ 3)

/-- PANEL_ACTIVE_REQUEST (R449). -/
def execPanelActiveRequest (mid : Nat) (idle : Bool) (s₀ : State) : Outcome :=
  s₀.actHub (fun d => d.regCommand mid R.PWR_PANEL_REQ (if idle then 1 else 0))

/-- PANEL_SLEEP_ENTERED (R451). -/
def execPanelSleepEntered (panel : Nat) (s₀ : State) : Outcome := s₀.actHub (fun d => d.panelSlept panel)

/-- PANEL_WAKE_DONE (R451). -/
def execPanelWakeDone (panel : Nat) (cacheBad : Bool) (s₀ : State) : Outcome := s₀.actHub (fun d => d.panelWoke panel cacheBad)

/-- PANEL_WAKE_TIMEOUT (R449). -/
def execPanelWakeTimeout (panel : Nat) (s₀ : State) : Outcome := s₀.act (fun d => d.panelWakeTimeout panel)

/-- ADAPT_TICK (R456). -/
def execAdaptTick (panel tp : Nat) (s₀ : State) : Outcome := s₀.act (fun d => d.adaptTick panel tp)

/-- WATCH_SAMPLE (R459). -/
def execWatchSample (xs : List Nat) (s₀ : State) : Outcome := s₀.actAon (fun d => d.watchSample xs)

/-- UNPARK (R461). -/
def execUnpark (mid : Nat) (s₀ : State) : Outcome := s₀.actHub (fun d => d.regCommand mid R.WCH_CMD 1)

/-- WCH_RULE_HI_WRITE (R461). -/
def execWchRuleHiWrite (mid : Nat) (v : Word) (s₀ : State) : Outcome := s₀.actHub (fun d => d.regCommand mid R.WCH_RULE_HI v)

/-- TRACE_PACKET (R465). -/
def execTracePacket (s₀ : State) : Outcome := s₀.act (fun d => d.traceIn)

/-- TRACE_SINK_WRITE (R467). -/
def execTraceSinkWrite (cs : List Nat) (s₀ : State) : Outcome := s₀.actHub (fun d => d.traceSink cs)

end Sys2Proof.Machine
end

