-- ==== Sys2Proof/Machine/CmdReliab.lean ====
section
/-!
DEFINITION. The meanings of the commands of error correction, self-test, repair, log (14).
-/

namespace Sys2Proof.Machine

/-- REPAIR_APPLY (R428). -/
def execRepairApply (s₀ : State) : Outcome := s₀.act (fun d => d.repairApply)

/-- STARTUP_BIST_COMPLETE (R422). -/
def execStartupBistComplete (found : List Word) (s₀ : State) : Outcome := s₀.act (fun d => d.startupBist found)

/-- HBM_REFRESH (R405). -/
def execHbmRefresh (stack : Nat) (hot : Bool) (parityErrors : Nat) (s₀ : State) : Outcome :=
  s₀.act (fun d => d.hbmRefresh stack hot parityErrors)

/-- HBM_SCRUB_READ (R406). -/
def execHbmScrubRead (addr : Nat) (u : Upset) (last : Bool) (s₀ : State) : Outcome := s₀.act (fun d => d.scrubHbm addr u last)

/-- ECC_SCRUB_READ (R418). -/
def execEccScrubRead (w : ScrubWord) (u : Upset) (s₀ : State) : Outcome := s₀.act (fun d => d.scrubWord w u)

/-- INJECT (R420). -/
def execInject (mid : Nat) (s₀ : State) : Outcome := s₀.actHub (fun d => d.regCommand mid R.ECC_INJ_CMD 1)

/-- RUN (R425). -/
def execRun (mid targets : Nat) (s₀ : State) : Outcome :=
  s₀.actHub (fun d => d.regCommand mid R.BST_CMD (w32 (1 + 256 * targets)))

/-- BIST_ABORT (R425). -/
def execBistAbort (s₀ : State) : Outcome := s₀.actHub (fun d => d.bistAbort)

/-- BIST_RUN_COMPLETE (R425). -/
def execBistRunComplete (found : List Word) (s₀ : State) : Outcome := s₀.act (fun d => d.bistDone found)

/-- BURN_DATA (R429). -/
def execBurnData (mid : Nat) (s₀ : State) : Outcome := s₀.actHub (fun d => d.regCommand mid R.FUS_CMD 1)

/-- BURN_VALID (R429). -/
def execBurnValid (mid : Nat) (s₀ : State) : Outcome := s₀.actHub (fun d => d.regCommand mid R.FUS_CMD 2)

/-- SHADOW_APPEND (R430). -/
def execShadowAppend (mid : Nat) (s₀ : State) : Outcome := s₀.actHub (fun d => d.regCommand mid R.FUS_CMD 3)

/-- SHADOW_ERASE (R430). -/
def execShadowErase (mid : Nat) (s₀ : State) : Outcome := s₀.actHub (fun d => d.regCommand mid R.FUS_CMD 4)

/-- FUSE_READ (R446). -/
def execFuseRead (mid : Nat) (s₀ : State) : Outcome := s₀.actHub (fun d => d.regCommand mid R.FUS_CMD 5)

/-- FUSE_CMD_COMPLETE (R429). -/
def execFuseCmdComplete (verified : Bool) (s₀ : State) : Outcome := s₀.act (fun d => d.fuseEnd verified)

/-- REPAIR_RECORD (R431). -/
def execRepairRecord (verified : Bool) (s₀ : State) : Outcome := s₀.act (fun d => d.repairRecord verified)

/-- ROLL_PRELOAD_DONE (R432). -/
def execRollPreloadDone (pgb : Nat) (s₀ : State) : Outcome := s₀.actHub (fun d => d.rollPreload pgb)

/-- ROLL_SWAP_DONE (R432). -/
def execRollSwapDone (pgb : Nat) (s₀ : State) : Outcome := s₀.act (fun d => d.rollSwap pgb)

/-- ROLL_SLOT_TEST_DONE (R432). -/
def execRollSlotTestDone (pgb : Nat) (found : List Word) (s₀ : State) : Outcome := s₀.act (fun d => d.rollTested pgb found)

/-- TMT_REGION_TEST (R435). -/
def execTmtRegionTest (cls addr : Nat) (faulty : Bool) (s₀ : State) : Outcome := s₀.act (fun d => d.tmtTest cls addr faulty)

/-- REPLACE_END (R436). -/
def execReplaceEnd (hits : List Hit) (s₀ : State) : Outcome := s₀.actHub (fun d => d.replaceDone hits)

/-- LOG_ENTRY_WRITE (R439). -/
def execLogEntryWrite (s₀ : State) : Outcome := s₀.actAon (fun d => d.logStep)

/-- LOG_CLEAR (R440). -/
def execLogClear (mid : Nat) (s₀ : State) : Outcome := s₀.act (fun d => d.regCommand mid R.LOG_CTL (d.reg R.LOG_CTL ||| 2))

end Sys2Proof.Machine
end

