-- ==== Sys2Proof/Machine/CmdShuttle.lean ====
section
/-!
DEFINITION. The meanings of the commands of shuttle instructions and the work scheduler (12).
-/

namespace Sys2Proof.Machine

/-- SUM (R356). -/
def execSum (s : Nat) (s₀ : State) : Outcome :=
  s₀.act (fun d => d.shRun s (fun o => match o with
    | .sum rd ra rb => some (fun d => d.shAlu s rd ra rb (· + ·))
    | _ => none))

/-- DIF (R356). -/
def execDif (s : Nat) (s₀ : State) : Outcome :=
  s₀.act (fun d => d.shRun s (fun o => match o with
    | .dif rd ra rb => some (fun d => d.shAlu s rd ra rb (· - ·))
    | _ => none))

/-- CONJ (R356). -/
def execConj (s : Nat) (s₀ : State) : Outcome :=
  s₀.act (fun d => d.shRun s (fun o => match o with
    | .conj rd ra rb => some (fun d => d.shAlu s rd ra rb (· &&& ·))
    | _ => none))

/-- DISJ (R356). -/
def execDisj (s : Nat) (s₀ : State) : Outcome :=
  s₀.act (fun d => d.shRun s (fun o => match o with
    | .disj rd ra rb => some (fun d => d.shAlu s rd ra rb (· ||| ·))
    | _ => none))

/-- EXCL (R356). -/
def execExcl (s : Nat) (s₀ : State) : Outcome :=
  s₀.act (fun d => d.shRun s (fun o => match o with
    | .excl rd ra rb => some (fun d => d.shAlu s rd ra rb (· ^^^ ·))
    | _ => none))

/-- SHL (R356). -/
def execShl (s : Nat) (s₀ : State) : Outcome :=
  s₀.act (fun d => d.shRun s (fun o => match o with
    | .shl rd ra rb => some (fun d => d.shAlu s rd ra rb (fun a b => a <<< (b.toNat % 64)))
    | _ => none))

/-- SHR (R356). -/
def execShr (s : Nat) (s₀ : State) : Outcome :=
  s₀.act (fun d => d.shRun s (fun o => match o with
    | .shr rd ra rb => some (fun d => d.shAlu s rd ra rb (fun a b => a >>> (b.toNat % 64)))
    | _ => none))

/-- SHA (R356). -/
def execSha (s : Nat) (s₀ : State) : Outcome :=
  s₀.act (fun d => d.shRun s (fun o => match o with
    | .sha rd ra rb => some (fun d => d.shAlu s rd ra rb (fun a b => a.sshiftRight (b.toNat % 64)))
    | _ => none))

/-- LESS (R356). -/
def execLess (s : Nat) (s₀ : State) : Outcome :=
  s₀.act (fun d => d.shRun s (fun o => match o with
    | .less rd ra rb => some (fun d => d.shAlu s rd ra rb (fun a b => bool64 (a.slt b)))
    | _ => none))

/-- LESSU (R356). -/
def execLessu (s : Nat) (s₀ : State) : Outcome :=
  s₀.act (fun d => d.shRun s (fun o => match o with
    | .lessu rd ra rb => some (fun d => d.shAlu s rd ra rb (fun a b => bool64 (a.ult b)))
    | _ => none))

/-- PROD (R356). -/
def execProd (s : Nat) (s₀ : State) : Outcome :=
  s₀.act (fun d => d.shRun s (fun o => match o with
    | .prod rd ra rb => some (fun d => d.shAlu s rd ra rb (· * ·))
    | _ => none))

/-- PRODHS (R356). -/
def execProdhs (s : Nat) (s₀ : State) : Outcome :=
  s₀.act (fun d => d.shRun s (fun o => match o with
    | .prodhs rd ra rb => some (fun d => d.shAlu s rd ra rb (fun a b => BitVec.ofInt 64 (a.toInt * b.toInt / 2 ^ 64)))
    | _ => none))

/-- PRODHU (R356). -/
def execProdhu (s : Nat) (s₀ : State) : Outcome :=
  s₀.act (fun d => d.shRun s (fun o => match o with
    | .prodhu rd ra rb => some (fun d => d.shAlu s rd ra rb (fun a b => BitVec.ofNat 64 (a.toNat * b.toNat / 2 ^ 64)))
    | _ => none))

/-- SUMK (R356). -/
def execSumk (s : Nat) (s₀ : State) : Outcome :=
  s₀.act (fun d => d.shRun s (fun o => match o with
    | .sumk rd ra k => some (fun d => d.shAluK s rd ra (sext 17 k) (· + ·))
    | _ => none))

/-- CONJK (R356). -/
def execConjk (s : Nat) (s₀ : State) : Outcome :=
  s₀.act (fun d => d.shRun s (fun o => match o with
    | .conjk rd ra k => some (fun d => d.shAluK s rd ra (BitVec.ofNat 64 k) (· &&& ·))
    | _ => none))

/-- DISJK (R356). -/
def execDisjk (s : Nat) (s₀ : State) : Outcome :=
  s₀.act (fun d => d.shRun s (fun o => match o with
    | .disjk rd ra k => some (fun d => d.shAluK s rd ra (BitVec.ofNat 64 k) (· ||| ·))
    | _ => none))

/-- EXCLK (R356). -/
def execExclk (s : Nat) (s₀ : State) : Outcome :=
  s₀.act (fun d => d.shRun s (fun o => match o with
    | .exclk rd ra k => some (fun d => d.shAluK s rd ra (BitVec.ofNat 64 k) (· ^^^ ·))
    | _ => none))

/-- LESSK (R356). -/
def execLessk (s : Nat) (s₀ : State) : Outcome :=
  s₀.act (fun d => d.shRun s (fun o => match o with
    | .lessk rd ra k => some (fun d => d.shAluK s rd ra (sext 17 k) (fun a b => bool64 (a.slt b)))
    | _ => none))

/-- TOPK (R356). -/
def execTopk (s : Nat) (s₀ : State) : Outcome :=
  s₀.act (fun d => d.shRun s (fun o => match o with
    | .topk rd k => some (fun d => d.shPut s rd (sext 17 k <<< 17))
    | _ => none))

/-- GET (R356). -/
def execGet (s : Nat) (s₀ : State) : Outcome :=
  s₀.act (fun d => d.shRun s (fun o => match o with
    | .get rt ra sz disp => some (fun d => d.shGet s rt ra sz disp)
    | _ => none))

/-- STO (R356). -/
def execSto (s : Nat) (s₀ : State) : Outcome :=
  s₀.act (fun d => d.shRun s (fun o => match o with
    | .sto rt ra sz disp => some (fun d => d.shSto s rt ra sz disp)
    | _ => none))

/-- IF_EQ (R356). -/
def execIfeq (s : Nat) (s₀ : State) : Outcome :=
  s₀.act (fun d => d.shRun s (fun o => match o with
    | .ifeq ra rb w => some (fun d => d.shIf s ra rb w (fun a b => a == b))
    | _ => none))

/-- IF_NE (R356). -/
def execIfne (s : Nat) (s₀ : State) : Outcome :=
  s₀.act (fun d => d.shRun s (fun o => match o with
    | .ifne ra rb w => some (fun d => d.shIf s ra rb w (fun a b => a != b))
    | _ => none))

/-- IF_LT (R356). -/
def execIflt (s : Nat) (s₀ : State) : Outcome :=
  s₀.act (fun d => d.shRun s (fun o => match o with
    | .iflt ra rb w => some (fun d => d.shIf s ra rb w (fun a b => a.slt b))
    | _ => none))

/-- IF_GE (R356). -/
def execIfge (s : Nat) (s₀ : State) : Outcome :=
  s₀.act (fun d => d.shRun s (fun o => match o with
    | .ifge ra rb w => some (fun d => d.shIf s ra rb w (fun a b => !a.slt b))
    | _ => none))

/-- IF_LO (R356). -/
def execIflo (s : Nat) (s₀ : State) : Outcome :=
  s₀.act (fun d => d.shRun s (fun o => match o with
    | .iflo ra rb w => some (fun d => d.shIf s ra rb w (fun a b => a.ult b))
    | _ => none))

/-- IF_HS (R356). -/
def execIfhs (s : Nat) (s₀ : State) : Outcome :=
  s₀.act (fun d => d.shRun s (fun o => match o with
    | .ifhs ra rb w => some (fun d => d.shIf s ra rb w (fun a b => !a.ult b))
    | _ => none))

/-- LEAP (R356). -/
def execLeap (s : Nat) (s₀ : State) : Outcome :=
  s₀.act (fun d => d.shRun s (fun o => match o with
    | .leap rd w => some (fun d => d.shJump s rd ((d.sh s).pc + sext 24 (4 * w)))
    | _ => none))

/-- VIA (R356). -/
def execVia (s : Nat) (s₀ : State) : Outcome :=
  s₀.act (fun d => d.shRun s (fun o => match o with
    | .via rd ra k => some (fun d => d.shJump s rd (((d.sh s).reg ra + sext 17 k) &&& ~~~3#64))
    | _ => none))

/-- MACD (R359). -/
def execMacd (s : Nat) (s₀ : State) : Outcome :=
  s₀.act (fun d => d.shRun s (fun o => match o with
    | .macd sat acc xo yo xp yp => some (fun d => d.shMac s false sat acc xo yo xp yp)
    | _ => none))

/-- MACP (R359). -/
def execMacp (s : Nat) (s₀ : State) : Outcome :=
  s₀.act (fun d => d.shRun s (fun o => match o with
    | .macp sat acc xo yo xp yp => some (fun d => d.shMac s true sat acc xo yo xp yp)
    | _ => none))

/-- EXT (R360). -/
def execExt (s : Nat) (s₀ : State) : Outcome :=
  s₀.act (fun d => d.shRun s (fun o => match o with
    | .ext rd sat w acc shift => some (fun d => d.shPut s rd (extValue ((d.sh s).accInt acc) sat w shift))
    | _ => none))

/-- CLRA (R356). -/
def execClra (s : Nat) (s₀ : State) : Outcome :=
  s₀.act (fun d => d.shRun s (fun o => match o with
    | .clra acc => some (fun d => (d.onSh s (fun x => { x with acc := SMap.put 0 x.acc acc 0 }), d.pc4 s))
    | _ => none))

/-- MVA (R356). -/
def execMva (s : Nat) (s₀ : State) : Outcome :=
  s₀.act (fun d => d.shRun s (fun o => match o with
    | .mva rd acc => some (fun d => d.shPut s rd ((SMap.get 0 (d.sh s).acc acc).signExtend 64))
    | _ => none))

/-- MVTA (R356). -/
def execMvta (s : Nat) (s₀ : State) : Outcome :=
  s₀.act (fun d => d.shRun s (fun o => match o with
    | .mvta acc ra => some (fun d => (d.onSh s (fun x => { x with acc := SMap.put 0 x.acc acc ((x.reg ra).setWidth 40) }), d.pc4 s))
    | _ => none))

/-- LDO (R356). -/
def execLdo (s : Nat) (s₀ : State) : Outcome :=
  s₀.act (fun d => d.shRun s (fun o => match o with
    | .ldo o ra => some (fun d => (d.onSh s (fun x => { x with ofs := SMap.put 0 x.ofs o ((x.reg ra).setWidth 18) }), d.pc4 s))
    | _ => none))

/-- RDCW (R358). -/
def execRdcw (s : Nat) (s₀ : State) : Outcome :=
  s₀.act (fun d => d.shRun s (fun o => match o with
    | .rdcw rd cw => some (fun d => d.shRdcw s rd cw)
    | _ => none))

/-- WRCW (R358). -/
def execWrcw (s : Nat) (s₀ : State) : Outcome :=
  s₀.act (fun d => d.shRun s (fun o => match o with
    | .wrcw ra cw => some (fun d => d.shWrcw s ra cw)
    | _ => none))

/-- FENCE (R361). -/
def execFence (s : Nat) (s₀ : State) : Outcome :=
  s₀.act (fun d => d.shRun s (fun o => match o with
    | .fence => some (fun d => Dev.shAfter (d.shFence s) s)
    | _ => none))

/-- CLEAN (R361). -/
def execClean (s : Nat) (s₀ : State) : Outcome :=
  s₀.act (fun d => d.shRun s (fun o => match o with
    | .clean ra rb => some (fun d => Dev.shAfter (d.shClean s ra rb) s)
    | _ => none))

/-- INVAL (R361). -/
def execInval (s : Nat) (s₀ : State) : Outcome :=
  s₀.act (fun d => d.shRun s (fun o => match o with
    | .inval ra rb => some (fun d => Dev.shAfter (d.shInval s ra rb) s)
    | _ => none))

/-- IINV (R361). -/
def execIinv (s : Nat) (s₀ : State) : Outcome :=
  s₀.act (fun d => d.shRun s (fun o => match o with
    | .iinv ra rb => some (fun d => (d.shIinv s ra rb, d.pc4 s))
    | _ => none))

/-- POST (R371). -/
def execPost (s : Nat) (s₀ : State) : Outcome :=
  s₀.act (fun d => d.shRun s (fun o => match o with
    | .post rd ra => some (fun d => d.shPost s rd ra)
    | _ => none))

/-- DONE (R373). -/
def execDone (s : Nat) (s₀ : State) : Outcome :=
  s₀.act (fun d => d.shRun s (fun o => match o with
    | .done => some (fun d => (d, .done))
    | _ => none))

/-- WAIT (R361). -/
def execWait (s : Nat) (s₀ : State) : Outcome :=
  s₀.act (fun d => d.shRun s (fun o => match o with
    | .wait ra => some (fun d => d.shWait s ra)
    | _ => none))

/-- TRAP (R362). -/
def execTrap (s : Nat) (s₀ : State) : Outcome :=
  s₀.act (fun d => d.shRun s (fun o => match o with
    | .trap rb => some (fun d => (d, .trap (cTRAP, BitVec.ofNat 64 rb)))
    | _ => none))

/-- UNTRAP (R362). -/
def execUntrap (s : Nat) (s₀ : State) : Outcome :=
  s₀.act (fun d => d.shRun s (fun o => match o with
    | .untrap => some (fun d => d.shUntrap s)
    | _ => none))

/-- WAIT_WAKE (R361). -/
def execWaitWake (s : Nat) (s₀ : State) : Outcome := s₀.act (fun d => d.waitWake s)

/-- ITEM_DISPATCH (R372). -/
def execItemDispatch (s₀ : State) : Outcome := s₀.act (fun d => d.itemDispatch)

/-- AFFINITY_AGE_EXPIRY (R372). -/
def execAffinityAgeExpiry (level : Nat) (s₀ : State) : Outcome := s₀.act (fun d => d.ageExpiry level)

/-- RUN_LIMIT (R371). -/
def execRunLimit (s : Nat) (s₀ : State) : Outcome := s₀.act (fun d => d.runLimit s)

/-- TRIGGER_FIRING (R374). -/
def execTriggerFiring (s₀ : State) : Outcome := s₀.act (fun d => d.triggerFiring)

/-- HELD_POST (R373). -/
def execHeldPost (s₀ : State) : Outcome := s₀.act (fun d => d.heldPost)

/-- WSC_CANCEL (R375). -/
def execWscCancel (cls : Nat) (s₀ : State) : Outcome := s₀.actHub (fun d => d.wscCancel cls)

/-- WSC_POST (R371). -/
def execWscPost (mid : Nat) (s₀ : State) : Outcome := s₀.actHub (fun d => d.wscPost true (d.who mid).owner mid)

/-- WSC_POST_DATA_WRITE (R379). -/
def execWscPostDataWrite (w : Word) (s₀ : State) : Outcome := s₀.actHub (fun d => d.wscPostData w)

/-- ILLEGAL_INSTRUCTION (R355). -/
def execIllegalInstruction (s : Nat) (s₀ : State) : Outcome := s₀.act (fun d => d.shIllegal s)

end Sys2Proof.Machine
end

