-- ==== Sys2Proof/Machine/CmdStart.lean ====
section
/-!
DEFINITION. The meanings of the commands of supplies, clocks, resets and start-up (01, 08, 17).
-/

namespace Sys2Proof.Machine

/-- VDD_AON_UP (R437). -/
def execVddAonUp (s₀ : State) : Outcome := s₀.actPin (fun d => d.aonRise)

/-- CRYSTAL_DETECT_END (R19). -/
def execCrystalDetectEnd (present : Bool) (s₀ : State) : Outcome := s₀.actPin (fun d => d.crystalEnd present)

/-- PLL_LOCK (R20). -/
def execPllLock (dom : Nat) (s₀ : State) : Outcome := s₀.actPin (fun d => d.pllLock dom)

/-- PLL_LOCK_TIMEOUT (R20). -/
def execPllLockTimeout (dom : Nat) (s₀ : State) : Outcome := s₀.actPin (fun d => d.pllTimeout dom)

/-- PORST_N_FALL (R9). -/
def execPorstNFall (s₀ : State) : Outcome := s₀.actPin (fun d => d.porstFall)

/-- PORST_N_RISE (R210). -/
def execPorstNRise (straps : Nat) (s₀ : State) : Outcome := s₀.actPin (fun d => d.porstRise straps)

/-- CHARTER_READ (R214). -/
def execCharterRead (s₀ : State) : Outcome := s₀.act (fun d => d.charterRead)

/-- HBM_TRAINED (R210). -/
def execHbmTrained (failed : Nat) (s₀ : State) : Outcome := s₀.act (fun d => d.hbmTrained failed)

/-- WRST_N_FALL (R211). -/
def execWrstNFall (test : Option (Nat × Nat)) (s₀ : State) : Outcome := s₀.actPin (fun d => d.wrstFall test)

/-- WRST_N_RISE (R211). -/
def execWrstNRise (s₀ : State) : Outcome := s₀.actPin (fun d => d.wrstRise)

/-- VDD_AON_DOWN (R437). -/
def execVddAonDown (s₀ : State) : Outcome := s₀.actPin (fun d => d.aonFall)

end Sys2Proof.Machine
end

