-- ==== Sys2Proof/Machine/CmdTreadle.lean ====
section
/-!
DEFINITION. The meanings of the commands of the treadle, the time base and the weave (06).
-/

namespace Sys2Proof.Machine

/-- START (R171). -/
def execStart (timed : Bool) (s₀ : State) : Outcome := s₀.actHub (fun d => d.start timed)

/-- STOP (R171). -/
def execStop (s₀ : State) : Outcome := s₀.actHub (fun d => d.stop)

/-- CANCEL (R171). -/
def execCancel (s₀ : State) : Outcome := s₀.actHub (fun d => d.cancel)

/-- HALT_N_LOW (R172). -/
def execHaltNLow (s₀ : State) : Outcome := s₀.actPin (fun d => d.haltFall)

/-- SLOT_START (R160). -/
def execSlotStart (s₀ : State) : Outcome := s₀.act (fun d => d.slotStart)

/-- PIN_RESPONSE_TIMEOUT (R168). -/
def execPinResponseTimeout (s₀ : State) : Outcome := s₀.act (fun d => d.pinTimeout)

/-- TIMED_LAUNCH (R175). -/
def execTimedLaunch (e : Option Nat) (s₀ : State) : Outcome := s₀.act (fun d => d.timedLaunch e)

/-- PTP_OFFSET_SAMPLE (R179). -/
def execPtpOffsetSample (e : Word) (s₀ : State) : Outcome := s₀.act (fun d => d.offsetSample e)

/-- TSYNC_INPUT_EDGE (R176). -/
def execTsyncInputEdge (s₀ : State) : Outcome := s₀.act (fun d => d.tsyncIn)

/-- TSYNC_OUTPUT_EDGE (R181). -/
def execTsyncOutputEdge (s₀ : State) : Outcome := s₀.act (fun d => d.tsyncOut)

/-- JUMP_ACCEPT (R182). -/
def execJumpAccept (s₀ : State) : Outcome := s₀.actHub (fun d => d.jumpAccept)

/-- JUMP_CLEAR (R182). -/
def execJumpClear (s₀ : State) : Outcome := s₀.actHub (fun d => d.jumpClear)

/-- HOLDOVER_TIMEOUT (R180). -/
def execHoldoverTimeout (s₀ : State) : Outcome := s₀.act (fun d => d.holdover)

/-- TXTS_POP (R195). -/
def execTxtsPop (port : Nat) (s₀ : State) : Outcome := s₀.actHub (fun d => d.txtsPop port)

/-- QUERY (R302). -/
def execQuery (src tag item : Nat) (s₀ : State) : Outcome := s₀.act (fun d => d.query src tag item)

/-- PEER_START (R302). -/
def execPeerStart (src tag : Nat) (timed : Bool) (t : Word) (s₀ : State) : Outcome :=
  s₀.act (fun d => d.peerStart src tag timed t)

/-- REFUSE (R302). -/
def execRefuse (reason : Nat) (s₀ : State) : Outcome := s₀.act (fun d => d.refuse reason)

/-- HALT_NOTE (R187). -/
def execHaltNote (s₀ : State) : Outcome := s₀.act (fun d => d.haltNote)

/-- SOLO (R188). -/
def execSolo (beat : Nat) (s₀ : State) : Outcome := s₀.act (fun d => d.solo beat)

/-- PEER_REPLY (R479). -/
def execPeerReply (src cmd tag args : Nat) (s₀ : State) : Outcome := s₀.act (fun d => d.peerAnswer src cmd tag args)

/-- HALT_N_HIGH (R172). -/
def execHaltNHigh (s₀ : State) : Outcome := s₀.actPin (fun d => d.haltRise)

end Sys2Proof.Machine
end

