-- ==== Sys2Proof/Machine/CmdWarp.lean ====
section
/-!
DEFINITION. The meanings of the commands of warp lanes and messages (09).
-/

namespace Sys2Proof.Machine

/-- BLOCK_LOCK_GAINED (R252). -/
def execBlockLockGained (ph : Nat) (s₀ : State) : Outcome := s₀.act (fun d => d.lockGained ph)

/-- BLOCK_LOCK_LOST (R252). -/
def execBlockLockLost (ph : Nat) (s₀ : State) : Outcome := s₀.act (fun d => d.lockLostRx ph)

/-- IDLE_BLOCK_RX (R253). -/
def execIdleBlockRx (ph ack status : Nat) (nak rxReady : Bool) (s₀ : State) : Outcome :=
  s₀.act (fun d => d.idleRx ph ack status nak rxReady)

/-- TRAIN_BLOCK_RX (R255). -/
def execTrainBlockRx (ph : Nat) (t : Train) (lane : Nat) (eye : Bool) (ask : Nat) (s₀ : State) : Outcome :=
  s₀.act (fun d => d.trainBlock ph t lane eye ask)

/-- PWR_BLOCK_RX (R253). -/
def execPwrBlockRx (ph code : Nat) (s₀ : State) : Outcome := s₀.act (fun d => d.pwrBlock ph code)

/-- LOOP_BLOCK_RX (R281). -/
def execLoopBlockRx (lane : Nat) (enter : Bool) (s₀ : State) : Outcome := s₀.act (fun d => d.loopBlock lane enter)

/-- RESERVED_CTYPE_RX (R253). -/
def execReservedCtypeRx (lane : Nat) (s₀ : State) : Outcome := s₀.act (fun d => d.reservedBlock lane)

/-- LANE_TRAINING_TIMEOUT (R257). -/
def execLaneTrainingTimeout (ph : Nat) (s₀ : State) : Outcome := s₀.act (fun d => d.trainingTimeout ph)

/-- TRAINING_RETRY_TIMER (R257). -/
def execTrainingRetryTimer (ph : Nat) (s₀ : State) : Outcome := s₀.act (fun d => d.trainingRetryRx ph)

/-- FAST_RETRAIN_TIMEOUT (R258). -/
def execFastRetrainTimeout (ph : Nat) (s₀ : State) : Outcome := s₀.act (fun d => d.retrainTimeout ph)

/-- RESP_RX (R274). -/
def execRespRx (lane seq ack status beat bm1 ns : Nat) (nak : Bool) (compare : Nat) (samples : List Word) (s₀ : State) : Outcome :=
  s₀.act (fun d => d.respIn lane seq ack status beat bm1 ns nak compare samples)

/-- MSG_RX (R284). -/
def execMsgRx (lane seq ack status : Nat) (nak : Bool) (ws : List Word) (s₀ : State) : Outcome :=
  s₀.act (fun d => d.msgRx lane seq ack status nak ws)

/-- FRAME_CRC_FAIL (R267). -/
def execFrameCrcFail (ph : Nat) (isFrame badCrc : Bool) (s₀ : State) : Outcome := s₀.act (fun d => d.crcRx ph isFrame badCrc)

/-- RESEND_TIMEOUT (R269). -/
def execResendTimeout (lane : Nat) (s₀ : State) : Outcome := s₀.act (fun d => d.resend lane)

/-- HOLD_FRAME_PERIOD (R272). -/
def execHoldFramePeriod (s₀ : State) : Outcome := s₀.act (fun d => d.holdPeriod)

/-- LANE_POWER_REQUEST (R283). -/
def execLanePowerRequest (lane req : Nat) (s₀ : State) : Outcome := s₀.actHub (fun d => d.lanePower lane req)

/-- LOOPBACK_REQUEST (R281). -/
def execLoopbackRequest (lane mode : Nat) (prbs : Bool) (s₀ : State) : Outcome := s₀.actHub (fun d => d.loopback lane mode prbs)

/-- SEND (R284). -/
def execSend (lane len : Nat) (timed : Bool) (s₀ : State) : Outcome := s₀.actHub (fun d => d.msgSend lane len timed)

/-- MSG_ABORT (R284). -/
def execMsgAbort (s₀ : State) : Outcome := s₀.actHub (fun d => d.msgAbort)

/-- MSG_DATA_WRITE (R284). -/
def execMsgDataWrite (w : Word) (s₀ : State) : Outcome := s₀.actHub (fun d => d.msgData w)

/-- POP (R290). -/
def execPop (s₀ : State) : Outcome := s₀.actHub (fun d => d.msgPop)

/-- RXMSG_DATA_READ (R290). -/
def execRxmsgDataRead (s₀ : State) : Outcome := s₀.actHub (fun d => d.rxData.1)

end Sys2Proof.Machine
end

