-- ==== Sys2Proof/Machine/CmdWeft.lean ====
section
/-!
DEFINITION. The meanings of the commands of weft links (10).
-/

namespace Sys2Proof.Machine

/-- LINK_UP (R292). -/
def execLinkUp (link : Nat) (full : Bool) (s₀ : State) : Outcome := s₀.act (fun d => d.linkUpEvent link full)

/-- LINK_DOWN (R292). -/
def execLinkDown (link : Nat) (s₀ : State) : Outcome := s₀.act (fun d => d.linkDownEvent link)

/-- ALIGN_BLOCK_RX (R292). -/
def execAlignBlockRx (link : Nat) (lost : Bool) (s₀ : State) : Outcome := s₀.act (fun d => d.alignBlock link lost)

/-- BUNDLE_FRAME_RX (R296). -/
def execBundleFrameRx (link seq ack : Nat) (nak : Bool) (beat flow0 : Nat) (vals : List Nat) (s₀ : State) : Outcome :=
  s₀.act (fun d => d.bundleRx link seq ack nak beat flow0 vals)

/-- MARK_FRAME_RX (R297). -/
def execMarkFrameRx (link seq ack : Nat) (nak barrier commitMark token : Bool) (origin beat : Nat) (tb : Word) (s₀ : State) : Outcome :=
  s₀.act (fun d => d.markRx link seq ack nak barrier commitMark token origin beat tb)

/-- PEER_FRAME_RX (R303). -/
def execPeerFrameRx (link seq ack : Nat) (nak : Bool) (src dst : Nat) (bcast : Bool) (cmd tag args : Nat) (s₀ : State) : Outcome :=
  s₀.act (fun d => d.peerRx link seq ack nak src dst bcast cmd tag args)

/-- STATUS_FRAME_RX (R300). -/
def execStatusFrameRx (link seq ack : Nat) (nak : Bool) (sys pos role size topo far : Nat) (s₀ : State) : Outcome :=
  s₀.act (fun d => d.statusRx link seq ack nak sys pos role size topo far)

/-- DONE_FRAME_RX (R301). -/
def execDoneFrameRx (link seq ack : Nat) (nak : Bool) (origin : Nat) (released : Bool) (gen : Nat) (s₀ : State) : Outcome :=
  s₀.act (fun d => d.doneRx link seq ack nak origin released gen)

/-- STATUS_SEND_TIMER (R300). -/
def execStatusSendTimer (s₀ : State) : Outcome := s₀.act (fun d => d.statusTimer)

/-- DONE_REPEAT_TIMER (R301). -/
def execDoneRepeatTimer (s₀ : State) : Outcome := s₀.act (fun d => d.doneTimer)

/-- WEFT_RESEND_TIMEOUT (R295). -/
def execWeftResendTimeout (link : Nat) (s₀ : State) : Outcome := s₀.act (fun d => d.linkResend link)

/-- LINK_LOST_TIMEOUT (R304). -/
def execLinkLostTimeout (link : Nat) (s₀ : State) : Outcome := s₀.act (fun d => d.linkLost link)

end Sys2Proof.Machine
end

