-- ==== Sys2Proof/Machine/Dispatch.lean ====
section
/-!
DEFINITION. One arm per command: each a direct call of its meaning.
-/

namespace Sys2Proof.Machine

/-- A command's effect on everything but the queue. -/
def exec (i : Instr) (s : State) : Host.Outcome State Fault Refusal :=
  match i with
  | .beatRelease => Sys2Proof.Machine.execBeatRelease s
  | .releaseReachesHeddles gpio => Sys2Proof.Machine.execReleaseReachesHeddles gpio s
  | .plainPick gb h k => Sys2Proof.Machine.execPlainPick gb h k s
  | .mrd gb h => Sys2Proof.Machine.execMrd gb h s
  | .mwr gb h => Sys2Proof.Machine.execMwr gb h s
  | .drd gb h => Sys2Proof.Machine.execDrd gb h s
  | .dwr gb h => Sys2Proof.Machine.execDwr gb h s
  | .put gb h k => Sys2Proof.Machine.execPut gb h k s
  | .edge gb h k => Sys2Proof.Machine.execEdge gb h k s
  | .fail gb h => Sys2Proof.Machine.execFail gb h s
  | .brk gb h k => Sys2Proof.Machine.execBrk gb h k s
  | .reservedEncoding gb h k => Sys2Proof.Machine.execReservedEncoding gb h k s
  | .harnessHandshakeClose gb h => Sys2Proof.Machine.execHarnessHandshakeClose gb h s
  | .windowDelivery gb h k => Sys2Proof.Machine.execWindowDelivery gb h k s
  | .beamOutLaneClose gb h j pick => Sys2Proof.Machine.execBeamOutLaneClose gb h j pick s
  | .pull gb h => Sys2Proof.Machine.execPull gb h s
  | .ringInject gb entry => Sys2Proof.Machine.execRingInject gb entry s
  | .ringHop idx => Sys2Proof.Machine.execRingHop idx s
  | .ringExtract gb entry => Sys2Proof.Machine.execRingExtract gb entry s
  | .weftGatewayHandoff idx => Sys2Proof.Machine.execWeftGatewayHandoff idx s
  | .tapFifoDrain gb => Sys2Proof.Machine.execTapFifoDrain gb s
  | .failStagingDrain gb => Sys2Proof.Machine.execFailStagingDrain gb s
  | .reedComplete => Sys2Proof.Machine.execReedComplete s
  | .commit => Sys2Proof.Machine.execCommit s
  | .faultFlag f => Sys2Proof.Machine.execFaultFlag f s
  | .attemptAbort => Sys2Proof.Machine.execAttemptAbort s
  | .fixComplete => Sys2Proof.Machine.execFixComplete s
  | .repairStepComplete => Sys2Proof.Machine.execRepairStepComplete s
  | .stallWatchdogExpiry => Sys2Proof.Machine.execStallWatchdogExpiry s
  | .journalSpill gb h => Sys2Proof.Machine.execJournalSpill gb h s
  | .spillReadback gb => Sys2Proof.Machine.execSpillReadback gb s
  | .deepJournalHandoff => Sys2Proof.Machine.execDeepJournalHandoff s
  | .lineInvalidate gb => Sys2Proof.Machine.execLineInvalidate gb s
  | .deepReadReturn gb h pick => Sys2Proof.Machine.execDeepReadReturn gb h pick s
  | .mailboxPortLServe bank deep rel => Sys2Proof.Machine.execMailboxPortLServe bank deep rel s
  | .mailboxPortSAccess mid bank word wr rel => Sys2Proof.Machine.execMailboxPortSAccess mid bank word wr rel s
  | .hbmOccIntervalEnd => Sys2Proof.Machine.execHbmOccIntervalEnd s
  | .start timed => Sys2Proof.Machine.execStart timed s
  | .stop => Sys2Proof.Machine.execStop s
  | .cancel => Sys2Proof.Machine.execCancel s
  | .haltNLow => Sys2Proof.Machine.execHaltNLow s
  | .slotStart => Sys2Proof.Machine.execSlotStart s
  | .pinResponseTimeout => Sys2Proof.Machine.execPinResponseTimeout s
  | .timedLaunch e => Sys2Proof.Machine.execTimedLaunch e s
  | .ptpOffsetSample e => Sys2Proof.Machine.execPtpOffsetSample e s
  | .tsyncInputEdge => Sys2Proof.Machine.execTsyncInputEdge s
  | .tsyncOutputEdge => Sys2Proof.Machine.execTsyncOutputEdge s
  | .jumpAccept => Sys2Proof.Machine.execJumpAccept s
  | .jumpClear => Sys2Proof.Machine.execJumpClear s
  | .holdoverTimeout => Sys2Proof.Machine.execHoldoverTimeout s
  | .ptpRxMessage port event frame => Sys2Proof.Machine.execPtpRxMessage port event frame s
  | .ptpTxDescriptor port => Sys2Proof.Machine.execPtpTxDescriptor port s
  | .txtsPop port => Sys2Proof.Machine.execTxtsPop port s
  | .query src tag item => Sys2Proof.Machine.execQuery src tag item s
  | .peerStart src tag timed t => Sys2Proof.Machine.execPeerStart src tag timed t s
  | .refuse reason => Sys2Proof.Machine.execRefuse reason s
  | .haltNote => Sys2Proof.Machine.execHaltNote s
  | .solo beat => Sys2Proof.Machine.execSolo beat s
  | .peerReply src cmd tag args => Sys2Proof.Machine.execPeerReply src cmd tag args s
  | .vddAonUp => Sys2Proof.Machine.execVddAonUp s
  | .crystalDetectEnd present => Sys2Proof.Machine.execCrystalDetectEnd present s
  | .pllLock dom => Sys2Proof.Machine.execPllLock dom s
  | .pllLockTimeout dom => Sys2Proof.Machine.execPllLockTimeout dom s
  | .porstNFall => Sys2Proof.Machine.execPorstNFall s
  | .porstNRise straps => Sys2Proof.Machine.execPorstNRise straps s
  | .charterRead => Sys2Proof.Machine.execCharterRead s
  | .repairApply => Sys2Proof.Machine.execRepairApply s
  | .startupBistComplete found => Sys2Proof.Machine.execStartupBistComplete found s
  | .hbmTrained failed => Sys2Proof.Machine.execHbmTrained failed s
  | .wrstNFall test => Sys2Proof.Machine.execWrstNFall test s
  | .wrstNRise => Sys2Proof.Machine.execWrstNRise s
  | .load slot => Sys2Proof.Machine.execLoad slot s
  | .abort => Sys2Proof.Machine.execAbort s
  | .loadEntryAttempt medium => Sys2Proof.Machine.execLoadEntryAttempt medium s
  | .emmcRetry r => Sys2Proof.Machine.execEmmcRetry r s
  | .loadComplete cacheBad => Sys2Proof.Machine.execLoadComplete cacheBad s
  | .doneSeenHigh => Sys2Proof.Machine.execDoneSeenHigh s
  | .autoStart => Sys2Proof.Machine.execAutoStart s
  | .doneTimeout => Sys2Proof.Machine.execDoneTimeout s
  | .doneFall => Sys2Proof.Machine.execDoneFall s
  | .reloadBay bay slot => Sys2Proof.Machine.execReloadBay bay slot s
  | .abortBay => Sys2Proof.Machine.execAbortBay s
  | .bayStaged medium => Sys2Proof.Machine.execBayStaged medium s
  | .bayWriteDone => Sys2Proof.Machine.execBayWriteDone s
  | .flashRead mid => Sys2Proof.Machine.execFlashRead mid s
  | .flashProgram mid => Sys2Proof.Machine.execFlashProgram mid s
  | .flashErase mid => Sys2Proof.Machine.execFlashErase mid s
  | .flashCmdComplete verified => Sys2Proof.Machine.execFlashCmdComplete verified s
  | .blockLockGained ph => Sys2Proof.Machine.execBlockLockGained ph s
  | .blockLockLost ph => Sys2Proof.Machine.execBlockLockLost ph s
  | .idleBlockRx ph ack status nak rxReady => Sys2Proof.Machine.execIdleBlockRx ph ack status nak rxReady s
  | .trainBlockRx ph t lane eye ask => Sys2Proof.Machine.execTrainBlockRx ph t lane eye ask s
  | .pwrBlockRx ph code => Sys2Proof.Machine.execPwrBlockRx ph code s
  | .loopBlockRx lane enter => Sys2Proof.Machine.execLoopBlockRx lane enter s
  | .reservedCtypeRx lane => Sys2Proof.Machine.execReservedCtypeRx lane s
  | .laneTrainingTimeout ph => Sys2Proof.Machine.execLaneTrainingTimeout ph s
  | .trainingRetryTimer ph => Sys2Proof.Machine.execTrainingRetryTimer ph s
  | .fastRetrainTimeout ph => Sys2Proof.Machine.execFastRetrainTimeout ph s
  | .respRx lane seq ack status beat bm1 ns nak compare samples => Sys2Proof.Machine.execRespRx lane seq ack status beat bm1 ns nak compare samples s
  | .msgRx lane seq ack status nak ws => Sys2Proof.Machine.execMsgRx lane seq ack status nak ws s
  | .frameCrcFail ph isFrame badCrc => Sys2Proof.Machine.execFrameCrcFail ph isFrame badCrc s
  | .resendTimeout lane => Sys2Proof.Machine.execResendTimeout lane s
  | .holdFramePeriod => Sys2Proof.Machine.execHoldFramePeriod s
  | .lanePowerRequest lane req => Sys2Proof.Machine.execLanePowerRequest lane req s
  | .loopbackRequest lane mode prbs => Sys2Proof.Machine.execLoopbackRequest lane mode prbs s
  | .send lane len timed => Sys2Proof.Machine.execSend lane len timed s
  | .msgAbort => Sys2Proof.Machine.execMsgAbort s
  | .msgDataWrite w => Sys2Proof.Machine.execMsgDataWrite w s
  | .pop => Sys2Proof.Machine.execPop s
  | .rxmsgDataRead => Sys2Proof.Machine.execRxmsgDataRead s
  | .linkUp link full => Sys2Proof.Machine.execLinkUp link full s
  | .linkDown link => Sys2Proof.Machine.execLinkDown link s
  | .alignBlockRx link lost => Sys2Proof.Machine.execAlignBlockRx link lost s
  | .bundleFrameRx link seq ack nak beat flow0 vals => Sys2Proof.Machine.execBundleFrameRx link seq ack nak beat flow0 vals s
  | .markFrameRx link seq ack nak barrier commitMark token origin beat tb => Sys2Proof.Machine.execMarkFrameRx link seq ack nak barrier commitMark token origin beat tb s
  | .peerFrameRx link seq ack nak src dst bcast cmd tag args => Sys2Proof.Machine.execPeerFrameRx link seq ack nak src dst bcast cmd tag args s
  | .statusFrameRx link seq ack nak sys pos role size topo far => Sys2Proof.Machine.execStatusFrameRx link seq ack nak sys pos role size topo far s
  | .doneFrameRx link seq ack nak origin released gen => Sys2Proof.Machine.execDoneFrameRx link seq ack nak origin released gen s
  | .statusSendTimer => Sys2Proof.Machine.execStatusSendTimer s
  | .doneRepeatTimer => Sys2Proof.Machine.execDoneRepeatTimer s
  | .weftResendTimeout link => Sys2Proof.Machine.execWeftResendTimeout link s
  | .linkLostTimeout link => Sys2Proof.Machine.execLinkLostTimeout link s
  | .datagramRx port ip udp destIp destUdp sumOk data => Sys2Proof.Machine.execDatagramRx port ip udp destIp destUdp sumOk data s
  | .info port => Sys2Proof.Machine.execInfo port s
  | .regRead port => Sys2Proof.Machine.execRegRead port s
  | .regWrite port => Sys2Proof.Machine.execRegWrite port s
  | .memRead port => Sys2Proof.Machine.execMemRead port s
  | .memWrite port => Sys2Proof.Machine.execMemWrite port s
  | .logRead port => Sys2Proof.Machine.execLogRead port s
  | .subscribe port => Sys2Proof.Machine.execSubscribe port s
  | .mgtRead f addr n => Sys2Proof.Machine.execMgtRead f addr n s
  | .mgtWrite f addr ws => Sys2Proof.Machine.execMgtWrite f addr ws s
  | .mgtStatus q => Sys2Proof.Machine.execMgtStatus q s
  | .unlockSet jtag timeout => Sys2Proof.Machine.execUnlockSet jtag timeout s
  | .unlockTimeout => Sys2Proof.Machine.execUnlockTimeout s
  | .arm u => Sys2Proof.Machine.execArm u s
  | .capStop u => Sys2Proof.Machine.execCapStop u s
  | .trigger u => Sys2Proof.Machine.execTrigger u s
  | .recordComplete u => Sys2Proof.Machine.execRecordComplete u s
  | .captureRspTimeout u => Sys2Proof.Machine.execCaptureRspTimeout u s
  | .recordWritten u => Sys2Proof.Machine.execRecordWritten u s
  | .overflowMark u => Sys2Proof.Machine.execOverflowMark u s
  | .failMapOr => Sys2Proof.Machine.execFailMapOr s
  | .clear mid => Sys2Proof.Machine.execClear mid s
  | .clearComplete map => Sys2Proof.Machine.execClearComplete map s
  | .appliedRead => Sys2Proof.Machine.execAppliedRead s
  | .beatCountRead => Sys2Proof.Machine.execBeatCountRead s
  | .sum sh => Sys2Proof.Machine.execSum sh s
  | .dif sh => Sys2Proof.Machine.execDif sh s
  | .conj sh => Sys2Proof.Machine.execConj sh s
  | .disj sh => Sys2Proof.Machine.execDisj sh s
  | .excl sh => Sys2Proof.Machine.execExcl sh s
  | .shl sh => Sys2Proof.Machine.execShl sh s
  | .shr sh => Sys2Proof.Machine.execShr sh s
  | .sha sh => Sys2Proof.Machine.execSha sh s
  | .less sh => Sys2Proof.Machine.execLess sh s
  | .lessu sh => Sys2Proof.Machine.execLessu sh s
  | .prod sh => Sys2Proof.Machine.execProd sh s
  | .prodhs sh => Sys2Proof.Machine.execProdhs sh s
  | .prodhu sh => Sys2Proof.Machine.execProdhu sh s
  | .sumk sh => Sys2Proof.Machine.execSumk sh s
  | .conjk sh => Sys2Proof.Machine.execConjk sh s
  | .disjk sh => Sys2Proof.Machine.execDisjk sh s
  | .exclk sh => Sys2Proof.Machine.execExclk sh s
  | .lessk sh => Sys2Proof.Machine.execLessk sh s
  | .topk sh => Sys2Proof.Machine.execTopk sh s
  | .get sh => Sys2Proof.Machine.execGet sh s
  | .sto sh => Sys2Proof.Machine.execSto sh s
  | .ifeq sh => Sys2Proof.Machine.execIfeq sh s
  | .ifne sh => Sys2Proof.Machine.execIfne sh s
  | .iflt sh => Sys2Proof.Machine.execIflt sh s
  | .ifge sh => Sys2Proof.Machine.execIfge sh s
  | .iflo sh => Sys2Proof.Machine.execIflo sh s
  | .ifhs sh => Sys2Proof.Machine.execIfhs sh s
  | .leap sh => Sys2Proof.Machine.execLeap sh s
  | .via sh => Sys2Proof.Machine.execVia sh s
  | .macd sh => Sys2Proof.Machine.execMacd sh s
  | .macp sh => Sys2Proof.Machine.execMacp sh s
  | .ext sh => Sys2Proof.Machine.execExt sh s
  | .clra sh => Sys2Proof.Machine.execClra sh s
  | .mva sh => Sys2Proof.Machine.execMva sh s
  | .mvta sh => Sys2Proof.Machine.execMvta sh s
  | .ldo sh => Sys2Proof.Machine.execLdo sh s
  | .rdcw sh => Sys2Proof.Machine.execRdcw sh s
  | .wrcw sh => Sys2Proof.Machine.execWrcw sh s
  | .fence sh => Sys2Proof.Machine.execFence sh s
  | .clean sh => Sys2Proof.Machine.execClean sh s
  | .inval sh => Sys2Proof.Machine.execInval sh s
  | .iinv sh => Sys2Proof.Machine.execIinv sh s
  | .post sh => Sys2Proof.Machine.execPost sh s
  | .done sh => Sys2Proof.Machine.execDone sh s
  | .wait sh => Sys2Proof.Machine.execWait sh s
  | .trap sh => Sys2Proof.Machine.execTrap sh s
  | .untrap sh => Sys2Proof.Machine.execUntrap sh s
  | .waitWake sh => Sys2Proof.Machine.execWaitWake sh s
  | .itemDispatch => Sys2Proof.Machine.execItemDispatch s
  | .affinityAgeExpiry level => Sys2Proof.Machine.execAffinityAgeExpiry level s
  | .runLimit sh => Sys2Proof.Machine.execRunLimit sh s
  | .triggerFiring => Sys2Proof.Machine.execTriggerFiring s
  | .heldPost => Sys2Proof.Machine.execHeldPost s
  | .wscCancel cls => Sys2Proof.Machine.execWscCancel cls s
  | .wscPost mid => Sys2Proof.Machine.execWscPost mid s
  | .wscPostDataWrite w => Sys2Proof.Machine.execWscPostDataWrite w s
  | .handover mid bank v => Sys2Proof.Machine.execHandover mid bank v s
  | .read q mask => Sys2Proof.Machine.execRead q mask s
  | .writeL q data => Sys2Proof.Machine.execWriteL q data s
  | .writeM q half mask data => Sys2Proof.Machine.execWriteM q half mask data s
  | .or q word bits => Sys2Proof.Machine.execOr q word bits s
  | .hubResponse ring src dst tag => Sys2Proof.Machine.execHubResponse ring src dst tag s
  | .linkParityResend ring dir node again => Sys2Proof.Machine.execLinkParityResend ring dir node again s
  | .ringLinkFail ring dir node => Sys2Proof.Machine.execRingLinkFail ring dir node s
  | .gkSelWrite mid v => Sys2Proof.Machine.execGkSelWrite mid v s
  | .gkEnt0Write mid v => Sys2Proof.Machine.execGkEnt0Write mid v s
  | .go mid c => Sys2Proof.Machine.execGo mid c s
  | .bobbinAbort c => Sys2Proof.Machine.execBobbinAbort c s
  | .descriptorFetch c => Sys2Proof.Machine.execDescriptorFetch c s
  | .bobbinResponse r => Sys2Proof.Machine.execBobbinResponse r s
  | .hbmRefresh stack hot parityErrors => Sys2Proof.Machine.execHbmRefresh stack hot parityErrors s
  | .hbmScrubRead addr u last => Sys2Proof.Machine.execHbmScrubRead addr u last s
  | .eccScrubRead w u => Sys2Proof.Machine.execEccScrubRead w u s
  | .inject mid => Sys2Proof.Machine.execInject mid s
  | .run mid targets => Sys2Proof.Machine.execRun mid targets s
  | .bistAbort => Sys2Proof.Machine.execBistAbort s
  | .bistRunComplete found => Sys2Proof.Machine.execBistRunComplete found s
  | .burnData mid => Sys2Proof.Machine.execBurnData mid s
  | .burnValid mid => Sys2Proof.Machine.execBurnValid mid s
  | .shadowAppend mid => Sys2Proof.Machine.execShadowAppend mid s
  | .shadowErase mid => Sys2Proof.Machine.execShadowErase mid s
  | .fuseRead mid => Sys2Proof.Machine.execFuseRead mid s
  | .fuseCmdComplete verified => Sys2Proof.Machine.execFuseCmdComplete verified s
  | .repairRecord verified => Sys2Proof.Machine.execRepairRecord verified s
  | .rollPreloadDone pgb => Sys2Proof.Machine.execRollPreloadDone pgb s
  | .rollSwapDone pgb => Sys2Proof.Machine.execRollSwapDone pgb s
  | .rollSlotTestDone pgb found => Sys2Proof.Machine.execRollSlotTestDone pgb found s
  | .tmtRegionTest cls addr faulty => Sys2Proof.Machine.execTmtRegionTest cls addr faulty s
  | .replaceEnd hits => Sys2Proof.Machine.execReplaceEnd hits s
  | .logEntryWrite => Sys2Proof.Machine.execLogEntryWrite s
  | .logClear mid => Sys2Proof.Machine.execLogClear mid s
  | .devLowRequest mid => Sys2Proof.Machine.execDevLowRequest mid s
  | .lowEntryDone => Sys2Proof.Machine.execLowEntryDone s
  | .devRunRequest mid => Sys2Proof.Machine.execDevRunRequest mid s
  | .lowExitDone => Sys2Proof.Machine.execLowExitDone s
  | .devOffRequest mid => Sys2Proof.Machine.execDevOffRequest mid s
  | .panelSleepRequest mid => Sys2Proof.Machine.execPanelSleepRequest mid s
  | .panelOffRequest mid => Sys2Proof.Machine.execPanelOffRequest mid s
  | .panelActiveRequest mid idle => Sys2Proof.Machine.execPanelActiveRequest mid idle s
  | .panelSleepEntered panel => Sys2Proof.Machine.execPanelSleepEntered panel s
  | .panelWakeDone panel cacheBad => Sys2Proof.Machine.execPanelWakeDone panel cacheBad s
  | .panelWakeTimeout panel => Sys2Proof.Machine.execPanelWakeTimeout panel s
  | .adaptTick panel tp => Sys2Proof.Machine.execAdaptTick panel tp s
  | .watchSample xs => Sys2Proof.Machine.execWatchSample xs s
  | .unpark mid => Sys2Proof.Machine.execUnpark mid s
  | .wchRuleHiWrite mid v => Sys2Proof.Machine.execWchRuleHiWrite mid v s
  | .tracePacket => Sys2Proof.Machine.execTracePacket s
  | .traceSinkWrite cs => Sys2Proof.Machine.execTraceSinkWrite cs s
  | .registerWrite mid offset v => Sys2Proof.Machine.execRegisterWrite mid offset v s
  | .haltNHigh => Sys2Proof.Machine.execHaltNHigh s
  | .vddAonDown => Sys2Proof.Machine.execVddAonDown s
  | .ethLinkStateChange port up fec => Sys2Proof.Machine.execEthLinkStateChange port up fec s
  | .ethernetFrameRx port f => Sys2Proof.Machine.execEthernetFrameRx port f s
  | .jtagAccess op addr n ws => Sys2Proof.Machine.execJtagAccess op addr n ws s
  | .illegalInstruction sh => Sys2Proof.Machine.execIllegalInstruction sh s
  | .clmStarveLimit cl bank => Sys2Proof.Machine.execClmStarveLimit cl bank s
  | .hubMonIntervalEnd flits => Sys2Proof.Machine.execHubMonIntervalEnd flits s

end Sys2Proof.Machine
end

