-- ==== Sys2Proof/Machine/Order.lean ====
section
/-!
DEFINITION. The order in which what the device meets in one TIME cycle enters its queue: the release of a beat, the commands of
its senders by authority, what the hardware itself does (00 R7; 01 R14 to R16; 10 R320).
-/

namespace Sys2Proof.Machine

/-- What reaches the device in a cycle, and the master ID of its sender: read only where the command names none. -/
structure Arrival where
  mid : Nat
  cmd : Instr
  deriving DecidableEq, Repr

/-- Where a command comes from. -/
inductive Sender where
  /-- a master, by its ID (13 R389) -/
  | master (mid : Nat)
  /-- a port of the device, whichever the arrival names -/
  | port
  /-- another device of the weave -/
  | peer
  /-- the treadle's release of a beat -/
  | release
  /-- the device's own hardware, a pin or a line -/
  | hardware
  deriving DecidableEq, Repr

/-- The master of a management transport or of JTAG. -/
def ownerPort (jtag : Bool) : Sender := .master (if jtag then 0x311 else 0x310)

/-- Who sends a command of the shuttles, the scheduler's instructions and the hub's flits. -/
def hubSender : Instr → Sender
  | .sum s | .dif s | .conj s | .disj s | .excl s | .shl s | .shr s | .sha s | .less s | .lessu s | .prod s | .prodhs s | .prodhu s
  | .sumk s | .conjk s | .disjk s | .exclk s | .lessk s | .topk s | .get s | .sto s | .ifeq s | .ifne s | .iflt s | .ifge s | .iflo s
  | .ifhs s | .leap s | .via s | .macd s | .macp s | .ext s | .clra s | .mva s | .mvta s | .ldo s | .rdcw s | .wrcw s | .fence s
  | .clean s | .inval s | .iinv s | .post s | .done s | .wait s | .trap s | .untrap s | .illegalInstruction s => .master s
  | .read q _ | .writeL q _ | .writeM q _ _ _ | .or q _ _ => .master q.mid
  | .wscCancel _ | .wscPostDataWrite _ | .bobbinAbort _ | .bistAbort => .port
  | .wscPost mid | .handover mid _ _ | .gkSelWrite mid _ | .gkEnt0Write mid _ | .go mid _ | .inject mid | .run mid _ | .burnData mid
  | .burnValid mid | .shadowAppend mid | .shadowErase mid | .fuseRead mid | .logClear mid | .devLowRequest mid | .devRunRequest mid
  | .devOffRequest mid | .panelSleepRequest mid | .panelOffRequest mid | .panelActiveRequest mid _ | .unpark mid
  | .wchRuleHiWrite mid _ | .registerWrite mid _ _ => .master mid
  | _ => .hardware

/-- Who sends a command. -/
def senderOf : Instr → Sender
  | .beatRelease => .release
  | .start _ | .stop | .cancel | .ptpOffsetSample _ | .jumpAccept | .jumpClear | .txtsPop _ | .load _ | .abort | .reloadBay _ _
  | .abortBay | .lanePowerRequest _ _ | .loopbackRequest _ _ _ | .send _ _ _ | .msgAbort | .msgDataWrite _ | .pop | .rxmsgDataRead
  | .arm _ | .capStop _ | .trigger _ | .appliedRead | .beatCountRead => .port
  | .flashRead mid | .flashProgram mid | .flashErase mid | .clear mid => .master mid
  | .query _ _ _ | .peerStart _ _ _ _ | .refuse _ | .haltNote | .solo _ | .peerReply _ _ _ _ | .peerFrameRx _ _ _ _ _ _ _ _ _ _ => .peer
  | .datagramRx port _ _ _ _ _ _ | .info port | .regRead port | .regWrite port | .memRead port | .memWrite port | .logRead port
  | .subscribe port => .master (0x300 + port)
  | .mgtRead _ _ _ | .mgtWrite _ _ _ | .mgtStatus _ => ownerPort false
  | .unlockSet jtag _ => ownerPort jtag
  | .jtagAccess _ _ _ _ => ownerPort true
  | c => hubSender c

/-- The transport of a management request: SPI, I2C, UART, and JTAG behind them (10 R320). -/
def viaOf : Instr → Nat
  | .mgtRead f _ _ | .mgtWrite f _ _ => f.via % 3
  | .mgtStatus q => q.frame.via % 3
  | _ => 0

/-- Rank of a master's command: OWNER (the management port's transports, then JTAG), OPERATOR (the Ethernet agent), the shuttles
by ascending number, the hub's other masters, which carry no authority (01 R15, R16; 10 R320, R321). -/
def rankMid (via mid : Nat) : Nat :=
  if mid = 0x310 then 1 + via else if mid = 0x311 then 4 else if mid / 16 = 0x30 then 5 else if mid < 128 then 6 + mid else 200

/-- How long a hub request for a memory has waited, if the command is one: its target serves the oldest first, which is the one of the
highest urgency (13 R388). A request for a register is a command of its master (01 R15). -/
def hubAge : Instr → Option Nat
  | .read q _ | .writeL q _ | .writeM q _ _ _ | .or q _ _ => if q.addr / 2 ^ 28 = 0x700 then none else some q.waited
  | _ => none

/-- Rank among what one TIME cycle brings. The release stands first: a command accepted in its cycle waits for that beat's commit (01
R14). What the hardware does stands last: a bit that it sets while a write clears it ends set (00 R7). -/
def Arrival.rank (x : Arrival) : Nat :=
  if (hubAge x.cmd).isSome then 200 else
  match senderOf x.cmd with
  | .release => 0
  | .master mid => rankMid (viaOf x.cmd) mid
  | .port => rankMid 0 x.mid
  | .peer => 300
  | .hardware => 400

/-- One arrival goes before another: by rank, and hub requests for memories by age. -/
def Arrival.before (x y : Arrival) : Bool :=
  decide (x.rank < y.rank) || (match hubAge x.cmd, hubAge y.cmd with
    | some a, some b => decide (b < a)
    | _, _ => false)

/-- A command goes behind those of the same cycle that it does not go before. -/
def insertRank (c : Arrival) : List Arrival → List Arrival
  | [] => [c]
  | x :: t => if c.before x then c :: x :: t else x :: insertRank c t

/-- What one TIME cycle brings, in the order in which it was given, put into the order of R15. -/
def acceptOrder (cs : List Arrival) : List Arrival := cs.foldl (fun l c => insertRank c l) []

/-- What one TIME cycle brings joins the queue in the order of R15 (assumption log 36). -/
def State.accept (s : State) (cs : List Arrival) : State := { s with pending := s.pending ++ (acceptOrder cs).map Arrival.cmd }

end Sys2Proof.Machine
end

