-- ==== Sys2Proof/Machine/Step.lean ====
section
/-!
DEFINITION. The step: the command at the front of the queue acts; on an empty queue a TIME cycle passes.
-/

namespace Sys2Proof.Machine

/-- The step on an empty queue: one TIME cycle of 1 ns (06 R174; 14 R437; assumption log 4), what the hub die does in it, and event 12 of 08 R210 where only event 8 was left. -/
def idle (s : State) : Host.Outcome State Fault Refusal := s.actPin (fun d =>
  let d := d.idleCycle.hubCycle
  if d.on then d.event12 else d)

/-- One step: the command at the front of the queue acts on everything but the queue, of which the rest stays. -/
def step (s : State) : Host.Outcome State Fault Refusal :=
  match s.pending with
  | [] => idle s
  | c :: rest => exec c { s with pending := rest }

/-- The state with the command that a word spells in front of its queue; no word spells one. -/
def State.withFetchWord (s : State) (nbits w : Nat) : State :=
  match Sys2Proof.decodeTableWord nbits w with
  | none => s
  | some c => { s with pending := c :: s.pending }

end Sys2Proof.Machine
end

