-- ==== Sys2Proof/Safety.lean ====
section
/-!
DEFINITION. What counts as a sound state, in the terms that the statements use: memory in canonical form, a device held in reset.
-/

namespace Sys2Proof.Machine

/-- Memory, stored check bits and flash are in canonical form: addresses strictly rising, no entry equal to what an unlisted
address reads as. -/
def Dev.memWf (d : Dev) : Prop := Memory.wf d.mem

/-- PORST_N is low and the device is as the reset leaves it (00 R9; 08 R236): no register but the LOG_ block's differs from its
reset value, no memory, image, lane, link, capture, shuttle or request is there, no PLL has been started, the transmitters are idle
and DONE is driven low. -/
def Dev.heldInReset (d : Dev) : Prop :=
  d.plat.porst = false ∧ (∀ e ∈ d.regs, keptPorst e.1 = true) ∧ d.mem = [] ∧ d.loom = Loom.empty ∧ d.warp = Warp.empty ∧
    d.weft = Weft.empty ∧ d.cap.units = [] ∧ d.hubd = HubDie.empty ∧ d.ldr.load = none ∧ d.charter = none ∧
    d.plat.doneLow = true ∧ d.plat.txIdle = true ∧ d.plat.pllStarted = false

/-- The device is powered, out of PORST_N's reset, and OFF (15 R452). -/
def Dev.isOff (d : Dev) : Prop := d.plat.aonUp = true ∧ d.plat.porst = true ∧ d.fld F.PWR_STATUS_DEV = 2

/-! ### The terms of the statements about commands -/

/-- A command answers a next state: the queue of waiting commands is as it was, and P holds of the device. -/
def Answers (c : Instr) (s : State) (P : Dev → Prop) : Prop := ∃ t : State, exec c s = .next t ∧ t.pending = s.pending ∧ P t.dev

/-- The state with another device: the queue of waiting commands is as it was. -/
abbrev State.withDev (s : State) (d : Dev) : State := { s with dev := d }

/-- Every byte of memory reads as before. -/
def Dev.sameBytes (d e : Dev) : Prop := ∀ a, e.byte a = d.byte a

/-- Every register but those listed reads as before. -/
def Dev.sameRegs (d e : Dev) (ks : List Nat) : Prop := ∀ k, k ∉ ks → e.reg k = d.reg k

/-- Everything but the registers, the log and ALERT_N is as before: memory, loom, lanes, links, captures, shuttles and the rest. -/
def Dev.sameUnits (d e : Dev) : Prop :=
  e.mem = d.mem ∧ e.chk = d.chk ∧ e.bad = d.bad ∧ e.loom = d.loom ∧ e.trd = d.trd ∧ e.tb = d.tb ∧ e.warp = d.warp ∧
    e.cap = d.cap ∧ e.weft = d.weft ∧ e.rel = d.rel ∧ e.plat = d.plat ∧ e.hubd = d.hubd ∧ e.charter = d.charter ∧
    e.ldr = d.ldr ∧ e.eth = d.eth ∧ e.flash = d.flash

/-- Heddle k of harness hn has delivered the result v of its pick p, whose word is w (02 R30; 03 R69; 04 R96): the shed entry of the
current bank, the harness window and the tap FIFO where the word names them, the pick complete; everything else that a pick could
reach is as before. -/
def Dev.delivers (d e : Dev) (hn k p : Nat) (w : PickWord) (v : Bool) : Prop :=
  SMap.get false e.loom.shed (shedKey (hkOf hn k) (d.fld F.LOM_STATUS_BANK) p) = v ∧
    (∀ x, x ≠ shedKey (hkOf hn k) (d.fld F.LOM_STATUS_BANK) p → SMap.get false e.loom.shed x = SMap.get false d.loom.shed x) ∧
    SMap.get 0 e.loom.done (hkOf hn k) = p + 1 ∧
    (∀ x, x ≠ hkOf hn k → SMap.get 0 e.loom.done x = SMap.get 0 d.loom.done x) ∧
    (PickW.toWin w = true → SMap.get false e.loom.win (512 * hn + (p % 16 * 32 + k)) = v) ∧
    (∀ x, PickW.toWin w = false ∨ x ≠ 512 * hn + (p % 16 * 32 + k) →
      SMap.get false e.loom.win x = SMap.get false d.loom.win x) ∧
    e.loom.taps = d.loom.taps ++ (if PickW.tap w then [⟨hn / 64, hn % 64, k, p, v⟩] else []) ∧
    e.loom.beat = d.loom.beat ∧ e.loom.phase = d.loom.phase ∧ e.loom.lanes = d.loom.lanes ∧ e.loom.brx = d.loom.brx ∧
    e.loom.lrx = d.loom.lrx ∧ e.loom.bj = d.loom.bj ∧ e.loom.dj = d.loom.dj ∧ e.loom.failStage = d.loom.failStage ∧
    e.loom.bundles = d.loom.bundles ∧ e.loom.fault = d.loom.fault ∧ e.regs = d.regs ∧ e.mem = d.mem ∧ e.log = d.log ∧
    e.trd = d.trd ∧ e.warp = d.warp ∧ e.weft = d.weft ∧ e.cap = d.cap ∧ e.hubd = d.hubd

/-- The fields that heddle k of harness hn reads at pick p. -/
def Dev.fieldsOf (d : Dev) (hn k p : Nat) : List Nat :=
  fieldsRead (pickKind (d.loom.pick hn 0 p) (d.loom.pick hn k p)) (PickW.op (d.loom.pick hn k p)) k

/-- Heddle k of harness hn has fetched its operands at pick p. -/
def Dev.fetchedAt (d : Dev) (hn k p : Nat) : Dev := d.markFetched hn k p (d.loom.pick hn k p) (d.fieldsOf hn k p)

/-- Heddle k can execute pick p, a step of its own, on the operand values idx (03 R67, R68, R73): it stands at the pick, its word is
stored right, every read is satisfied, and nothing holds the delivery back. -/
def Dev.readyAt (d : Dev) (gb h k p idx : Nat) : Prop :=
  d.canPick gb h k = true ∧ SMap.get 0 d.loom.done (hkOf (hnOf gb h) k) = p ∧
    SMap.get 0 d.loom.held (hkOf (hnOf gb h) k) = 0 ∧ d.loom.jacRead (jacKey (hnOf gb h) k p) = .clean 0 ∧
    d.readFields (hnOf gb h) k p (d.loom.pick (hnOf gb h) k p) (d.fieldsOf (hnOf gb h) k p) = (0, idx) ∧
    (d.fetchedAt (hnOf gb h) k p).deliverWait (hnOf gb h) k p (d.loom.pick (hnOf gb h) k p) = 0

/-- The kind of heddle k's pick p. -/
def Dev.kindAt (d : Dev) (hn k p : Nat) : PickKind := pickKind (d.loom.pick hn 0 p) (d.loom.pick hn k p)

/-- The gatekeepers pass an access, and the entries that they read for it are stored right (13 R391; 14 R417). -/
def Dev.passes (d : Dev) (mid acc a : Nat) : Prop := d.verdict mid acc a = (stOK, 0) ∧ d.gkScan mid acc a = d

/-- The gatekeepers pass a master's write of the register at an offset (13 R391). -/
def Dev.mayWrite (d : Dev) (mid k : Nat) : Prop := d.passes mid gkWRITE (regBase + k)

/-- Capture unit u may fill its buffer: it lies in trained HBM, the gatekeepers pass its writes, and no stored bit is wrong (11 R331;
13 R391, R403). -/
def Dev.mayFill (d : Dev) (u : Nat) : Prop :=
  let b := d.capFld F.CAP_BUF_BASE_BASE u * 256
  let n := 2 ^ d.capFld F.CAP_UNIT_CFG_SIZE u
  b + n ≤ hbmEnd ∧ d.plat.hbmReady = true ∧ d.chk = [] ∧ d.bad = [] ∧ d.hubd.hub.gkFlip = [] ∧
    ∀ a, b ≤ a → a < b + n → d.verdict (midCAP + u) gkWRITE a = (stOK, 0)

/-- The gatekeepers pass it, and the master holds OWNER authority (10 R321). -/
def Dev.ownerMay (d : Dev) (mid k : Nat) : Prop := d.mayWrite mid k ∧ (d.who mid).owner = true

/-- Shuttle s executes, and the word that it fetches is w; e is the device after the fetch, which may have filled a cache line
(12 R353, R363, R372). -/
def Dev.shGets (d e : Dev) (s : Nat) (w : Word) : Prop := d.shRuns s = true ∧ d.shFetch s = (e, .ok w)

/-- A START is accepted (06 R157, R158, R160, R164, R171, R176): it is PENDING with reason 0, from T = t; STARTING, but HALTED where the
device is behind its weave; one that is timed waits for T, or is LATE where T has passed; the slot grid of PACED mode is anchored unless
it goes on from before a halt; and nothing else changes but the arming figures and the sequencing of the weave. -/
def Dev.acceptsStart (d e : Dev) (timed : Bool) (t : Word) : Prop :=
  e.ts = (if d.ts = tsHalted ∧ d.inWeave = true ∧ d.behind = true then tsHalted else tsStarting) ∧
    e.fld F.TRD_CMD_STATUS_CMD = 1 ∧ e.fld F.TRD_CMD_STATUS_STATUS = 1 ∧ e.fld F.TRD_CMD_STATUS_REASON = 0 ∧
    e.trd.tStart = t ∧ e.trd.fromHalted = (d.ts == tsHalted) ∧ e.trd.stopPend = false ∧
    e.trd.timed = (timed && !d.tooLate t) ∧
    (timed = true → d.tooLate t = true → e.fld F.TRD_EVENTS_LATE = 1) ∧
    (if d.fld F.TRD_CTL_MODE = 1 ∧ (d.ts ≠ tsHalted ∨ d.trd.gridOn = false) then
      e.trd.gridOn = true ∧ e.trd.slotReached = false ∧
        e.trd.nextSlot = gridFrom (gridFrom (d.reg R.TRD_FIRST) (d.reg R.TRD_PERIOD) t) (d.reg R.TRD_PERIOD) d.tb.tb
    else e.trd.gridOn = d.trd.gridOn ∧ e.trd.nextSlot = d.trd.nextSlot) ∧
    e.log = (if timed && d.tooLate t then d.event bTRD 0 0x907 0 else d).log ∧ e.mem = d.mem ∧ e.loom = d.loom ∧ e.tb = d.tb ∧
    d.sameRegs e ([R.TRD_STATUS, R.LOM_STATUS, R.TRD_CMD_STATUS] ++
      if timed && d.tooLate t then [R.TRD_EVENTS, R.LOG_LOST] else [])

/-- Shuttle s executes, and the word w at its pc stands in its instruction cache, in a line that is stored right: the pc is a word's
address in HBM or in a cluster's memory, and the gatekeepers pass the fetch (12 R353, R363, R366, R372). -/
def Dev.hasWord (d : Dev) (s : Nat) (w : Word) : Prop :=
  d.shRuns s = true ∧ (d.sh s).pc.toNat % 4 = 0 ∧
    (regionOf (d.sh s).pc.toNat = .hbm ∨ regionOf (d.sh s).pc.toNat = .cluster) ∧ d.passes s gkFETCH (d.sh s).pc.toNat ∧
    (findLine (d.sh s).icache ((d.sh s).pc.toNat / 64)).map
      (fun l => (l.bad, BitVec.ofNat 32 (leNat (l.bytes ((d.sh s).pc.toNat % 64) 4)))) = some (false, w)

/-- Shuttle s has become x, and nothing else has changed: no other shuttle, register, memory byte, log entry, unit or item. -/
def Dev.shIs (d e : Dev) (s : Nat) (x : Shuttle) : Prop :=
  e.sh s = x ∧ (∀ j, j ≠ s → e.sh j = d.sh j) ∧ e.regs = d.regs ∧ e.mem = d.mem ∧ e.chk = d.chk ∧ e.bad = d.bad ∧
    e.loom = d.loom ∧ e.trd = d.trd ∧ e.tb = d.tb ∧ e.log = d.log ∧ e.warp = d.warp ∧ e.weft = d.weft ∧ e.cap = d.cap ∧
    e.plat = d.plat ∧ e.hubd.sched = d.hubd.sched ∧ e.hubd.hub = d.hubd.hub ∧ e.hubd.bobs = d.hubd.bobs ∧
    e.hubd.trc = d.hubd.trc

/-- The shuttle at its next instruction, with the value v in gD (12 R352, R356). -/
def Shuttle.nextWith (x : Shuttle) (rd : Nat) (v : BitVec 64) : Shuttle :=
  { x.setReg rd v with pc := x.pc + 4, fresh := false }

/-- Shuttle s has taken a trap (12 R362): EPC is its pc, CAUSE and TVAL are as given, PRIOR is its privilege, it is FIRMWARE at TVEC;
its registers and its item, memory and the loom are as they were, and the trap is counted. -/
def Dev.shTook (d e : Dev) (s cause : Nat) (tval : BitVec 64) : Prop :=
  (e.sh s).epc = (d.sh s).pc ∧ (e.sh s).cause = BitVec.ofNat 64 cause ∧ (e.sh s).tval = tval ∧ (e.sh s).prior = (d.sh s).priv ∧
    (e.sh s).priv = true ∧ (e.sh s).pc = (d.sh s).tvec ∧ (e.sh s).tvec = (d.sh s).tvec ∧ (e.sh s).inTrap = true ∧
    (e.sh s).fresh = true ∧ (e.sh s).g = (d.sh s).g ∧ (e.sh s).acc = (d.sh s).acc ∧ (e.sh s).item = (d.sh s).item ∧
    (∀ j, j ≠ s → e.sh j = d.sh j) ∧ e.mem = d.mem ∧ e.loom = d.loom ∧ e.fld (F.SHT_CAUSE_CAUSE.at s) = cause ∧
    e.fld (F.SHT_TRAPS_COUNT.at s) = satAdd 32 (d.fld (F.SHT_TRAPS_COUNT.at s)) 1 ∧
    d.sameRegs e [instKey R.SHT_CAUSE s, instKey R.SHT_TRAPS s]

end Sys2Proof.Machine
end

