-- ==== Sys2Proof/Certificates/Slice0/Obligations.lean ====
section
/-!
DEFINITION. The statements for the provers, each from the rules of the spec that its docstring names. A command whose condition does not hold
changes nothing: where a clause says so it is the model's reading (assumption log 1). Free values are those of assumption log 2, ALERT_N's causes of log 7,
the order of frames on the wire of log 8, and the finer readings of log 9.
-/

open Sys2Proof Sys2Proof.Machine

/-- A step with a command at the front of the queue is that command's exec, on the state with the queue's rest. -/
def Obligations.StepRunsFrontCommand : Prop :=
  ∀ (c : Instr) (rest : List Instr) (s : State),
    step { s with pending := c :: rest } = exec c { s with pending := rest }

/-- Every command answers a next state, whatever the state: none faults and none is refused; and no command touches the queue of
waiting commands. That a command which a spec's condition turns away leaves the state, and is no refusal or fault, is the model's choice
(assumption log 1).

The queue is first in, first out: as many steps as commands wait run each of them once, in the order in which they wait, and
leave the queue empty. That one queue stands for all senders is the model's choice (assumption logs 1, 36). -/
def Obligations.EveryCommandAnswersInOrder : Prop :=
  (
  ∀ (c : Instr) (s : State), ∃ t : State, exec c s = .next t ∧ t.pending = s.pending) ∧
  (
  ∀ (cs : List Instr) (s : State), s.pending = cs →
    ∃ ts : List State, ts.length = cs.length + 1 ∧ ts.head? = some s ∧
      (∀ i c a b, cs[i]? = some c → ts[i]? = some a → ts[i + 1]? = some b →
        a.pending = cs.drop i ∧ exec c { a with pending := cs.drop (i + 1) } = .next b) ∧
      ∃ t : State, ts.getLast? = some t ∧ t.pending = [] ∧ Host.Core.run Sys2Proof.core cs.length s = .next t)

/-- On an empty queue the step of a running device with the TIME PLL locked and no PTP rate is one TIME cycle: TB counts 1 ns
(06 R174), and registers, memory, loom, lanes, links, captures, hub and the log's entries stay. That an empty queue lets time
pass, one ns a step, is the model's choice (assumption log 4). Here with nothing in a shuttle's write buffer or a link's send queue,
and no load that waits for its last event; the bobbin channels' tokens are all that changes on the hub. -/
def Obligations.IdleStepCountsTime : Prop :=
  ∀ (s : State), s.pending = [] → s.dev.on = true → s.dev.plat.pllUp.testBit 3 = true → s.dev.fld F.PTP_CTL_SRC = 0 →
    s.dev.tb.frac < 2 ^ 32 → s.dev.ldr.load = none → (∀ x ∈ s.dev.hubd.shuttles, x.2.wbuf = []) →
    (∀ p < 4, (s.dev.link p).sendq = []) →
    ∃ t : State, step s = .next t ∧ t.pending = [] ∧ t.dev.tb.tb = s.dev.tb.tb + 1 ∧ t.dev.regs = s.dev.regs ∧
      t.dev.mem = s.dev.mem ∧ t.dev.loom = s.dev.loom ∧ t.dev.trd = s.dev.trd ∧ t.dev.warp = s.dev.warp ∧
      (∀ p, t.dev.link p = s.dev.link p) ∧ t.dev.weft = { s.dev.weft with links := t.dev.weft.links } ∧
      t.dev.cap = s.dev.cap ∧ t.dev.log = s.dev.log ∧ t.dev.hubd = { s.dev.hubd with bobs := t.dev.hubd.bobs } ∧
      ∀ c, t.dev.bob c = { s.dev.bob c with tokens := (t.dev.bob c).tokens }

/-- The machine after reset: every register reads its reset value, the treadle is IDLE, memory reads 0 and is in canonical form,
no image, lane, capture, link, shuttle or fuse command is there, no cause asserts ALERT_N, no command waits (00 R9; 06 R157). The
values of what the spec gives no reset value are the model's (assumption log 3). -/
def Obligations.ResetState : Prop :=
  (∀ k, State.reset.dev.reg k = resetVal k) ∧ State.reset.dev.ts = tsIdle ∧ (∀ a, State.reset.dev.byte a = 0) ∧
    State.reset.dev.memWf ∧ State.reset.dev.loom = Loom.empty ∧ State.reset.dev.warp = Warp.empty ∧
    State.reset.dev.weft = Weft.empty ∧ State.reset.dev.cap = Cap.empty ∧ State.reset.dev.hubd = HubDie.empty ∧
    State.reset.dev.charter = none ∧ State.reset.dev.alerts = 0 ∧ State.reset.pending = [] ∧ State.reset.dev.on = true

/-- While PORST_N is low nothing but its rise ends the reset: whatever commands wait, so long as none of them is PORST_N_RISE,
a step from a device held in reset leaves it held in reset, and still none of them waits (00 R9; 08 R236). -/
def Obligations.HeldInResetIsKept : Prop :=
  ∀ (s t : State), s.dev.heldInReset → (∀ c ∈ s.pending, ∀ straps, c ≠ .porstNRise straps) → step s = .next t →
    t.dev.heldInReset ∧ ∀ c ∈ t.pending, ∀ straps, c ≠ .porstNRise straps

/-- A low PORST_N holds the device in reset from every state (00 R9; 08 R236): the registers but those of the LOG_ block take
their reset values, the memories, the image, the units and the charter are gone. With no fuse or flash command cut short, the log
and the field fuses stay. The AON supply's fall and rise do the same, and clear the log and the tick (14 R437). That the memories
are then empty, the panels' among them, is the model's choice (assumption log 3; 15 R455 is the nearest rule). -/
def Obligations.ResetPinsAndAonSupply : Prop :=
  (∀ s : State, Answers .porstNFall s (fun e => e.heldInReset ∧ (∀ k, keptPorst k = false → e.reg k = resetVal k) ∧
      e.alerts = 0 ∧
      (s.dev.rel.fuseCmd = 0 → s.dev.ldr.flashCmd % 4 = 0 →
        e.log = s.dev.log ∧ e.rel.fuses = s.dev.rel.fuses ∧ e.flash = s.dev.flash ∧
        ∀ k, keptPorst k = true → e.reg k = s.dev.reg k))) ∧
  (∀ s : State, Answers .vddAonDown s (fun e => e.heldInReset ∧ e.plat.aonUp = false ∧ e.log.slots = [] ∧ e.log.queue = [] ∧
      e.tick = 0 ∧ e.regs = [])) ∧
  (∀ s : State, s.dev.plat.aonUp = false → Answers .vddAonUp s (fun e => e.heldInReset ∧ e.plat.aonUp = true ∧
      e.plat.crystalDone = false ∧ e.log.slots = [] ∧ e.log.queue = [] ∧ e.tick = 0 ∧ e.regs = []))

/-- Memory: a byte reads as it was last written, a write of a run of bytes leaves every byte outside the run, clearing a range
makes its bytes read 0 and leaves the others, and each of the three keeps the canonical form. -/
def Obligations.MemoryWritesAndClears : Prop :=
  ∀ (d : Dev) (a : Nat) (bs : List Byte) (b x : Nat),
    (∀ i, ∀ h : i < bs.length, (d.setBytes a bs).byte (a + i) = bs[i]) ∧
    (x < a ∨ a + bs.length ≤ x → (d.setBytes a bs).byte x = d.byte x) ∧
    (a ≤ x → x < b → (d.clearMem a b).byte x = 0) ∧ (x < a ∨ b ≤ x → (d.clearMem a b).byte x = d.byte x) ∧
    (d.memWf → (d.setBytes a bs).memWf ∧ (d.clearMem a b).memWf)

/-- START (06 R157, R158, R160, R164, R171, R176): from ARMED or HALTED, with no refusal of 06 R171, every panel of a mapped beam
awake and, in PACED mode, the arming condition met, it is accepted in every MODE, untimed with the present TB as T or timed with
TRD_START_AT: `Dev.acceptsStart` says what is then PENDING, that a T already past is LATE, and which slot start is the next. A leader of
a weave compares its settings with every other member's first. That it asks each member for its four items by QUERY, one after
the other, is the model's choice (assumption log 10); that the slot grid goes on where TB has passed T is too (assumption log 22).

A START that 06 R171 refuses: it changes nothing but the arming figures, TRD_CMD_STATUS (CMD 1, STATUS 4 and the reason) and,
for the weave settings of reason 4, the log (event 0x235). A PACED START whose arming condition does not hold is refused with
reason 2: TRD_EVENTS.ARM_FAIL is set and event 0x230 carries the need (06 R165).

The slot grid and the response timeout (06 R160, R161, R168). In PACED mode a slot start that is reached while the treadle waits,
with conditions 1 to 6 of 06 R159 met and the moment of readiness noted, opens the release of that slot and the next slot start is
one PERIOD later. A response timeout of PIN_LOCKED with those conditions met sets PIN_TO, writes event 0x233 with the lowest
missing lane, and asserts ALERT_N; the treadle goes on waiting. -/
def Obligations.StartsAndResponseTimeout : Prop :=
  (
  ∀ (s : State) (timed : Bool), s.dev.ringsOn = true → s.dev.panelsAwake = true → s.dev.startRefusal false = 0 →
    (s.dev.fld F.TRD_CTL_MODE = 1 → s.dev.armCompute.arm.2 = true) →
    (s.dev.role = roSingle ∨ (s.dev.role = roLeader ∧ s.dev.others ≠ [])) →
    Answers (.start timed) s (fun e => s.dev.acceptsStart e timed (if timed then s.dev.reg R.TRD_START_AT else s.dev.tb.tb) ∧
      (s.dev.role = roLeader → e.weft.start =
        .compare (s.dev.others.flatMap (fun p => [(p, 1), (p, 2), (p, 3), (p, 4)])) s.dev.others none))) ∧
  (
  (∀ (s : State) (timed : Bool), s.dev.ringsOn = true → s.dev.panelsAwake = true → s.dev.startRefusal false ≠ 0 →
    Answers (.start timed) s (fun e => e.fld F.TRD_CMD_STATUS_CMD = 1 ∧ e.fld F.TRD_CMD_STATUS_STATUS = 4 ∧
      e.fld F.TRD_CMD_STATUS_REASON = s.dev.startRefusal false ∧ e.ts = s.dev.ts ∧ e.mem = s.dev.mem ∧ e.loom = s.dev.loom ∧
      e.log = (if s.dev.startRefusal false = 4 then s.dev.event bTRD 0 0x235 0 else s.dev).log ∧
      s.dev.sameRegs e (if s.dev.startRefusal false = 4 then [R.TRD_CMD_STATUS, R.LOG_LOST] else [R.TRD_CMD_STATUS]))) ∧
  (∀ (s : State) (timed : Bool), s.dev.ringsOn = true → s.dev.panelsAwake = true → s.dev.startRefusal false = 0 →
    s.dev.fld F.TRD_CTL_MODE = 1 → s.dev.armCompute.arm.2 = false →
    Answers (.start timed) s (fun e => e.fld F.TRD_CMD_STATUS_CMD = 1 ∧ e.fld F.TRD_CMD_STATUS_STATUS = 4 ∧
      e.fld F.TRD_CMD_STATUS_REASON = 2 ∧ e.fld F.TRD_EVENTS_ARM_FAIL = 1 ∧ e.ts = s.dev.ts ∧ e.mem = s.dev.mem ∧
      e.loom = s.dev.loom ∧ e.log = (s.dev.event bTRD 0 0x230 (s.dev.armCompute.arm.1 % 2 ^ 24)).log ∧
      s.dev.sameRegs e [R.TRD_CMD_STATUS, R.TRD_EVENTS, R.LOG_LOST]))) ∧
  (
  (∀ s : State, s.dev.on = true → s.dev.trd.gridOn = true → s.dev.fld F.TRD_CTL_MODE = 1 →
      s.dev.reached s.dev.trd.nextSlot = true → s.dev.ts = tsWaiting → s.dev.unmet6 = 0 → s.dev.trd.tReady ≠ none →
      exec .slotStart s = .next (s.withDev (s.dev.onTrd (fun r => { r with
        nextSlot := r.nextSlot + s.dev.reg R.TRD_PERIOD, slotReached := true })))) ∧
  (∀ (s : State) (ph : Nat), s.dev.on = true → s.dev.lockMissing = some ph → (s.dev.ts = tsWaiting ∨ s.dev.ts = tsStarting) →
      s.dev.unmet6 = 0 →
      exec .pinResponseTimeout s = .next (s.withDev
        (((s.dev.setFld F.TRD_EVENTS_PIN_TO 1).event bTRD 0 0x233 (ph % 128)).alert alPin))))

/-- STOP and CANCEL (06 R158, R171): in STARTING both put the treadle back where the START came from, with the START ABORTED and
the command DONE, unless every condition of the first release holds already: then that release comes first, a STOP asks the beat for
its halt and a CANCEL is refused; STOP in BEAT is PENDING and asks for a halt of cause 1 at the commit; either in IDLE is refused with reason 1.
That a release whose every condition holds comes before a STOP or CANCEL is the model's reading (assumption log 9).

Requests to halt (02 R43; 06 R172, R187): while a beat is in progress, HALT_N low and a halt note of another member each keep
the beat running and ask for a halt at its commit (causes 2 and 5), the first request's cause standing; HALT_N high takes the
treadle's block away and changes nothing else unless the treadle waits (assumption logs 9, 10 say what is the model's own here). -/
def Obligations.StopsAndHaltRequests : Prop :=
  (
  (∀ s : State, s.dev.ringsOn = true → s.dev.ts = tsStarting → s.dev.unmet ≠ 0 → s.dev.ldr.bay = none →
    (∀ c ∈ [(Instr.stop, 2), (Instr.cancel, 3)], Answers c.1 s (fun e =>
      e.ts = (if s.dev.trd.fromHalted then tsHalted else tsArmed) ∧ e.fld F.TRD_CMD_STATUS_CMD = c.2 ∧
      e.fld F.TRD_CMD_STATUS_STATUS = 2 ∧ e.trd.timed = false ∧ e.mem = s.dev.mem ∧ e.loom = s.dev.loom ∧
      s.dev.sameRegs e [R.TRD_STATUS, R.LOM_STATUS, R.TRD_CMD_STATUS]))) ∧
  (∀ s : State, s.dev.ringsOn = true → s.dev.ts = tsStarting → s.dev.unmet = 0 →
    Answers .stop s (fun e => e.ts = tsBeat ∧ e.loom.phase = .released ∧ e.loom.haltReq = some 1 ∧ e.trd.stopPend = true ∧
      e.fld F.TRD_CMD_STATUS_CMD = 2 ∧ e.fld F.TRD_CMD_STATUS_STATUS = 1 ∧ e.loom.beat = s.dev.loom.beat ∧ e.mem = s.dev.mem) ∧
    Answers .cancel s (fun e => e.ts = tsBeat ∧ e.loom.phase = .released ∧ e.fld F.TRD_CMD_STATUS_CMD = 3 ∧
      e.fld F.TRD_CMD_STATUS_STATUS = 4 ∧ e.fld F.TRD_CMD_STATUS_REASON = 1 ∧ e.loom.beat = s.dev.loom.beat ∧
      e.mem = s.dev.mem)) ∧
  (∀ s : State, s.dev.ringsOn = true → s.dev.ts = tsBeat → Answers .stop s (fun e =>
      e.ts = tsBeat ∧ e.fld F.TRD_CMD_STATUS_CMD = 2 ∧ e.fld F.TRD_CMD_STATUS_STATUS = 1 ∧ e.trd.stopPend = true ∧
      e.loom = { s.dev.loom with haltReq := some (s.dev.loom.haltReq.getD 1) } ∧ e.mem = s.dev.mem ∧
      s.dev.sameRegs e [R.TRD_CMD_STATUS])) ∧
  (∀ s : State, s.dev.ringsOn = true → s.dev.ts = tsIdle → ∀ c ∈ [(Instr.stop, 2), (Instr.cancel, 3)],
      exec c.1 s = .next (s.withDev (s.dev.cmdStatus c.2 4 1)))) ∧
  (
  (∀ s : State, s.dev.ts = tsBeat → exec .haltNLow s = .next (s.withDev
      ((s.dev.onTrd (fun r => { r with haltLow := true })).onLoom (fun l => { l with haltReq := some (l.haltReq.getD 2) })))) ∧
  (∀ s : State, s.dev.on = true → s.dev.ts = tsBeat → s.dev.weft.start = .idle → exec .haltNote s = .next (s.withDev
      (s.dev.onLoom (fun l => { l with haltReq := some (l.haltReq.getD 5) })))) ∧
  (∀ s : State, s.dev.ts ≠ tsWaiting → exec .haltNHigh s = .next (s.withDev
      (s.dev.onTrd (fun r => { r with haltLow := false })))))

/-- The time base (06 R175 to R182, R195): what each of its commands changes, and that it changes nothing else. A timed START whose
time has come no longer waits; a TSYNC edge in is captured; an edge out is due one second later; a pending jump is cleared, or a
backward one accepted; an offset sample within JUMP_LIMIT steers the rate by the servo's two gains, each result held within RATE_MAX,
and counts towards the lock, or ends it, with event 0x903 or 0x904 (06 R179, R180); one beyond JUMP_LIMIT is held pending; with a jump
pending the servo holds; lock is lost after the holdover timeout; a transmit time stamp is taken from its queue (the order of a step's
effects is the model's: assumption log 22).

A pending jump accepted (06 R182): TB moves by PTP_JUMP_OFS, the servo starts again from rate 0, JUMP_PEND is cleared and event
0x902 is written; a timed START that the new TB has reached waits no longer; here for a jump that passes no slot start of a PACED grid,
with no timed message waiting. A forward jump of a PACED grid skips every slot start that it passes: the next one lies ahead, the skips
are counted in TRD_HOLD_CNT, and event 0x906 is written once; here with no lane named and no timed START. That a step onto a slot start
has passed it is the model's choice (assumption log 22). -/
def Obligations.TimeBaseCommands : Prop :=
  (
  (∀ s : State, s.dev.on = true → s.dev.ts = tsStarting → s.dev.trd.timed = true → s.dev.reached s.dev.trd.tStart = true →
      exec (.timedLaunch none) s = .next (s.withDev (s.dev.onTrd (fun r => { r with timed := false })))) ∧
  (∀ s : State, s.dev.on = true → s.dev.fld F.PTP_CTL_TSYNC_OUT = 0 → s.dev.fld F.PTP_CTL_SRC ≠ 2 →
      exec .tsyncInputEdge s = .next (s.withDev
        ((s.dev.onTb (fun b => { b with tsync := true })).setReg R.PTP_PPS_CAP s.dev.tb.tb))) ∧
  (∀ s : State, s.dev.on = true → s.dev.fld F.PTP_CTL_TSYNC_OUT = 1 → s.dev.reached (s.dev.reg R.PTP_PPS_NEXT) = true →
      Answers .tsyncOutputEdge s (fun e => e.tb.tsync = true ∧ e.reg R.PTP_PPS_NEXT = s.dev.reg R.PTP_PPS_NEXT + 1000000000 ∧
        e.tb.tb = s.dev.tb.tb ∧ e.mem = s.dev.mem ∧ e.loom = s.dev.loom ∧ s.dev.sameRegs e [R.PTP_PPS_NEXT])) ∧
  (∀ s : State, s.dev.ringsOn = true → exec .jumpClear s = .next (s.withDev (s.dev.setFld F.PTP_STATUS_JUMP_PEND 0))) ∧
  (∀ (s : State) (x : Word) (err m : Int), s.dev.on = true → s.dev.fld F.PTP_CTL_SRC = 1 → s.dev.fld F.PTP_STATUS_JUMP_PEND = 0 →
      err = x.toInt → m = Int.ofNat (s.dev.fld F.PTP_SERVO_RATE_MAX) → err.natAbs ≤ s.dev.fld F.PTP_JUMP_LIMIT_LIMIT →
      Answers (.ptpOffsetSample x) s (fun e =>
        e.tb.integ = max (-m) (min m (s.dev.tb.integ + err >>> s.dev.fld F.PTP_SERVO_KI_SHIFT)) ∧
        e.tb.rate = max (-m) (min m (-(err >>> s.dev.fld F.PTP_SERVO_KP_SHIFT + e.tb.integ))) ∧
        e.reg R.PTP_RATE = BitVec.ofInt 32 e.tb.rate ∧ e.tb.tb = s.dev.tb.tb ∧ e.fld F.PTP_STATUS_HOLDOVER = 0 ∧
        e.fld F.PTP_STATUS_JUMP_PEND = 0 ∧
        (if err.natAbs ≤ s.dev.fld F.PTP_LOCK_CFG_LOCK_NS then
          e.tb.lockRun = s.dev.tb.lockRun + 1 ∧
            (if max 1 (s.dev.fld F.PTP_LOCK_CFG_LOCK_N) ≤ s.dev.tb.lockRun + 1 ∧ s.dev.fld F.PTP_STATUS_LOCKED = 0 then
              e.fld F.PTP_STATUS_LOCKED = 1 ∧ e.log = (s.dev.event bPTP 0 0x903 0).log
            else e.fld F.PTP_STATUS_LOCKED = s.dev.fld F.PTP_STATUS_LOCKED ∧ e.log = s.dev.log)
        else e.tb.lockRun = 0 ∧ e.fld F.PTP_STATUS_LOCKED = 0 ∧
          e.log = (if s.dev.fld F.PTP_STATUS_LOCKED = 1 then s.dev.event bPTP 0 0x904 0 else s.dev).log) ∧
        e.mem = s.dev.mem ∧ e.loom = s.dev.loom ∧ s.dev.sameRegs e [R.PTP_STATUS, R.PTP_RATE, R.LOG_LOST])) ∧
  (∀ (s : State) (x : Word), s.dev.on = true → s.dev.fld F.PTP_CTL_SRC = 1 → s.dev.fld F.PTP_STATUS_JUMP_PEND = 1 →
      Answers (.ptpOffsetSample x) s (fun e => e.tb = { s.dev.tb with lockRun := 0 } ∧ e.fld F.PTP_STATUS_LOCKED = 0 ∧
        e.fld F.PTP_STATUS_JUMP_PEND = 1 ∧ e.fld F.PTP_STATUS_HOLDOVER = 0 ∧ e.mem = s.dev.mem ∧ e.loom = s.dev.loom ∧
        s.dev.sameRegs e [R.PTP_STATUS, R.LOG_LOST])) ∧
  (∀ (s : State) (x : Word), s.dev.on = true → s.dev.fld F.PTP_CTL_SRC = 1 → s.dev.fld F.PTP_STATUS_HOLDOVER = 0 →
      s.dev.fld F.PTP_STATUS_JUMP_PEND = 0 → s.dev.fld F.PTP_STATUS_LOCKED = 0 →
      s.dev.fld F.PTP_JUMP_LIMIT_LIMIT < (sgn 32 x.toNat).natAbs →
      Answers (.ptpOffsetSample x) s (fun e => e.fld F.PTP_STATUS_JUMP_PEND = 1 ∧
        e.reg R.PTP_JUMP_OFS = -x ∧ e.tb.tb = s.dev.tb.tb ∧ e.tb.rate = s.dev.tb.rate ∧ e.tb.integ = s.dev.tb.integ ∧
        e.log = (s.dev.event bPTP 0 0x901 0).log ∧ e.mem = s.dev.mem ∧ e.loom = s.dev.loom ∧ s.dev.sameRegs e [R.PTP_STATUS, R.PTP_JUMP_OFS, R.LOG_LOST])) ∧
  (∀ s : State, s.dev.on = true → s.dev.fld F.PTP_STATUS_HOLDOVER = 0 → s.dev.fld F.PTP_STATUS_LOCKED = 0 →
      Answers .holdoverTimeout s (fun e => e.fld F.PTP_STATUS_HOLDOVER = 1 ∧ e.tb = { s.dev.tb with lockRun := 0 } ∧
        e.log = (s.dev.event bPTP 0 0x905 0).log ∧ e.mem = s.dev.mem ∧
        e.loom = s.dev.loom ∧ s.dev.sameRegs e [R.PTP_STATUS, R.LOG_LOST])) ∧
  (∀ (s : State) (id : Nat) (t : Word) (q : List (Nat × Word)), s.dev.ringsOn = true → s.dev.tb.txts0 = (id, t) :: q →
      exec (.txtsPop 0) s = .next (s.withDev
        (((s.dev.onTb (fun b => { b with txts0 := q })).setReg R.PTP_TXTS0_ID (BitVec.ofNat 32 (65536 + id))).setReg
          R.PTP_TXTS0_T t)))) ∧
  (
  (∀ s : State, s.dev.ringsOn = true → s.dev.fld F.PTP_STATUS_JUMP_PEND = 1 →
    (sgn 32 (s.dev.reg R.PTP_JUMP_OFS).toNat ≤ 0 ∨ s.dev.trd.gridOn = false ∨ s.dev.fld F.TRD_CTL_MODE ≠ 1) →
    (∀ e < 16, (s.dev.msg e).wait = false) →
    Answers .jumpAccept s (fun e => e.tb.tb = s.dev.tb.tb + s.dev.reg R.PTP_JUMP_OFS ∧ e.tb.rate = 0 ∧ e.tb.integ = 0 ∧
      e.fld F.PTP_STATUS_JUMP_PEND = 0 ∧ e.reg R.PTP_RATE = 0 ∧
      e.trd = { s.dev.trd with timed := e.trd.timed } ∧ (e.trd.timed = true ↔ s.dev.trd.timed = true ∧
        ¬ ((s.dev.ts = tsStarting ∨ s.dev.trd.recovery ≠ 0) ∧ 0 ≤ (e.tb.tb - s.dev.trd.tStart).toInt)) ∧
      e.log = (s.dev.event bPTP 0 0x902 0).log ∧ e.mem = s.dev.mem ∧ e.loom = s.dev.loom ∧
      s.dev.sameRegs e [R.PTP_STATUS, R.PTP_RATE, R.LOG_LOST])) ∧
  (∀ (s : State) (n : Nat), s.dev.ringsOn = true → s.dev.fld F.PTP_STATUS_JUMP_PEND = 1 → 0 < (s.dev.reg R.PTP_JUMP_OFS).toInt →
    s.dev.trd.gridOn = true → s.dev.fld F.TRD_CTL_MODE = 1 → s.dev.fld F.TRD_PERIOD_PERIOD ≠ 0 → s.dev.trd.timed = false →
    s.dev.namedLanes = [] → (∀ e < 16, (s.dev.msg e).wait = false) →
    (s.dev.tb.tb + s.dev.reg R.PTP_JUMP_OFS - s.dev.trd.nextSlot).toInt = Int.ofNat n →
    Answers .jumpAccept s (fun e => e.tb.tb = s.dev.tb.tb + s.dev.reg R.PTP_JUMP_OFS ∧ e.tb.rate = 0 ∧ e.tb.integ = 0 ∧
      e.fld F.PTP_STATUS_JUMP_PEND = 0 ∧ e.fld F.TRD_EVENTS_STEP_SKIP = 1 ∧
      e.trd.nextSlot = s.dev.trd.nextSlot + BitVec.ofNat 32 ((n / s.dev.fld F.TRD_PERIOD_PERIOD + 1) * s.dev.fld F.TRD_PERIOD_PERIOD) ∧
      e.fld F.TRD_HOLD_CNT_COUNT = satAdd 32 (s.dev.fld F.TRD_HOLD_CNT_COUNT) (n / s.dev.fld F.TRD_PERIOD_PERIOD + 1) ∧
      e.log = ((s.dev.event bPTP 0 0x902 0).event bTRD 0 0x906 0).log ∧ e.mem = s.dev.mem ∧ e.loom = s.dev.loom ∧
      s.dev.sameRegs e [R.PTP_STATUS, R.PTP_RATE, R.TRD_EVENTS, R.TRD_HOLD_CNT, R.LOG_LOST])))

/-- Commands of the weave's leader (06 R183, R187, R188; 10 R302; 16 R479). A QUERY is answered with the item, and a peer
START with 0 or the reason of its refusal, by a PEER frame on every link that is open; an accepted one is PENDING as a START is (06 R171):
a member that is behind its leader stays HALTED for its SOLO beat first, which is the model's reading (assumption log 10). A REFUSE takes a STARTING member back, and its reason 4 is shown by a
member with no START. SOLO of a halted member at its own count releases that beat, at once or when its halt inputs are high, its
spilled entries read back and no re-placement runs. A QUERY reply that differs from the leader's own setting refuses the START with reason 4. -/
def Obligations.WeaveCommands : Prop :=
  (∀ (s : State) (src tag item : Nat), s.dev.on = true →
      exec (.query src tag item) s = .next (s.withDev (s.dev.sendAll none 3
        (peerHead s.dev.position src false 0x81 tag) (s.dev.queryItem item) 8))) ∧
  (∀ (s : State) (src tag : Nat) (timed : Bool) (t : Word), s.dev.on = true → s.dev.role = roMember → s.dev.ts = tsIdle →
      Answers (.peerStart src tag timed t) s (fun e => e.ts = tsIdle ∧ e.fld F.TRD_CMD_STATUS_STATUS = 4 ∧
        e.fld F.TRD_CMD_STATUS_REASON = 1 ∧ e.loom = s.dev.loom ∧ e.mem = s.dev.mem ∧ s.dev.sameRegs e [R.TRD_CMD_STATUS] ∧
        ∀ p < 4, s.dev.linkOpen p = true → e.link p =
          (s.dev.link p).take ⟨3, 0, peerHead s.dev.position src false 0x82 tag, 1, 8⟩)) ∧
  (∀ (s : State) (src tag : Nat) (timed : Bool) (t : Word), s.dev.on = true → s.dev.role = roMember → s.dev.panelsAwake = true →
      s.dev.startRefusal true = 0 → (s.dev.fld F.TRD_CTL_MODE = 1 → s.dev.armCompute.arm.2 = true) →
      Answers (.peerStart src tag timed t) s (fun e => s.dev.acceptsStart e timed t ∧
        e.trd.recovery = (if s.dev.ts = tsHalted then 1 else 0) ∧
        ∀ p < 4, s.dev.linkOpen p = true → e.link p =
          (s.dev.link p).take ⟨3, 0, peerHead s.dev.position src false 0x82 tag, 0, 8⟩)) ∧
  (∀ (s : State) (reason : Nat), s.dev.on = true → s.dev.role = roMember → s.dev.ts = tsStarting → reason < 16 →
      s.dev.ldr.bay = none → Answers (.refuse reason) s (fun e => e.ts = (if s.dev.trd.fromHalted then tsHalted else tsArmed) ∧
        e.fld F.TRD_CMD_STATUS_STATUS = 4 ∧ e.fld F.TRD_CMD_STATUS_REASON = reason ∧ e.loom = s.dev.loom ∧ e.mem = s.dev.mem ∧
        s.dev.sameRegs e [R.TRD_STATUS, R.LOM_STATUS, R.TRD_CMD_STATUS])) ∧
  (∀ s : State, s.dev.on = true → s.dev.role = roMember → (s.dev.ts = tsArmed ∨ s.dev.ts = tsHalted) → s.dev.trd.recovery = 0 →
      s.dev.trd.startOwed = none → exec (.refuse 4) s = .next (s.withDev ((s.dev.event bTRD 0 0x235 0).cmdStatus 1 4 4))) ∧
  (∀ (s : State) (beat : Nat), s.dev.on = true → s.dev.role = roMember → s.dev.ts = tsHalted →
      beat = s.dev.loom.beat % 2 ^ 48 → (s.dev.haltPending = true ∨ s.dev.loom.readback ≠ [] ∨ s.dev.ldr.replace ≠ none) →
      exec (.solo beat) s = .next (s.withDev (s.dev.onTrd (fun t => { t with soloDue := true })))) ∧
  (∀ (s : State) (beat : Nat), s.dev.on = true → s.dev.role = roMember → s.dev.ts = tsHalted →
      beat = s.dev.loom.beat % 2 ^ 48 → s.dev.haltPending = false → s.dev.loom.readback = [] → s.dev.ldr.replace = none →
      Answers (.solo beat) s (fun e => e.ts = tsSolo ∧ e.loom.phase = .released ∧ e.loom.beat = s.dev.loom.beat ∧
        e.loom.frozen = s.dev.loom.frozen)) ∧
  (∀ (s : State) (src tag item args : Nat) (left : List (Nat × Nat)) (acc : List Nat) (r : Option (Nat × Nat)),
      s.dev.on = true → s.dev.weft.start = .compare left acc r →
      s.dev.weft.asked = [(tag, 1, item, src)] → args ≠ s.dev.queryItem item → s.dev.trd.fromHalted = false → src ≠ 255 →
      s.dev.ldr.bay = none →
      Answers (.peerReply src 0x81 tag args) s (fun e => e.ts = tsArmed ∧ e.fld F.TRD_CMD_STATUS_CMD = 1 ∧
        e.fld F.TRD_CMD_STATUS_STATUS = 4 ∧ e.fld F.TRD_CMD_STATUS_REASON = 4 ∧ e.weft.start = .idle ∧
        e.loom = s.dev.loom ∧ e.mem = s.dev.mem ∧ s.dev.sameRegs e [R.TRD_STATUS, R.LOM_STATUS, R.TRD_CMD_STATUS, R.LOG_LOST]))

/-- The picks that a heddle executes by itself, with no HAZARD checking (03 R67, R84, R86, R89, R90): PLAIN delivers the truth-table
bit that the operands select; PUT delivers operand A and ORs it into its slot's staging; EDGE delivers 1 where the value is 1 and
was 0 at the end of the previous beat; BRK delivers operand A and, outside HAZARD checking, breaks nothing; a reserved encoding
delivers 0. No hazard, break, register or memory changes, nor any other shed entry.
An encoding that a step's own word shows to be of another kind leaves the state (assumption log 1); which beat a read or a delivery
that the spec does not order belongs to is the model's (assumption log 9).

HAZARD checking (03 R89, R90, R92, R94): a BRK whose value is 1 flags a break and holds entry 0x22A with its PARAM; a reserved
encoding holds entry 0x225 with its opcode and the reason. Both still deliver. The entries are held in the order of the
commands, and sorted at the commit (assumption log 9).

A held result is delivered once nothing holds it back; while something does, it stays held (04 R97, R107; where the spec
leaves open what holds it back: assumption log 9). -/
def Obligations.SingleHeddlePicks : Prop :=
  (
  ∀ (s : State) (gb h k p idx : Nat), s.dev.on = true → s.dev.hazard = false → s.dev.readyAt gb h k p idx →
    (s.dev.kindAt (hnOf gb h) k p = .plain → Answers (.plainPick gb h k) s (fun e =>
      s.dev.delivers e (hnOf gb h) k p (s.dev.loom.pick (hnOf gb h) k p)
        ((PickW.tt (s.dev.loom.pick (hnOf gb h) k p)).testBit idx) ∧ e.loom.putStage = s.dev.loom.putStage ∧ e.loom.hazards = s.dev.loom.hazards ∧
      e.loom.brk = s.dev.loom.brk)) ∧
    (s.dev.kindAt (hnOf gb h) k p = .put → Answers (.put gb h k) s (fun e =>
      s.dev.delivers e (hnOf gb h) k p (s.dev.loom.pick (hnOf gb h) k p) (idx.testBit 0) ∧
      (∀ x, SMap.get 0 e.loom.putStage x =
        if x = 4096 * hnOf gb h + (PickW.fieldOf (s.dev.loom.pick (hnOf gb h) k p) 3 % 16 * 256 +
            PickW.param (s.dev.loom.pick (hnOf gb h) k p))
        then (if idx.testBit 0 = true ∨ SMap.get 0 s.dev.loom.putStage x = 2 then 2 else 1)
        else SMap.get 0 s.dev.loom.putStage x) ∧ e.loom.hazards = s.dev.loom.hazards ∧
      e.loom.brk = s.dev.loom.brk)) ∧
    (s.dev.kindAt (hnOf gb h) k p = .edge → Answers (.edge gb h k) s (fun e =>
      s.dev.delivers e (hnOf gb h) k p (s.dev.loom.pick (hnOf gb h) k p) (idx.testBit 0 &&
        !(SMap.get false s.dev.loom.shed (shedKey (hkOf (hnOf gb h) k) (1 - s.dev.fld F.LOM_STATUS_BANK)
            (PickW.fieldOf (s.dev.loom.pick (hnOf gb h) k p) 0)) != PickW.inv (s.dev.loom.pick (hnOf gb h) k p) 0)) ∧
      e.loom.putStage = s.dev.loom.putStage ∧ e.loom.hazards = s.dev.loom.hazards ∧
      e.loom.brk = s.dev.loom.brk)) ∧
    (s.dev.kindAt (hnOf gb h) k p = .brk → Answers (.brk gb h k) s (fun e =>
      s.dev.delivers e (hnOf gb h) k p (s.dev.loom.pick (hnOf gb h) k p) (idx.testBit 0) ∧ e.loom.putStage = s.dev.loom.putStage ∧ e.loom.hazards = s.dev.loom.hazards ∧
      e.loom.brk = s.dev.loom.brk)) ∧
    ((s.dev.kindAt (hnOf gb h) k p).isReserved = true → Answers (.reservedEncoding gb h k) s (fun e =>
      s.dev.delivers e (hnOf gb h) k p (s.dev.loom.pick (hnOf gb h) k p) false ∧ e.loom.putStage = s.dev.loom.putStage ∧ e.loom.hazards = s.dev.loom.hazards ∧
      e.loom.brk = s.dev.loom.brk))) ∧
  (
  ∀ (s : State) (gb h k p idx : Nat), s.dev.on = true → s.dev.hazard = true → s.dev.readyAt gb h k p idx →
    (s.dev.kindAt (hnOf gb h) k p = .brk → idx.testBit 0 = true →
      PickW.fieldOf (s.dev.loom.pick (hnOf gb h) k p) 0 < 0x800 → Answers (.brk gb h k) s (fun e =>
      s.dev.delivers e (hnOf gb h) k p (s.dev.loom.pick (hnOf gb h) k p) true ∧ e.loom.brk = true ∧
      e.loom.hazards = s.dev.loom.hazards ++ [⟨hnOf gb h / 64, 0x22A, p, hnOf gb h % 64, k, 0,
        PickW.param (s.dev.loom.pick (hnOf gb h) k p)⟩])) ∧
    (∀ reason, s.dev.kindAt (hnOf gb h) k p = .reserved reason → Answers (.reservedEncoding gb h k) s (fun e =>
      s.dev.delivers e (hnOf gb h) k p (s.dev.loom.pick (hnOf gb h) k p) false ∧
      e.loom.hazards = s.dev.loom.hazards ++ [⟨hnOf gb h / 64, 0x225, p, hnOf gb h % 64, k, 0,
        PickW.op (s.dev.loom.pick (hnOf gb h) k p) * 16 + reason⟩]))) ∧
  (
  ∀ (s : State) (gb h k p v : Nat), s.dev.on = true → s.dev.loom.phase = .running →
    SMap.get 0 s.dev.loom.done (hkOf (hnOf gb h) k) = p → SMap.get 0 s.dev.loom.held (hkOf (hnOf gb h) k) = v + 1 → v < 2 →
    (s.dev.deliverWait (hnOf gb h) k p (s.dev.loom.pick (hnOf gb h) k p) = 0 → Answers (.windowDelivery gb h k) s (fun e =>
      s.dev.delivers e (hnOf gb h) k p (s.dev.loom.pick (hnOf gb h) k p) (v == 1) ∧
      SMap.get 0 e.loom.held (hkOf (hnOf gb h) k) = 0)) ∧
    (s.dev.deliverWait (hnOf gb h) k p (s.dev.loom.pick (hnOf gb h) k p) ≠ 0 → Answers (.windowDelivery gb h k) s (fun e =>
      e.loom.shed = s.dev.loom.shed ∧ e.loom.done = s.dev.loom.done ∧ e.loom.win = s.dev.loom.win ∧
      SMap.get 0 e.loom.held (hkOf (hnOf gb h) k) = v + 1 ∧ e.regs = s.dev.regs ∧ e.mem = s.dev.mem)))

/-- The harness handshake closes when the last heddle's reads are satisfied (03 R75): every heddle's operands are latched and count as
fetched, and no result is delivered yet.

The result of a harness-wide pick whose words go to no window, lane or tap (03 R75, R76): every heddle's shed entry of the pick
takes its bit of the word, or 0 where its word did not match; no other shed entry, and no register and no memory, changes. -/
def Obligations.HarnessWideHandshakes : Prop :=
  (
  ∀ (s : State) (gb h p : Nat), s.dev.on = true → s.dev.hazard = false → s.dev.widePick gb h = some p →
    SMap.get 0 s.dev.loom.closed (hnOf gb h) ≠ p + 1 →
    (∀ k < 32, (s.dev.readFields (hnOf gb h) k p (s.dev.loom.pick (hnOf gb h) k p) (s.dev.wideFields (hnOf gb h) k p)).1 = 0 ∧
      s.dev.loom.jacRead (jacKey (hnOf gb h) k p) = .clean 0) →
    Answers (.harnessHandshakeClose gb h) s (fun e => SMap.get 0 e.loom.closed (hnOf gb h) = p + 1 ∧
      (∀ k < 32, SMap.get 0 e.loom.operands (hkOf (hnOf gb h) k) = 1 +
        (s.dev.readFields (hnOf gb h) k p (s.dev.loom.pick (hnOf gb h) k p) (s.dev.wideFields (hnOf gb h) k p)).2 ∧
        SMap.get 0 e.loom.fetched (hkOf (hnOf gb h) k) = p + 1) ∧
      e.loom.shed = s.dev.loom.shed ∧ e.loom.done = s.dev.loom.done ∧ e.loom.win = s.dev.loom.win ∧
      e.loom.bj = s.dev.loom.bj ∧ e.loom.dj = s.dev.loom.dj ∧ e.regs = s.dev.regs ∧ e.mem = s.dev.mem)) ∧
  (
  ∀ (d : Dev) (hn p r : Nat),
    (∀ k < 32, PickW.toWin (d.loom.pick hn k p) = false ∧ PickW.toLane (d.loom.pick hn k p) = false ∧
      PickW.tap (d.loom.pick hn k p) = false) →
    (∀ k < 32, SMap.get false (d.wideDeliver hn p r).loom.shed (shedKey (hkOf hn k) (d.fld F.LOM_STATUS_BANK) p) =
        (d.kindAt hn k p == .wide true && r.testBit k) ∧ SMap.get 0 (d.wideDeliver hn p r).loom.done (hkOf hn k) = p + 1) ∧
    (∀ x, (∀ k < 32, x ≠ shedKey (hkOf hn k) (d.fld F.LOM_STATUS_BANK) p) →
      SMap.get false (d.wideDeliver hn p r).loom.shed x = SMap.get false d.loom.shed x) ∧
    (d.wideDeliver hn p r).loom.win = d.loom.win ∧ (d.wideDeliver hn p r).loom.bj = d.loom.bj ∧
    (d.wideDeliver hn p r).loom.dj = d.loom.dj ∧ SMap.get 0 (d.wideDeliver hn p r).loom.closed hn = 0 ∧
    (d.wideDeliver hn p r).regs = d.regs ∧ (d.wideDeliver hn p r).mem = d.mem)

/-- MRD, MWR, DWR and FAIL at a closed handshake (03 R77, R78, R82, R88; 05 R129). MRD brings the stored word of the beam memory; a
write or record whose enable is 1 enters its journal, or the fail staging, with the latched address and data, and one whose enable
is 0 enters nothing; each brings its data as the result. -/
def Obligations.HarnessWideOperations : Prop :=
  ∀ (s : State) (gb h p : Nat), s.dev.on = true →
    (s.dev.closedPick gb h opMRD = some p →
      s.dev.memBad (beamMemAddr gb (s.dev.loom.latchedWord (hnOf gb h) 0 18)) 1 = false →
      s.dev.memCorrected (beamMemAddr gb (s.dev.loom.latchedWord (hnOf gb h) 0 18)) = false →
      exec (.mrd gb h) s = .next (s.withDev (s.dev.wideDeliver (hnOf gb h) p
        (s.dev.eword (beamMemAddr gb (s.dev.loom.latchedWord (hnOf gb h) 0 18))).toNat))) ∧
    (s.dev.closedPick gb h opMWR = some p → s.dev.loom.latched (hnOf gb h) 0 2 = true →
      s.dev.journalHeld gb false = false →
      exec (.mwr gb h) s = .next (s.withDev ((s.dev.onLoom (fun l => { l with
        bj := l.bj ++ [⟨gb, h, p, l.latchedWord (hnOf gb h) 0 18, BitVec.ofNat 32 (l.latchedWord (hnOf gb h) 1 32), false⟩] })).wideDeliver
          (hnOf gb h) p (s.dev.loom.latchedWord (hnOf gb h) 1 32)))) ∧
    (s.dev.closedPick gb h opMWR = some p → s.dev.loom.latched (hnOf gb h) 0 2 = false →
      exec (.mwr gb h) s = .next (s.withDev (s.dev.wideDeliver (hnOf gb h) p (s.dev.loom.latchedWord (hnOf gb h) 1 32)))) ∧
    (s.dev.closedPick gb h opDWR = some p → s.dev.hazard = false → Win.valid (s.dev.loom.win64 gb) = true →
      s.dev.loom.latched (hnOf gb h) 0 2 = true → s.dev.journalHeld gb true = false →
      s.dev.loom.tabRead (tabKey gb none) = .clean 0 →
      exec (.dwr gb h) s = .next (s.withDev ((s.dev.onLoom (fun l => { l with
        dj := l.dj ++ [⟨gb, h, p, l.latchedWord (hnOf gb h) 0 32, BitVec.ofNat 32 (l.latchedWord (hnOf gb h) 1 32), false⟩] })).wideDeliver
          (hnOf gb h) p (s.dev.loom.latchedWord (hnOf gb h) 1 32)))) ∧
    (s.dev.closedPick gb h opDWR = some p → s.dev.hazard = false → Win.valid (s.dev.loom.win64 gb) = true →
      s.dev.loom.latched (hnOf gb h) 0 2 = false →
      exec (.dwr gb h) s = .next (s.withDev (s.dev.wideDeliver (hnOf gb h) p (s.dev.loom.latchedWord (hnOf gb h) 1 32)))) ∧
    (s.dev.closedPick gb h opFAIL = some p → s.dev.loom.latched (hnOf gb h) 0 2 = true →
      s.dev.loom.latchedWord (hnOf gb h) 1 32 ≠ 0 → (s.dev.loom.failStage.filter (fun r => r.gb == gb)).length < 32 →
      exec (.fail gb h) s = .next (s.withDev ((s.dev.onLoom (fun l => { l with
        failStage := l.failStage ++ [⟨PickW.param (l.pick (hnOf gb h) 0 p), l.latchedWord (hnOf gb h) 0 32,
          BitVec.ofNat 32 (l.latchedWord (hnOf gb h) 1 32), l.beat, p, gb, h⟩] })).wideDeliver (hnOf gb h) p
          (s.dev.loom.latchedWord (hnOf gb h) 1 32)))) ∧
    (s.dev.closedPick gb h opFAIL = some p →
      (s.dev.loom.latched (hnOf gb h) 0 2 = false ∨ s.dev.loom.latchedWord (hnOf gb h) 1 32 = 0) →
      exec (.fail gb h) s = .next (s.withDev (s.dev.wideDeliver (hnOf gb h) p (s.dev.loom.latchedWord (hnOf gb h) 1 32))))

/-- DRD at a closed handshake, with no HAZARD checking and a window descriptor stored right (03 R80; 05 R132, R135, R139): a stalling read that misses the line buffer is
in flight with the beat's number, and one that hits brings the committed word at once; a delayed read brings the word of the
previous beat's read of the pick and issues its own.

HBM returns the word of a deep read in flight (03 R80; 05 R139, R140): the read is no longer in flight, its line is the newest of
the line buffer, and the read is served with the committed word: the word of a delayed read is kept for the next beat. Registers
and memory stay. -/
def Obligations.DeepReadsAndTheirReturn : Prop :=
  (
  ∀ (s : State) (gb h p : Nat) (r : DeepRead), s.dev.on = true → s.dev.hazard = false →
    s.dev.closedPick gb h opDRD = some p → Win.valid (s.dev.loom.win64 gb) = true → s.dev.loom.inFlight gb < 64 →
    r = ⟨gb, h, p, s.dev.loom.latchedWord (hnOf gb h) 0 32, (PickW.param (s.dev.loom.pick (hnOf gb h) 0 p)).testBit 0,
      s.dev.loom.beat, false⟩ → s.dev.loom.deepReads.contains r = false → s.dev.loom.tabRead (tabKey gb none) = .clean 0 →
    (r.delayed = false → (Win.mailbox (s.dev.loom.win64 gb) = true ∨
        s.dev.loom.lineHit gb (Win.addr (s.dev.loom.win64 gb) r.idx) = false) →
      exec (.drd gb h) s = .next (s.withDev (s.dev.onLoom (fun l => { l with deepReads := l.deepReads ++ [r] })))) ∧
    (r.delayed = false → Win.mailbox (s.dev.loom.win64 gb) = false →
        s.dev.loom.lineHit gb (Win.addr (s.dev.loom.win64 gb) r.idx) = true →
      exec (.drd gb h) s = .next (s.withDev
        ((s.dev.useLine gb (Win.addr (s.dev.loom.win64 gb) r.idx)).wideDeliver (hnOf gb h) p
          (s.dev.deepValue (Win.addr (s.dev.loom.win64 gb) r.idx) s.dev.loom.beat).toNat))) ∧
    (∀ v : Word, r.delayed = true → s.dev.loom.bayFirst gb = false →
        SMap.get 0 s.dev.loom.dly ((2048 * hnOf gb h + p) * 2 + (s.dev.loom.beat + 1) % 2) = 2 ^ 32 + v.toNat →
      exec (.drd gb h) s = .next (s.withDev ((s.dev.issueRead r).wideDeliver (hnOf gb h) p v.toNat)))) ∧
  (
  ∀ (s : State) (r : DeepRead) (l : List DeepRead), s.dev.ringsOn = true → s.dev.loom.deepReads = r :: l →
    Win.mailbox (s.dev.loom.win64 r.gb) = false → s.dev.memBad (Win.addr (s.dev.loom.win64 r.gb) r.idx) 1 = false →
    s.dev.memCorrected (Win.addr (s.dev.loom.win64 r.gb) r.idx) = false →
    s.dev.eccTest (Win.addr (s.dev.loom.win64 r.gb) r.idx) = false →
    (exec (.deepReadReturn r.gb r.h r.pick) s = .next (s.withDev
      ((((s.dev.onLoom (fun x => { x with deepReads := l })).occAccess (Win.addr (s.dev.loom.win64 r.gb) r.idx)).useLine r.gb
        (Win.addr (s.dev.loom.win64 r.gb) r.idx)).serve r
          (s.dev.deepValue (Win.addr (s.dev.loom.win64 r.gb) r.idx) r.beat)))) ∧
    Answers (.deepReadReturn r.gb r.h r.pick) s (fun e => e.loom.deepReads = l ∧
      (SMap.get [] e.loom.lines r.gb).head? = some (Win.addr (s.dev.loom.win64 r.gb) r.idx / 256) ∧
      e.regs = s.dev.regs ∧ e.mem = s.dev.mem ∧
      (r.delayed = true → r.aborted = false → e.loom.done = s.dev.loom.done ∧ e.loom.shed = s.dev.loom.shed ∧
        SMap.get 0 e.loom.dly ((2048 * hnOf r.gb r.h + r.pick) * 2 + r.beat % 2) =
          2 ^ 32 + (s.dev.deepValue (Win.addr (s.dev.loom.win64 r.gb) r.idx) r.beat).toNat)))

/-- A beam-out lane closes when its four heddles have completed the pick (04 R100 to R102): it carries the OR of its drivers' values,
under LANE_MERGE 1 the AND, and 0 without a driver; two drivers or more are a merge, held with the attempt. Every other lane, the
shed entries, the completed picks, beam receive, the registers and memory stay.

A pull (04 R104, R105): the next arrival pick q of a harness takes, for each beam-in lane, the closed lane that its route word
selects at pick q - L, and 0 where q < L. The other slots of beam receive, the other harnesses' pulls, the shed entries, the
completed picks, the lanes, the registers and memory stay. -/
def Obligations.LanesCloseAndPullsFill : Prop :=
  (
  ∀ (s : State) (gb h j p : Nat), s.dev.on = true → s.dev.loom.phase = .running → gb < 128 → h < 64 →
    s.dev.active (hnOf gb h) = true → j < 8 → p < s.dev.depth →
    SMap.get 0 s.dev.loom.lanes ((2048 * hnOf gb h + p) * 8 + j) = 0 →
    (∀ k ∈ [j, j + 8, j + 16, j + 24], p < SMap.get 0 s.dev.loom.done (hkOf (hnOf gb h) k)) →
    Answers (.beamOutLaneClose gb h j p) s (fun e =>
      SMap.get 0 e.loom.lanes ((2048 * hnOf gb h + p) * 8 + j) = 1 + b2n
        (if s.dev.fld (F.DRW_HCFG_LANE_MERGE.at (hnOf gb h)) = 1 then
          !(s.dev.loom.drivers (hnOf gb h) j p).isEmpty && (s.dev.loom.drivers (hnOf gb h) j p).all (fun k =>
            SMap.get false s.dev.loom.shed (shedKey (hkOf (hnOf gb h) k) (s.dev.fld F.LOM_STATUS_BANK) p))
        else (s.dev.loom.drivers (hnOf gb h) j p).any (fun k =>
            SMap.get false s.dev.loom.shed (shedKey (hkOf (hnOf gb h) k) (s.dev.fld F.LOM_STATUS_BANK) p))) ∧
      (∀ x, x ≠ (2048 * hnOf gb h + p) * 8 + j → SMap.get 0 e.loom.lanes x = SMap.get 0 s.dev.loom.lanes x) ∧
      e.loom.merges = s.dev.loom.merges ++ (if (s.dev.loom.drivers (hnOf gb h) j p).length < 2 then []
        else [⟨gb, h, p, j, (s.dev.loom.drivers (hnOf gb h) j p).headD 0⟩]) ∧
      e.loom.shed = s.dev.loom.shed ∧ e.loom.done = s.dev.loom.done ∧ e.loom.brx = s.dev.loom.brx ∧
      e.regs = s.dev.regs ∧ e.mem = s.dev.mem)) ∧
  (
  ∀ (s : State) (gb h q : Nat), s.dev.on = true → s.dev.loom.phase = .running → gb < 128 → h < 64 →
    s.dev.active (hnOf gb h) = true → SMap.get 0 s.dev.loom.pulls (hnOf gb h) = q → q < s.dev.depth →
    s.dev.loom.jacRead (jacKey (hnOf gb h) 32 q) = .clean 0 →
    (s.dev.latOf (hnOf gb h) ≤ q → ∀ j < 8, SMap.get 0 s.dev.loom.lanes ((2048 * hnOf gb
      (routeSel (s.dev.loom.route (hnOf gb h) q) j).1 + (q - s.dev.latOf (hnOf gb h))) * 8 +
        (routeSel (s.dev.loom.route (hnOf gb h) q) j).2) ≠ 0) →
    (s.dev.latOf (hnOf gb h) ≤ q → ∀ k < 32, s.dev.readsBrx (hnOf gb h) k = false ∨
      q ≤ SMap.get 0 s.dev.loom.fetched (hkOf (hnOf gb h) k)) →
    Answers (.pull gb h) s (fun e => SMap.get 0 e.loom.pulls (hnOf gb h) = q + 1 ∧
      (∀ j < 8, SMap.get false e.loom.brx (256 * hnOf gb h + (q % 32 * 8 + j)) =
        (decide (s.dev.latOf (hnOf gb h) ≤ q) && SMap.get 0 s.dev.loom.lanes ((2048 * hnOf gb
          (routeSel (s.dev.loom.route (hnOf gb h) q) j).1 + (q - s.dev.latOf (hnOf gb h))) * 8 +
            (routeSel (s.dev.loom.route (hnOf gb h) q) j).2) == 2)) ∧
      (∀ x, (∀ j < 8, x ≠ 256 * hnOf gb h + (q % 32 * 8 + j)) →
        SMap.get false e.loom.brx x = SMap.get false s.dev.loom.brx x) ∧
      (∀ x, x ≠ hnOf gb h → SMap.get 0 e.loom.pulls x = SMap.get 0 s.dev.loom.pulls x) ∧
      e.loom.shed = s.dev.loom.shed ∧ e.loom.done = s.dev.loom.done ∧ e.loom.lanes = s.dev.loom.lanes ∧
      e.regs = s.dev.regs ∧ e.mem = s.dev.mem))

/-- The loom rings (04 R108 to R111, R116, R117). An INJECT or WEFT_OUT entry whose lanes have closed puts its bundle onto its ring
at its stop, once; a bundle that nothing at its stop has still to copy moves to the next stop, and a local one ends where it was
injected; an EXTRACT entry takes the value of a bundle of its flow that stands at its stop; a WEFT_OUT bundle at the gateway
enters its link's send queue with its beat, its flow and its value. Here of entries that are stored right. The equations say all that changes
(after a hop the treadle notes its readiness, where that was the last condition: 06 R161); an
EXTRACT changes no other loom-receive slot, shed entry or weft staging, no register and no memory. -/
def Obligations.RingsCarryBundles : Prop :=
  (∀ (s : State) (gb e : Nat) (w : Word64), s.dev.on = true → s.dev.loom.phase = .running → gb < 128 → e < 1024 →
    SMap.get 0 s.dev.loom.slots (1024 * gb + e) = w → Slot.valid w = true →
    s.dev.active (hnOf gb (Slot.harness w)) = true → s.dev.loom.injWaits (1024 * gb + e, w) = true →
    s.dev.loom.tabRead (1024 * gb + e) = .clean 0 →
    exec (.ringInject gb e) s = .next (s.withDev (s.dev.onLoom (fun l => { l with
      injected := SMap.put false l.injected (1024 * gb + e) true
      bundles := l.bundles ++ [⟨Slot.ring w, Slot.kind w == kWEFT_OUT, if Slot.kind w = kWEFT_OUT then Slot.link w else 0, false,
        Slot.flow w, l.laneBundle (hnOf gb (Slot.harness w)) (Slot.pick w), l.pgb gb, l.pgb gb, []⟩] })))) ∧
  (∀ (s : State) (i : Nat) (b : Bundle), s.dev.on = true → s.dev.loom.bundles[i]? = some b → s.dev.loom.untaken b = false →
    b.weft = false → b.fromGw = false →
    exec (.ringHop i) s = .next (s.withDev (s.dev.onLoom (fun l => { l with
      bundles := if ringNext b.ring b.stop = b.origin then l.bundles.eraseIdx i
        else l.bundles.set i { b with stop := ringNext b.ring b.stop, taken := [] } })).noteReady)) ∧
  (∀ (s : State) (gb e : Nat) (w : Word64) (b : Bundle), s.dev.on = true → gb < 128 → e < 1024 →
    SMap.get 0 s.dev.loom.slots (1024 * gb + e) = w → Slot.valid w = true → Slot.kind w = kEXTRACT →
    s.dev.beamOut gb = false → s.dev.loom.bundles = [b] → b.stop = s.dev.loom.pgb gb → takes w b = true →
    b.taken.contains (1024 * gb + e) = false → s.dev.loom.tabRead (1024 * gb + e) = .clean 0 →
    Answers (.ringExtract gb e) s (fun x =>
      SMap.get 0 x.loom.lrx (32 * hnOf gb (Slot.harness w) + Slot.bundle w) = 256 + b.val ∧
      (∀ y, y ≠ 32 * hnOf gb (Slot.harness w) + Slot.bundle w → SMap.get 0 x.loom.lrx y = SMap.get 0 s.dev.loom.lrx y) ∧
      x.loom.bundles = [{ b with taken := (1024 * gb + e) :: b.taken }] ∧ x.loom.shed = s.dev.loom.shed ∧
      x.loom.wstage = s.dev.loom.wstage ∧ x.regs = s.dev.regs ∧ x.mem = s.dev.mem)) ∧
  (∀ (s : State) (i : Nat) (b : Bundle), s.dev.on = true → s.dev.loom.bundles[i]? = some b → b.weft = true → b.fromGw = false →
    b.stop = gwStop b.ring → (s.dev.joins b.link).isSome = true → s.dev.linkState (s.dev.physLink b.link) ≠ 5 →
    (s.dev.link (s.dev.physLink b.link)).bytes + 13 * ((s.dev.link (s.dev.physLink b.link)).sendq.length + 1) ≤ 65536 →
    (s.dev.link (s.dev.physLink b.link)).due = [] →
    exec (.weftGatewayHandoff i) s = .next (s.withDev
      ((s.dev.onLoom (fun l => { l with bundles := l.bundles.eraseIdx i })).onLink (s.dev.physLink b.link) (fun w => { w with
        sendq := w.sendq.filter (fun y => !(y.1 == s.dev.loom.beat % 16 && y.2.1 == b.flow)) ++
          [(s.dev.loom.beat % 16, b.flow, b.val)] }))))

/-- The release of a beat or of a rerun (02 R28, R33, R41; 06 R159). A rerun starts the attempt afresh with the beat, the treadle, the
windows and the registers as they are. With every release condition met the treadle goes from WAITING or STARTING to BEAT, and the
attempt is released with nothing done; the committed count and memory stay. The release that reaches the heddles starts the
attempt; in a rerun the windows stay as frozen. -/
def Obligations.BeatIsReleased : Prop :=
  (∀ s : State, s.dev.on = true → s.dev.inBeat = true → s.dev.loom.phase = .rerun → Answers .beatRelease s (fun e =>
      e.loom.phase = .released ∧ e.loom.done = [] ∧ e.loom.fetched = [] ∧ e.loom.bj = [] ∧ e.loom.dj = [] ∧
      e.loom.beat = s.dev.loom.beat ∧ e.loom.shed = s.dev.loom.shed ∧ e.loom.portIn = s.dev.loom.portIn ∧
      e.loom.frozen = s.dev.loom.frozen ∧ e.regs = s.dev.regs ∧ e.mem = s.dev.mem ∧ e.log = s.dev.log)) ∧
  (∀ s : State, s.dev.on = true → (s.dev.ts = tsWaiting ∨ s.dev.ts = tsStarting) → s.dev.unmet = 0 →
      Answers .beatRelease s (fun e => e.ts = tsBeat ∧ e.loom.phase = .released ∧ e.loom.done = [] ∧ e.loom.bj = [] ∧
        e.loom.dj = [] ∧ e.loom.solo = false ∧ e.loom.beat = s.dev.loom.beat ∧ e.loom.shed = s.dev.loom.shed ∧
        e.fld F.LOM_STATUS_HALT_CAUSE = 0 ∧ e.fld F.LOM_STATUS_ATTEMPT = 0 ∧ e.fld F.LOM_STATUS_REPAIRED = 0 ∧
        e.trd.relTb = s.dev.tb.tb ∧ e.mem = s.dev.mem)) ∧
  (∀ (s : State) (gpio : Nat), s.dev.on = true → s.dev.loom.phase = .released → s.dev.loom.frozen = true →
      exec (.releaseReachesHeddles gpio) s = .next (s.withDev
        (({ s.dev with plat := { s.dev.plat with gpioIn := gpio % 2 ^ 48 } }).onLoom (fun l => { l with phase := .running })))) ∧
  (∀ (s : State) (gpio : Nat), s.dev.on = true → s.dev.loom.phase = .released → s.dev.loom.frozen = false →
      Answers (.releaseReachesHeddles gpio) s (fun e => e.loom.phase = .running ∧ e.loom.frozen = true ∧
        e.loom.busyL = s.dev.loom.busyAcc ∧ e.loom.wnext = [] ∧ e.loom.shed = s.dev.loom.shed ∧
        e.plat.gpioIn = gpio % 2 ^ 48 ∧ e.mem = s.dev.mem))

/-- The tap FIFOs and the fail staging drain oldest first, beam by beam (03 R69, R88; 11 R328, R345); an attempt with every item of
02 R34 done is complete.

The commit of a complete beat n with no halt due (02 R33, R35, R37; 03 R79): the committed count is n + 1, the shed banks
exchange, memory is as the beam journal leaves it, every journal and held hazard is used up, the attempt is over, and the treadle
WAITS for the next release. -/
def Obligations.CommitAdvancesTheBeat : Prop :=
  (
  (∀ (s : State) (gb : Nat) (t : TapBit) (r : List TapBit), s.dev.on = true → s.dev.loom.taps = t :: r → t.gb = gb →
      exec (.tapFifoDrain gb) s = .next (s.withDev (s.dev.onLoom (fun l => { l with
        taps := r
        tapStage := if s.dev.cap.probes.any (fun e => Pb.names e t && s.dev.capMode (Pb.unit e) != 0) then l.tapStage ++ [t]
          else l.tapStage })))) ∧
  (∀ (s : State) (gb : Nat) (x : FailRec) (r : List FailRec), s.dev.on = true → s.dev.loom.failStage = x :: r → x.gb = gb →
      x.beat = s.dev.loom.beat → s.dev.heldRecords < 16384 →
      exec (.failStagingDrain gb) s = .next (s.withDev (s.dev.onLoom (fun l => { l with
        failStage := r, failHeld := l.failHeld ++ [x] })))) ∧
  (∀ s : State, s.dev.on = true → s.dev.loom.phase = .running → s.dev.attemptDone = true →
      exec .reedComplete s = .next (s.withDev (s.dev.onLoom (fun l => { l with phase := .complete })))) ∧
  (∀ s : State, s.dev.on = true → (s.dev.loom.phase ≠ .running ∨ s.dev.attemptDone = false) → exec .reedComplete s = .next s)) ∧
  (
  ∀ s : State, s.dev.on = true → s.dev.ts = tsBeat → s.dev.loom.phase = .complete → s.dev.loom.haltReq = none →
    s.dev.loom.brk = false → s.dev.loom.atCommit = [] →
    Answers .commit s (fun e => e.loom.beat = s.dev.loom.beat + 1 ∧ e.loom.phase = .none ∧ e.ts = tsWaiting ∧
      e.fld F.LOM_STATUS_BANK = 1 - s.dev.fld F.LOM_STATUS_BANK ∧
      e.fld F.LRG_DISCARD_CNT_COUNT = satAdd 32 (s.dev.fld F.LRG_DISCARD_CNT_COUNT) s.dev.loom.since.discards ∧ e.mem = s.dev.applyBeam.mem ∧ e.loom.bj = [] ∧
      e.loom.dj = [] ∧ e.loom.hazards = [] ∧ e.loom.merges = [] ∧ e.loom.shed = s.dev.loom.shed ∧
      (∀ x, x ∉ s.dev.loom.putStage.map Prod.fst → SMap.get false e.loom.puts x = SMap.get false s.dev.loom.puts x) ∧
      e.loom.jac = s.dev.loom.jac ∧ e.loom.slots = s.dev.loom.slots))

/-- A fault found while the attempt runs (02 R38, R41, R49, R50), in a stored word or shed group that is wrong, be it by bits that flip
with it, or by the shadow: the attempt stops, LOM_STATUS.STATE is 3, LOM_LAST_FAULT names
its position and LOM_LAST_FAULT_X its kind; memory and the committed count stay. A stall is flagged at the slowest heddle, which
LOM_STALL_POS names with its harness, beam and pick; at which pick where every heddle has completed all of them, and which heddle of
several, is the model's choice (assumption log 9).

What follows a fault (02 R41, R42, R45, R46, R48). The abort discards the attempt's held effects, counts the loom-ring bundles
discarded, for the next commit, and a retry, and marks its deep reads. A pick fixed
from the image cache on a first attempt is followed by a rerun with the attempt counted. A shed group that must be rebuilt is, from its
check words, and where that is impossible the device halts with cause 7. A heddle repair puts PK32 in the heddle's
place, counts it, and is followed by a rerun from attempt 0; LOM_REPAIR_CNT counts it. A fault with retry off halts the device with cause 7.
The order of a rebuild and of the rerun is the model's where the spec leaves it open (assumption log 9). -/
def Obligations.FaultsAreTreated : Prop :=
  (
  (∀ (s : State) (f : FaultRec) (hits : List Hit) (d : Dev), s.dev.on = true → d = s.dev.hitAll hits →
      s.dev.loom.phase = .running → f.gb < 128 → f.h < 64 → f.k < 32 → f.group < 32 → f.pick < s.dev.depth →
      s.dev.active (hnOf f.gb f.h) = true → d.faultFound f = true →
      Answers (.faultFlag ⟨f, hits⟩) s (fun e => e.loom.phase = .faulted ∧ e.loom.fault = some f ∧ e.fld F.LOM_STATUS_STATE = 3 ∧
        e.reg R.LOM_LAST_FAULT = BitVec.ofNat 32 (posOf f.gb f.h f.k f.pick) ∧ e.fld F.LOM_LAST_FAULT_X_KIND = f.kind % 16 ∧
        e.fld F.LOM_LAST_FAULT_X_BEAT = s.dev.loom.beat % 2 ^ 24 ∧ e.mem = s.dev.mem ∧
        e.loom.beat = s.dev.loom.beat ∧ e.loom.shed = s.dev.loom.shed ∧ e.log = s.dev.log ∧
        s.dev.sameRegs e [R.LOM_LAST_FAULT, R.LOM_LAST_FAULT_X, R.LOM_STATUS])) ∧
  (∀ (s : State) (f : FaultRec) (hn st p : Nat) (x : StoredWord), s.dev.on = true → 128 ≤ f.gb → hn < 8192 → st < 33 → p < 2048 →
      exec (.faultFlag ⟨f, [.word hn st p x]⟩) s = .next (s.withDev (s.dev.onLoom (fun l => { l with
        jacFlip := SMap.put 0 l.jacFlip (jacKey hn st p) (SMap.get 0 l.jacFlip (jacKey hn st p) ^^^ x) })))) ∧
  (∀ (s : State) (x : Nat × Nat), s.dev.on = true → s.dev.loom.phase = .running → s.dev.slowest = some x → x.1 < 8192 → x.2 < 32 →
      Answers .stallWatchdogExpiry s (fun e => e.loom.phase = .faulted ∧ e.fld F.LOM_STATUS_STATE = 3 ∧
        e.loom.fault = some ⟨5, x.1 / 64, x.1 % 64, x.2, min (SMap.get 0 s.dev.loom.done (hkOf x.1 x.2)) 2047, 0⟩ ∧
        e.fld F.LOM_STALL_POS_GB = x.1 / 64 ∧ e.fld F.LOM_STALL_POS_HARNESS = x.1 % 64 ∧ e.fld F.LOM_STALL_POS_HEDDLE = x.2 ∧
        e.fld F.LOM_STALL_POS_PICK = min (SMap.get 0 s.dev.loom.done (hkOf x.1 x.2)) 2047 ∧ e.fld F.LOM_LAST_FAULT_X_KIND = 5 ∧
        e.mem = s.dev.mem ∧ e.loom.beat = s.dev.loom.beat ∧ e.loom.shed = s.dev.loom.shed ∧ e.log = s.dev.log ∧
        s.dev.sameRegs e [R.LOM_LAST_FAULT, R.LOM_LAST_FAULT_X, R.LOM_STATUS, R.LOM_STALL_POS]))) ∧
  (
  (∀ (s : State) (f : FaultRec), s.dev.on = true → s.dev.loom.phase = .faulted → s.dev.loom.memFault = none →
      s.dev.loom.fault = some f → s.dev.fld F.LOM_RETRY_CFG_EN ≠ 0 →
      Answers .attemptAbort s (fun e => e.loom.phase = .fixing ∧ e.loom.bj = [] ∧ e.loom.dj = [] ∧ e.loom.hazards = [] ∧
        e.loom.merges = [] ∧ e.loom.putStage = [] ∧ e.loom.taps = [] ∧ e.loom.brk = false ∧ e.loom.fault = some f ∧
        e.loom.beat = s.dev.loom.beat ∧ e.mem = s.dev.mem ∧ e.fld F.LOM_EVENTS_RETRY = 1 ∧
        e.fld F.LOM_RETRY_CNT_COUNT = satAdd 32 (s.dev.fld F.LOM_RETRY_CNT_COUNT) 1 ∧
        e.loom.since.discards = s.dev.loom.since.discards + s.dev.loom.discarded ∧
        (∀ r ∈ e.loom.deepReads, r.beat = s.dev.loom.beat → r.aborted = true) ∧
        e.loom.deepReads.length = s.dev.loom.deepReads.length ∧
        s.dev.sameRegs e [R.LOM_RETRY_CNT, R.LOM_EVENTS])) ∧
  (∀ (s : State) (f : FaultRec), s.dev.on = true → s.dev.loom.phase = .faulted → s.dev.loom.memFault = none →
      s.dev.loom.fault = some f → s.dev.fld F.LOM_RETRY_CFG_EN = 0 → s.dev.role = roSingle →
      Answers .attemptAbort s (fun e => e.ts = tsHalted ∧ e.fld F.LOM_STATUS_HALT_CAUSE = 7 ∧ e.loom.phase = .none ∧
        e.fld F.LOM_EVENTS_HALT = 1 ∧ e.alerts.testBit alHalt = true ∧ e.loom.beat = s.dev.loom.beat)) ∧
  (∀ (s : State) (f : FaultRec), s.dev.on = true → s.dev.loom.phase = .fixing → s.dev.loom.fault = some f → f.kind = 0 →
      SMap.get false s.dev.loom.cacheBad (jacKey (hnOf f.gb f.h) f.k f.pick) = false →
      s.dev.fld F.LOM_STATUS_ATTEMPT < min 2 (s.dev.fld F.LOM_RETRY_CFG_MAX) →
      Answers .fixComplete s (fun e => e.loom.phase = .rerun ∧
        e.fld F.LOM_STATUS_ATTEMPT = s.dev.fld F.LOM_STATUS_ATTEMPT + 1 ∧
        e.loom.jacRead (jacKey (hnOf f.gb f.h) f.k f.pick) = .clean 0 ∧ e.loom.jac = s.dev.loom.jac ∧ e.mem = s.dev.mem ∧
        e.loom.beat = s.dev.loom.beat ∧ s.dev.sameRegs e [R.LOM_STATUS, R.LOG_LOST])) ∧
  (∀ (s : State) (f : FaultRec) (d : Dev), s.dev.on = true → s.dev.loom.phase = .fixing → s.dev.loom.fault = some f →
      (f.kind = 2 ∨ f.kind = 3) → s.dev.needsRebuild f = true →
      (s.dev.rebuildGroup f = some d → exec .fixComplete s = .next (s.withDev (d.afterFix f))) ∧
      (s.dev.rebuildGroup f = none → s.dev.role = roSingle → Answers .fixComplete s (fun e => e.ts = tsHalted ∧
        e.fld F.LOM_STATUS_HALT_CAUSE = 7 ∧ e.loom.phase = .none ∧ e.loom.beat = s.dev.loom.beat))) ∧
  (∀ (s : State) (f : FaultRec), s.dev.on = true → s.dev.loom.phase = .repairing → s.dev.loom.fault = some f → f.kind = 4 →
      (s.dev.moveHeddles f [f.k] [f.k]).isSome = true →
      s.dev.loom.onPk32 (s.dev.loom.slotOf (hnOf f.gb f.h)) = none →
      s.dev.rel.badHeddle.contains (s.dev.loom.slotOf (hnOf f.gb f.h) * 33 + 32) = false →
      Answers .repairStepComplete s (fun e => e.loom.phase = .rerun ∧
        e.loom.pk (s.dev.loom.slotOf (hnOf f.gb f.h)) f.k = 32 ∧ e.fld F.LOM_STATUS_REPAIRED = 1 ∧
        e.fld F.LOM_STATUS_ATTEMPT = 0 ∧ e.fld F.LOM_STATUS_STATE = 3 ∧
        e.fld F.LOM_REPAIR_CNT_HEDDLE_REPAIRS = satAdd 16 (s.dev.fld F.LOM_REPAIR_CNT_HEDDLE_REPAIRS) 1 ∧ e.loom.hmap = s.dev.loom.hmap ∧
        e.rel.stepWord = some (repairWord 1 (s.dev.loom.pgb f.gb) (s.dev.loom.ph (hnOf f.gb f.h))
          (s.dev.loom.pk (s.dev.loom.slotOf (hnOf f.gb f.h)) f.k)) ∧ e.mem = s.dev.mem ∧ e.loom.beat = s.dev.loom.beat ∧
        (∀ p < 2048, e.loom.jacRead (jacKey (hnOf f.gb f.h) f.k p) = .clean 0) ∧
        s.dev.sameRegs e [R.LOM_STATUS, R.LOM_EVENTS, R.LOM_REPAIR_CNT, R.LOM_REBUILD_CNT, R.LOG_LOST])))

/-- Journals and line buffers (05 R129, R130, R135 to R138). A full beam journal met by a waiting write spills its 32 oldest entries
and makes room; a beam that has read back its entries no longer holds the release; the invalidations of a beam take its stale lines
away; the first committed deep write to HBM is stored at its window's address once the reads of its beat are served.

The mailbox banks (05 R141 to R143; 12 R367): port L applies a committed write, and port S a shuttle's write that the gatekeeper
passes, to the word addressed and to no other byte; port S's read changes no memory. Neither takes part in a collision here.

An occupancy interval ends (05 R149, R150, R154): its counts become those of the last interval and the next starts from none;
with fewer than 1,024 accesses the run of imbalanced intervals ends and no register changes; else HBM_OCC_MAX shows the busiest
pseudo-channel and its ratio. That an interval with few accesses ends the run is the model's choice (assumption log 9). -/
def Obligations.JournalsMailboxesOccupancy : Prop :=
  (
  (∀ (s : State) (gb h p : Nat), s.dev.ringsOn = true → s.dev.hazard = false → s.dev.closedPick gb h opMWR = some p →
      s.dev.loom.latched (hnOf gb h) 0 2 = true → 256 ≤ onChip s.dev.loom.bj gb →
      Answers (.journalSpill gb h) s (fun e => onChip e.loom.bj gb + 32 = onChip s.dev.loom.bj gb ∧
        e.loom.bj.length = s.dev.loom.bj.length ∧ SMap.get false e.loom.spilledOnce gb = true ∧
        e.fld F.HBM_SPILL_CNT_BEAM = satAdd 16 (s.dev.fld F.HBM_SPILL_CNT_BEAM) 1 ∧
        e.loom.done = s.dev.loom.done ∧ e.loom.dj = s.dev.loom.dj ∧ e.mem = s.dev.mem ∧
        s.dev.sameRegs e [R.HBM_SPILL_CNT, R.LOG_LOST])) ∧
  (∀ (s : State) (gb : Nat), s.dev.ringsOn = true → Answers (.spillReadback gb) s (fun e =>
      gb ∉ e.loom.readback ∧ (∀ x, x ≠ gb → (x ∈ e.loom.readback ↔ x ∈ s.dev.loom.readback)) ∧
      (s.dev.ts ≠ tsWaiting → e.regs = s.dev.regs) ∧
      e.mem = s.dev.mem ∧ e.loom.shed = s.dev.loom.shed)) ∧
  (∀ (s : State) (gb : Nat), s.dev.on = true → Answers (.lineInvalidate gb) s (fun e =>
      (∀ b, (gb, b) ∉ e.loom.stale) ∧ (∀ b, s.dev.loom.stale.contains (gb, b) = true → b ∉ SMap.get [] e.loom.lines gb) ∧
      (∀ x b, x ≠ gb → ((x, b) ∈ e.loom.stale ↔ (x, b) ∈ s.dev.loom.stale)) ∧
      (∀ x, x ≠ gb → SMap.get [] e.loom.lines x = SMap.get [] s.dev.loom.lines x) ∧ e.regs = s.dev.regs ∧ e.mem = s.dev.mem)) ∧
  (∀ (s : State) (b : Nat) (j : JEntry) (r : List (Nat × JEntry)), s.dev.ringsOn = true → s.dev.loom.djOut = (b, j) :: r →
      Win.mailbox (s.dev.loom.win64 j.gb) = false → s.dev.loom.readsServed b = true →
      s.dev.memBad (Win.addr (s.dev.loom.win64 j.gb) j.addr) 1 = false →
      s.dev.memCorrected (Win.addr (s.dev.loom.win64 j.gb) j.addr) = false →
      Answers .deepJournalHandoff s (fun e => e.loom.djOut = r ∧ e.regs = s.dev.regs ∧ e.loom.shed = s.dev.loom.shed ∧
        (∀ i < 4, e.byte (Win.addr (s.dev.loom.win64 j.gb) j.addr + i) = (leBytes 4 j.data.toNat).getD i 0) ∧
        (∀ a, a < Win.addr (s.dev.loom.win64 j.gb) j.addr ∨ Win.addr (s.dev.loom.win64 j.gb) j.addr + 4 ≤ a →
          e.byte a = s.dev.byte a)))) ∧
  (
  (∀ (s : State) (bank b : Nat) (j : JEntry) (r : List (Nat × JEntry)), s.dev.ringsOn = true → s.dev.loom.djOut = (b, j) :: r →
      Win.mailbox (s.dev.loom.win64 j.gb) = true → Win.bank (s.dev.loom.win64 j.gb) = bank → s.dev.loom.readsServed b = true →
      Answers (.mailboxPortLServe bank none .apart) s (fun e => e.loom.djOut = r ∧ e.regs = s.dev.regs ∧
        (∀ i < 4, e.byte (Win.addr (s.dev.loom.win64 j.gb) j.addr + i) = (leBytes 4 j.data.toNat).getD i 0) ∧
        (∀ a, a < Win.addr (s.dev.loom.win64 j.gb) j.addr ∨ Win.addr (s.dev.loom.win64 j.gb) j.addr + 4 ≤ a →
          e.byte a = s.dev.byte a) ∧ e.loom.mbxColl = s.dev.loom.mbxColl ∧ e.log = s.dev.log)) ∧
  (∀ (s : State) (mid bank word : Nat) (v : Word), s.dev.ringsOn = true →
      s.dev.passes mid gkWRITE (mailboxAddr bank word) →
      Answers (.mailboxPortSAccess mid bank word (some v) .apart) s (fun e => e.regs = s.dev.regs ∧
        (∀ i < 4, e.byte (mailboxAddr bank word + i) = (leBytes 4 v.toNat).getD i 0) ∧
        (∀ a, a < mailboxAddr bank word ∨ mailboxAddr bank word + 4 ≤ a → e.byte a = s.dev.byte a) ∧
        e.loom.mbxColl = s.dev.loom.mbxColl ∧ e.log = s.dev.log)) ∧
  (∀ (s : State) (mid bank word : Nat), s.dev.ringsOn = true → s.dev.passes mid gkREAD (mailboxAddr bank word) →
      Answers (.mailboxPortSAccess mid bank word none .apart) s (fun e => e.mem = s.dev.mem ∧ e.regs = s.dev.regs ∧
        e.log = s.dev.log ∧ e.loom.shed = s.dev.loom.shed))) ∧
  (
  (∀ s : State, s.dev.on = true → s.dev.loom.occ.foldl (fun t e => t + e.2) 0 < 1024 →
      exec .hbmOccIntervalEnd s = .next (s.withDev (s.dev.onLoom (fun l => { l with occLast := l.occ, occ := [], occRun := 0 })))) ∧
  (∀ s : State, s.dev.on = true → 1024 ≤ s.dev.loom.occ.foldl (fun t e => t + e.2) 0 → (occMax s.dev.loom.occ).1 < 256 →
      Answers .hbmOccIntervalEnd s (fun e => e.loom.occLast = s.dev.loom.occ ∧ e.loom.occ = [] ∧
        e.fld F.HBM_OCC_MAX_PC = (occMax s.dev.loom.occ).1 ∧
        e.fld F.HBM_OCC_MAX_RATIO = min (4096 * (occMax s.dev.loom.occ).2 / s.dev.loom.occ.foldl (fun t e => t + e.2) 0) 4095 ∧
        e.mem = s.dev.mem ∧ e.loom.shed = s.dev.loom.shed ∧
        s.dev.sameRegs e [R.HBM_OCC_MAX, R.HBM_OCC_STATUS, R.LOG_LOST])))

/-- A register write that the gatekeepers pass does what a write of that register does, under the master's authority; and the
management port passes everywhere in register space (00 R14, R16; 10 R321; 13 R391).

A write that the gatekeepers turn away changes no register but those of the violation, and no memory and no unit: it is counted,
and GK_VIOL_ADDR names its address (13 R392, R410).

Access codes (00 R5, R6, R8). In the blocks whose registers have no behaviour of their own (LOM_, DRW_, LRG_, ETH_, SHT_, HBM_ and
HUB_, but for LOM_CTL, LOM_RETRY_CFG and DRW_HCFG) a write sets the RW fields, clears the W1C bits written as 1, sets an RWL field while
its lock lets it, and leaves an RO field and a W1S bit; reserved bits read 0. So a write of LOM_EVENTS clears the bits written as 1 and no
others, a write of PTP_JUMP_LIMIT sets its field, and HBM_HASH_SEED, while its lock does not let it, keeps its value, with event 0x805. A
WO register reads 0 and a write of it starts its action, as TRD_CMD does; the one W1S bit, WRP_RXMSG_CTL.POP, acts on a 1 and not on
a 0. A write at an offset that is not a multiple of 4 is ignored, with event 0x804. Nothing else changes. What a master may write while
another unlocked the block is as 10 R319 says; that a field's reserved PARAM bits are kept in WCH_RULE_LO is the model's choice
(assumption log 33). -/
def Obligations.RegisterWrites : Prop :=
  (
  (∀ (s : State) (mid k : Nat) (v : Word), s.dev.ringsOn = true → k % 4 = 0 → k < blocks * 0x10000 →
      s.dev.mayWrite mid k →
      exec (.registerWrite mid k v) s = .next (s.withDev (s.dev.regWrite (s.dev.who mid) k v))) ∧
  (∀ (d : Dev) (k : Nat), k < blocks * 0x10000 → d.mayWrite midMGT k)) ∧
  (
  ∀ (s : State) (mid k st reason : Nat) (v : Word), s.dev.ringsOn = true → k < blocks * 0x10000 →
    s.dev.verdict mid gkWRITE (regBase + k) = (st, reason) → (st = stDENIED ∨ st = stREFUSED) →
    s.dev.gkScan mid gkWRITE (regBase + k) = s.dev →
    Answers (.registerWrite mid k v) s (fun e =>
      s.dev.sameRegs e [R.GK_VIOL_CNT, R.GK_VIOL_LAST, R.GK_VIOL_ADDR_LO, R.GK_VIOL_ADDR_HI, R.LOG_LOST] ∧
      e.fld F.GK_VIOL_CNT_COUNT = satAdd 32 (s.dev.fld F.GK_VIOL_CNT_COUNT) 1 ∧
      e.reg R.GK_VIOL_ADDR_LO = BitVec.ofNat 32 (regBase + k) ∧ e.mem = s.dev.mem ∧ e.loom = s.dev.loom ∧
      e.trd = s.dev.trd ∧ e.warp = s.dev.warp ∧ e.weft = s.dev.weft ∧ e.cap = s.dev.cap ∧ e.plat = s.dev.plat)) ∧
  (
  (∀ (s : State) (mid k : Nat) (v : Word), s.dev.ringsOn = true → k % 4 = 0 →
      blkOf k ∈ [bLOM, bDRW, bLRG, bETH, bSHT, bHBM, bHUB] → k ∉ [R.LOM_CTL, R.LOM_RETRY_CFG, R.DRW_HCFG] → s.dev.mayWrite mid k →
      Answers (.registerWrite mid k v) s (fun e =>
        (∀ f ∈ fieldsAt k, bitsN (e.reg (s.dev.keyAt k)).toNat f.hi f.lo =
          (match f.acc with
          | .rw => bitsN v.toNat f.hi f.lo
          | .w1c => bitsN (s.dev.reg (s.dev.keyAt k) &&& ~~~v).toNat f.hi f.lo
          | .rwl => bitsN (if s.dev.rwlOk (s.dev.who mid) then v else s.dev.reg (s.dev.keyAt k)).toNat f.hi f.lo
          | .ro | .w1s => bitsN (s.dev.reg (s.dev.keyAt k)).toNat f.hi f.lo
          | .wo => 0)) ∧
        (∀ i < 32, (∀ f ∈ fieldsAt k, ¬(f.lo ≤ i ∧ i ≤ f.hi)) → (e.reg (s.dev.keyAt k)).getLsbD i = false) ∧
        s.dev.sameRegs e [s.dev.keyAt k, R.LOG_LOST] ∧ s.dev.sameUnits e)) ∧
  (∀ (d : Dev) (k : Nat), k ∈ [R.TRD_CMD, R.WRP_MSG_DATA, R.PTP_OFFSET, R.PTP_JUMP_CTL, R.LDR_CMD, R.CHR_FL_CMD, R.CAP_CMD, R.FMP_CMD,
      R.WSC_POST_DATA, R.WSC_POST_CMD, R.WSC_CMD, R.BOB_CH_CMD, R.BST_CMD, R.FUS_CMD, R.LOG_CTL, R.WCH_CMD] →
      d.reg (d.keyAt k) = 0 → d.regRead k = (d, 0)) ∧
  (∀ (s : State) (mid : Nat) (v : Word), s.dev.ringsOn = true → s.dev.mayWrite mid R.TRD_CMD →
      ∀ c ∈ [(2, Instr.stop), (3, .cancel), (1, .start (v.getLsbD 8))], v.toNat % 8 = c.1 →
        exec (.registerWrite mid R.TRD_CMD v) s = exec c.2 s) ∧
  (∀ (s : State) (mid : Nat) (v : Word), s.dev.ringsOn = true → s.dev.mayWrite mid R.WRP_RXMSG_CTL →
      exec (.registerWrite mid R.WRP_RXMSG_CTL v) s = (if v.getLsbD 0 then .next (s.withDev
        { s.dev with warp := { s.dev.warp with rx := s.dev.warp.rx.drop 1, rxPtr := 0 } }) else .next s)) ∧
  (∀ (s : State) (mid k : Nat) (v : Word), s.dev.ringsOn = true → k % 4 ≠ 0 → k < blocks * 0x10000 → s.dev.mayWrite mid k →
      s.dev.log.queue.length < 64 → Answers (.registerWrite mid k v) s (fun e => s.dev.sameRegs e [] ∧ s.dev.sameUnits e ∧
        e.log.queue = s.dev.log.queue ++ [logEntry s.dev.tick (blkOf k) 0 0x804 (mid % 2 ^ 12 * 2 ^ 32 + k)])) ∧
  (∀ (s : State) (mid : Nat) (v : Word), s.dev.ringsOn = true → s.dev.mayWrite mid R.LOM_EVENTS →
      Answers (.registerWrite mid R.LOM_EVENTS v) s (fun e => e.reg R.LOM_EVENTS = s.dev.reg R.LOM_EVENTS &&& ~~~v &&& 0xF ∧
        s.dev.sameRegs e [R.LOM_EVENTS] ∧ s.dev.sameUnits e ∧ e.log = s.dev.log)) ∧
  (∀ (s : State) (mid : Nat) (v : Word), s.dev.ringsOn = true → s.dev.mayWrite mid R.PTP_JUMP_LIMIT →
      Answers (.registerWrite mid R.PTP_JUMP_LIMIT v) s (fun e => e.reg R.PTP_JUMP_LIMIT = v &&& 0x3FFFFFFF ∧
        s.dev.sameRegs e [R.PTP_JUMP_LIMIT] ∧ s.dev.sameUnits e ∧ e.log = s.dev.log)) ∧
  (∀ (s : State) (mid : Nat) (v : Word), s.dev.ringsOn = true → s.dev.mayWrite mid R.HBM_HASH_SEED →
      s.dev.rwlOk (s.dev.who mid) = true →
      Answers (.registerWrite mid R.HBM_HASH_SEED v) s (fun e => e.reg R.HBM_HASH_SEED = v ∧
        s.dev.sameRegs e [R.HBM_HASH_SEED] ∧ s.dev.sameUnits e ∧ e.log = s.dev.log)) ∧
  (∀ (s : State) (mid : Nat) (v : Word), s.dev.ringsOn = true → s.dev.mayWrite mid R.HBM_HASH_SEED →
      s.dev.rwlOk (s.dev.who mid) = false → v ≠ s.dev.reg R.HBM_HASH_SEED → s.dev.log.queue.length < 64 →
      Answers (.registerWrite mid R.HBM_HASH_SEED v) s (fun e => s.dev.sameRegs e [] ∧ s.dev.sameUnits e ∧
        e.log.queue = s.dev.log.queue ++ [logEntry s.dev.tick bHBM 0 0x805 (mid % 2 ^ 12 * 2 ^ 32 + R.HBM_HASH_SEED)])))

/-- The Ethernet ports (10 R306, R323): a link comes up in the record's mode with an FEC that fits, and goes down with its mode and
pause cleared; an ARP request for the port's address and an echo request are answered, in the port's VLAN; PAUSE holds the port's transmission; a frame of another kind, or
an ARP request for another address, is dropped and counted. The octets of the frames, and when a pause ends, are the model's where
the spec names a standard only (assumption logs 21, 22, 23).

Loom control requests are accepted (10 R308, R310, R313): from a source that a filter entry admits, with a right header and OP,
a datagram waits in its port's queue with the rights of both; from any other source it is counted and dropped; with 64 requests
waiting it is answered BUSY. Here with the device awake. The octets of the headers follow their standards (assumption log 23). -/
def Obligations.EthernetPortsAndDatagrams : Prop :=
  (
  (∀ (s : State) (port fec : Nat), s.dev.on = true → port < 2 → (s.dev.ethCfg port).mode ≠ 0 → (s.dev.ethCfg port).mode < 4 →
      s.dev.plat.pllUp.testBit 15 = true → fecFits (s.dev.ethCfg port).mode (s.dev.ethCfg port).fec fec = true → fec < 4 →
      Answers (.ethLinkStateChange port true fec) s (fun e => e.ethUp port = true ∧
        e.fld (F.ETH_PORT_STATUS_MODE.at port) = (s.dev.ethCfg port).mode ∧ e.fld (F.ETH_PORT_STATUS_FEC.at port) = fec ∧
        s.dev.sameRegs e [instKey R.ETH_PORT_STATUS port] ∧ s.dev.sameUnits e)) ∧
  (∀ (s : State) (port fec : Nat), s.dev.on = true → port < 2 → Answers (.ethLinkStateChange port false fec) s (fun e =>
      e.ethUp port = false ∧ e.fld (F.ETH_PORT_STATUS_MODE.at port) = 0 ∧ SMap.get 0 e.eth.paused port = 0 ∧
      e.eth.queue0 = s.dev.eth.queue0 ∧ e.eth.queue1 = s.dev.eth.queue1 ∧ e.mem = s.dev.mem ∧
      s.dev.sameRegs e [instKey R.ETH_PORT_STATUS port])) ∧
  (∀ (s : State) (port mac ip : Nat), s.dev.on = true → s.dev.ethUp port = true →
      exec (.ethernetFrameRx port (.arp mac ip (s.dev.ethCfg port).ip)) s =
        .next (s.withDev (s.dev.send [⟨port, s.dev.vlanOf port, 0, 0, 0, s.dev.arpReply port mac ip⟩]))) ∧
  (∀ (s : State) (port ip : Nat) (msg : List Byte), s.dev.on = true → s.dev.ethUp port = true → msg.length + 38 ≤ maxFrame →
      exec (.ethernetFrameRx port (.echo ip (s.dev.ethCfg port).ip msg)) s =
        .next (s.withDev (s.dev.send [⟨port, s.dev.vlanOf port, ip, 0, 0, echoReply msg⟩]))) ∧
  (∀ (s : State) (port q : Nat), s.dev.on = true → s.dev.ethUp port = true → Answers (.ethernetFrameRx port (.pause q)) s (fun e =>
      SMap.get 0 e.eth.paused port = q % 0x10000 * (if (s.dev.ethCfg port).mode = 3 then 2048 else 512) ∧
      e.regs = s.dev.regs ∧ e.mem = s.dev.mem ∧ e.eth.queue0 = s.dev.eth.queue0 ∧ e.eth.queue1 = s.dev.eth.queue1)) ∧
  (∀ (s : State) (port mac ip target : Nat), s.dev.on = true → s.dev.ethUp port = true → target ≠ (s.dev.ethCfg port).ip →
      ∀ f ∈ [EthFrame.other, EthFrame.arp mac ip target],
        exec (.ethernetFrameRx port f) s = .next (s.withDev (s.dev.addFld (F.ETH_RX_DROP_OTHER.at port) 1)))) ∧
  (
  ∀ (s : State) (port ip udp : Nat) (data : List Byte), s.dev.on = true → s.dev.ethUp port = true →
    data.length + 46 ≤ maxFrame →
    (s.dev.ethFilter port ip = none → ∀ (a b : Nat) (ok : Bool), exec (.datagramRx port ip udp a b ok data) s =
      .next (s.withDev (s.dev.addFld (F.ETH_RX_DROP_FILTER.at port) 1))) ∧
    (∀ f, s.dev.ethFilter port ip = some f → s.dev.fld F.PWR_WAKE_CFG_ETH = 0 → headerOk data = true → leAt data 4 2 ≠ 0 →
      leAt data 4 2 ≤ 7 → (s.dev.ethQueue port).length < 64 →
      exec (.datagramRx port ip udp (s.dev.ethCfg port).ip s.dev.udpPort true data) s =
        .next (s.withDev (s.dev.setEthQueue port (s.dev.ethQueue port ++ [⟨ip, udp,
          ((s.dev.authRec.map Authority.opRights).getD 0) &&& f.rights, data⟩])))) ∧
    (∀ f, s.dev.ethFilter port ip = some f → s.dev.fld F.PWR_WAKE_CFG_ETH = 0 → headerOk data = true → leAt data 4 2 ≠ 0 →
      leAt data 4 2 ≤ 7 → 64 ≤ (s.dev.ethQueue port).length → SMap.get 0 s.dev.eth.paused port = 0 →
      Answers (.datagramRx port ip udp (s.dev.ethCfg port).ip s.dev.udpPort true data) s (fun e =>
        e.eth.queue0 = s.dev.eth.queue0 ∧ e.eth.queue1 = s.dev.eth.queue1 ∧ e.regs = s.dev.regs ∧ e.mem = s.dev.mem ∧
        e.eth.sent = [⟨port, s.dev.vlanOf port, ip, udp, s.dev.udpPort, ctlHeader 2 (leAt data 4 2) rpBUSY (leAt data 8 4) 0⟩])))

/-- The read operations of loom control (10 R311, R314): the port's oldest request is taken and answered with STATUS 0 and its data.
INFO gives the identity and states, REG_READ of one register its word, MEM_READ the bytes, LOG_READ the slots; SUBSCRIBE enters a new
source. The equations say all that changes; SUBSCRIBE changes no register and no memory. Without READ every one of them is answered with STATUS 3.
The order of INFO's states and the source's entry are as assumption log 21 has them.

The write operations of loom control (10 R312, R313). REG_WRITE of one pair whose target the rights allow writes the register and
is answered with the count 1; MEM_WRITE with the CAPTURE right writes its bytes; each reply's status is kept with the SEQ, and a
request whose SEQ is kept is answered with STATUS 7 and the kept status and does nothing else (assumption log 21 says what the model
fixes here). -/
def Obligations.LoomControlRequests : Prop :=
  (
  ∀ (s : State) (port : Nat) (q : EthReq), s.dev.on = true → s.dev.ethRuns port = true →
    (s.dev.ethQueue port).head? = some q →
    (∀ d : Dev, q.rights.testBit 0 = true → q.op = 1 → q.body = [] →
      d = s.dev.setEthQueue port (s.dev.ethQueue port).tail → exec (.info port) s = .next (s.withDev
        (d.ethReply port q rpOK (d.reg4 R.CHIP_ID ++ d.reg4 R.STEP_ID ++ d.reg4 R.CHR_SYSTEM_ID ++
          (((d.charter.map Charter.name).getD []) ++ List.replicate 24 0).take 24 ++ d.reg4 R.LDR_STATUS ++
          d.reg4 R.TRD_STATUS ++ d.reg4 R.LOM_STATUS ++ d.reg4 R.LDR_IMAGE_ID_LO ++ d.reg4 R.LDR_IMAGE_ID_HI)))) ∧
    (∀ (d : Dev) (k : Nat), s.dev.ringsOn = true → q.rights.testBit 0 = true → q.op = 2 → q.body = leBytes 4 k → k < 2 ^ 32 → offsetBad k = 0 →
      d = s.dev.setEthQueue port (s.dev.ethQueue port).tail → exec (.regRead port) s = .next (s.withDev
        ((d.regRead k).1.ethReply port q rpOK (leBytes 4 (d.regRead k).2.toNat)))) ∧
    (s.dev.ringsOn = true → q.rights.testBit 0 = true → q.op = 4 → q.body.length = 12 → leAt q.body 0 8 % 8 = 0 → leAt q.body 8 4 % 8 = 0 →
      leAt q.body 8 4 ≤ s.dev.mtu - 44 → ∀ (d : Dev) (bs : List Byte),
      (s.dev.setEthQueue port (s.dev.ethQueue port).tail).busReadMany (midETH + port) (leAt q.body 0 8) (leAt q.body 8 4) =
        (d, stOK, bs) →
      exec (.memRead port) s = .next (s.withDev (d.ethReply port q rpOK bs))) ∧
    (s.dev.ringsOn = true → q.rights.testBit 0 = true → q.op = 6 → q.body.length = 4 → leAt q.body 0 2 < 4096 → 0 < leAt q.body 2 2 →
      leAt q.body 2 2 ≤ 64 → exec (.logRead port) s = .next (s.withDev
        ((s.dev.setEthQueue port (s.dev.ethQueue port).tail).ethReply port q rpOK ((List.range (leAt q.body 2 2)).flatMap
          (fun j => leBytes 16 (SMap.get 0 s.dev.log.slots ((leAt q.body 0 2 + j) % 4096)).toNat))))) ∧
    (q.rights.testBit 0 = true → q.op = 7 → q.body.length = 3 → leAt q.body 0 2 ≠ 0 →
      (∀ x ∈ s.dev.eth.subs, ¬(x.port = port ∧ x.ip = q.ip ∧ x.udp = q.udp)) → s.dev.eth.subs.length < 4 →
      Answers (.subscribe port) s (fun e => e.eth.subs = s.dev.eth.subs ++ [⟨port, q.ip, q.udp, leAt q.body 0 2,
          leAt q.body 2 1, 0⟩] ∧ e.regs = s.dev.regs ∧ e.mem = s.dev.mem ∧
        e.ethQueue port = (s.dev.ethQueue port).tail)) ∧
    (s.dev.ringsOn = true → q.rights.testBit 0 = false → ∀ c ∈ [(1, Instr.info port), (2, .regRead port), (4, .memRead port), (6, .logRead port),
        (7, .subscribe port)], q.op = c.1 → exec c.2 s = .next (s.withDev
          ((s.dev.setEthQueue port (s.dev.ethQueue port).tail).ethReply port q rpRIGHT [])))) ∧
  (
  ∀ (s : State) (port : Nat) (q : EthReq), s.dev.ringsOn = true → s.dev.ethRuns port = true →
    (s.dev.ethQueue port).head? = some q →
    (∀ (r : Nat) (d : Dev), q.op = 3 → s.dev.ethKept q = none → q.body.length = 8 → offsetBad (leAt q.body 0 4) = 0 →
      rightOf (leAt q.body 0 4) = some r → q.rights.testBit r = true →
      d = s.dev.setEthQueue port (s.dev.ethQueue port).tail →
      exec (.regWrite port) s = .next (s.withDev (((d.regWrite (d.who (midETH + port)) (leAt q.body 0 4)
        (w32 (leAt q.body 4 4))).ethKeep q rpOK).ethReply port q rpOK (leBytes 2 1 ++ leBytes 2 rpOK)))) ∧
    (∀ d : Dev, q.op = 5 → s.dev.ethKept q = none → q.rights.testBit 3 = true → 8 ≤ q.body.length → leAt q.body 0 8 % 8 = 0 →
      q.body.length % 8 = 0 →
      (s.dev.setEthQueue port (s.dev.ethQueue port).tail).busWriteMany (midETH + port) (leAt q.body 0 8) (q.body.drop 8) =
        (d, stOK) →
      exec (.memWrite port) s = .next (s.withDev (((d.fireHost (leAt q.body 0 8) (q.body.length - 8)).ethKeep q rpOK).ethReply
        port q rpOK []))) ∧
    (∀ st : Nat, s.dev.ethKept q = some st → ∀ c ∈ [(3, Instr.regWrite port), (5, .memWrite port)], q.op = c.1 →
      exec c.2 s = .next (s.withDev ((s.dev.setEthQueue port (s.dev.ethQueue port).tail).ethReply port q rpDUP (leBytes 2 st)))))

/-- The management port and JTAG (01 R20; 10 R316 to R321; where the spec leaves a reply open: assumption log 24). An I2C frame for another address is not answered, a frame that is not intact is
answered with STAT 2, and one that comes while the transport's request runs with STAT 3. A READ or WRITE that the hub cannot answer
gives STAT 4 outside the LOG_ block, and one that it can gives the words read or the result of the writes. STATUS gives the four
status words. JTAG with OWNER authority makes the same requests.

The register lock (10 R319): UNLOCK by the management port opens it, with its TIMEOUT, and writes event 0x840 when it was closed;
the timeout closes it with event 0x841. Nothing else changes. What a repeated UNLOCK does is assumption log 24's. -/
def Obligations.ManagementAndLock : Prop :=
  (
  (∀ (s : State) (f : MgtFrame) (a n : Nat) (ws : List Word), s.dev.mgtServes = true →
    ∀ c ∈ [Instr.mgtRead f a n, .mgtWrite f a ws, .mgtStatus ⟨f, n, a⟩],
      (s.dev.mgtMine f = false → exec c s = .next s) ∧
      (s.dev.mgtMine f = true → f.intact = false → exec c s = .next (s.withDev (s.dev.mgReply f.via mgFRAME []))) ∧
      (s.dev.mgtMine f = true → f.intact = true → f.running = true →
        exec c s = .next (s.withDev (s.dev.mgReply f.via mgRUNNING [])))) ∧
  (∀ (s : State) (f : MgtFrame), s.dev.mgtServes = true → s.dev.mgtMine f = true → f.intact = true → f.running = false → f.via < 3 →
    (∀ (a n : Nat) (ws : List Word), s.dev.hubAnswers = false → aonWord a = false → 0 < n → ws ≠ [] →
      exec (.mgtRead f a n) s = .next (s.withDev (s.dev.mgReply f.via mgHUB [])) ∧
      exec (.mgtWrite f a ws) s = .next (s.withDev (s.dev.mgReply f.via mgHUB []))) ∧
    (∀ k, s.dev.hubAnswers = false → aonWord (regBase + k) = true → exec (.mgtRead f (regBase + k) 1) s =
      .next (s.withDev ((s.dev.regRead k).1.mgReply f.via mgOK (leBytes 4 (s.dev.regRead k).2.toNat)))) ∧
    (∀ (a n : Nat) (d : Dev) (st : Nat) (bs : List Byte), s.dev.hubAnswers = true → s.dev.mgReadWords midMGT a n = (d, st, bs) →
      exec (.mgtRead f a n) s = .next (s.withDev (d.mgReply f.via st bs))) ∧
    (∀ (k : Nat) (v : Word), s.dev.hubAnswers = true → k % 4 = 0 → k < blocks * 0x10000 →
      exec (.mgtWrite f (regBase + k) [v]) s =
        .next (s.withDev ((s.dev.regWrite (s.dev.who midMGT) k v).mgReply f.via mgOK []))) ∧
    exec (.mgtStatus ⟨f, 0, 0⟩) s = .next (s.withDev (s.dev.mgReply f.via mgOK
      (s.dev.reg4 R.LDR_STATUS ++ s.dev.reg4 R.TRD_STATUS ++ s.dev.reg4 R.LOM_STATUS ++ s.dev.reg4 R.MGT_STATUS))) ∧
    (∀ n a, (n ≠ 0 ∨ a ≠ 0) → exec (.mgtStatus ⟨f, n, a⟩) s = .next (s.withDev (s.dev.mgReply f.via mgFRAME [])))) ∧
  (∀ (s : State) (a n : Nat) (ws : List Word), s.dev.plat.porst = true → s.dev.jtagOwner = true →
      exec (.jtagAccess 1 a n ws) s = .next (s.withDev (s.dev.mgRead viaJTAG a n)) ∧
      exec (.jtagAccess 2 a n ws) s = .next (s.withDev (s.dev.mgWrite viaJTAG a ws)))) ∧
  (
  (∀ (s : State) (t : Nat), s.dev.ringsOn = true → s.dev.hubAnswers = true → s.dev.unlocked = false → t < 65536 →
      s.dev.log.queue.length < 64 → Answers (.unlockSet false t) s (fun e => e.unlocked = true ∧
        e.fld F.MGT_LOCK_TIMEOUT = t ∧ e.log.queue = s.dev.log.queue ++ [logEntry s.dev.tick bMGT 0 0x840 0] ∧
        s.dev.sameRegs e [R.MGT_LOCK] ∧ s.dev.sameUnits e)) ∧
  (∀ s : State, s.dev.on = true → s.dev.unlocked = true → s.dev.log.queue.length < 64 → Answers .unlockTimeout s (fun e =>
      e.unlocked = false ∧ e.fld F.MGT_LOCK_TIMEOUT = s.dev.fld F.MGT_LOCK_TIMEOUT ∧
      e.log.queue = s.dev.log.queue ++ [logEntry s.dev.tick bMGT 0 0x841 0] ∧ s.dev.sameRegs e [R.MGT_LOCK] ∧
      s.dev.sameUnits e)))

/-- PTP messages (06 R178; 10 R315). A received message for which the ring's next descriptor cannot be read or is not owned by the device
is counted in RING and is not stored, and one that the port's settings do not take is counted in OTHER (assumption log 22); one whose descriptor is owned is stored, its descriptor is handed back with the length, and the
ring moves on. A transmit descriptor that is not owned sends nothing, nor does a port that is paused; one that is owned sends its frame
as it stands when it asks for no time stamp. -/
def Obligations.PtpMessages : Prop :=
  ∀ (s : State) (port : Nat) (x frame : List Byte) (d1 d2 : Dev), s.dev.ringsOn = true → s.dev.ethUp port = true →
    (∀ st, s.dev.ptpFits port frame = true → frame.length + 4 ≤ maxFrame →
      s.dev.busRead (midETH + port) gkREAD (s.dev.ringAddr (2 * port)) 32 = (d1, st, x) → (st ≠ stOK ∨ leAt x 10 1 % 2 = 0) →
      ∀ ev, exec (.ptpRxMessage port ev frame) s = .next (s.withDev (d1.addFld (F.ETH_RX_DROP_RING.at port) 1))) ∧
    (s.dev.ptpFits port frame = true → frame.length + 4 ≤ maxFrame →
      s.dev.busRead (midETH + port) gkREAD (s.dev.ringAddr (2 * port)) 32 = (d1, stOK, x) → leAt x 10 1 % 2 = 1 →
      d1.busWriteMany (midETH + port) (leAt x 0 8) frame = (d2, stOK) →
      exec (.ptpRxMessage port false frame) s = .next (s.withDev ((d2.busWriteMany (midETH + port) (s.dev.ringAddr (2 * port))
        (leBytes 8 (leAt x 0 8) ++ leBytes 2 frame.length ++ leBytes 1 0 ++ leBytes 1 0 ++ leBytes 4 0 ++
          leBytes 16 0)).1.ringNext (2 * port)))) ∧
    (s.dev.ptpFits port frame = false → ∀ ev, exec (.ptpRxMessage port ev frame) s = .next (s.withDev
      (s.dev.addFld (F.ETH_RX_DROP_OTHER.at port) 1))) ∧
    (s.dev.busRead (midETH + port) gkREAD (s.dev.ringAddr (2 * port + 1)) 32 = (d1, stOK, x) → leAt x 10 1 % 2 = 0 →
      SMap.get 0 s.dev.eth.paused port = 0 → exec (.ptpTxDescriptor port) s = .next (s.withDev d1)) ∧
    (SMap.get 0 s.dev.eth.paused port ≠ 0 → exec (.ptpTxDescriptor port) s = .next s) ∧
    (s.dev.busRead (midETH + port) gkREAD (s.dev.ringAddr (2 * port + 1)) 32 = (d1, stOK, x) → leAt x 10 1 = 1 →
      SMap.get 0 s.dev.eth.paused port = 0 →
      d1.busReadMany (midETH + port) (leAt x 0 8) (leAt x 8 2) = (d2, stOK, frame) →
      exec (.ptpTxDescriptor port) s = .next (s.withDev (((d2.send [⟨port, none, 0, 0, 0, frame⟩]).busWriteMany (midETH + port)
        (s.dev.ringAddr (2 * port + 1)) (x.take 10 ++ leBytes 1 0 ++ leBytes 1 0 ++ (x.drop 12).take 4 ++
          leBytes 16 0)).1.ringNext (2 * port + 1))))

/-- The AON clock and the PLLs (01 R19, R20; 14 R437; 17 R496). The crystal detection ends once, starts the AON PLL and the tick; the AON PLL locks
or goes to bypass with event 0x021 and ALERT_N; a PLL of the second group that has been started locks, or fails with DONE held low.

PORST_N rises with the supply in range (08 R210; 17 R489, R496): IOC_STRAP takes the straps, and the start-up sequence stands at
event 3 where the AON clocks run, else at event 2. Memory, loom and log stay as the reset left them.

WRST_N (00 R9; 08 R211; 02 R48; 15 R452): its fall empties the loom, lanes, links and shuttles, clears HBM and resets every register that
is not kept; the kept registers, the fuses and the memories of the hub and panels stay; its rise starts the sequence again at
event 3, with the panels' voltage codes at 30 (17 R497). In OFF neither brings the device back (15 R452). Which memories stay is the model's choice (assumption log 3). -/
def Obligations.ClocksAndResetRises : Prop :=
  (
  (∀ (s : State) (present : Bool), s.dev.plat.aonUp = true → s.dev.plat.crystalDone = false →
      Answers (.crystalDetectEnd present) s (fun e => e.plat.crystalDone = true ∧ e.plat.crystal = present ∧ e.plat.aonPll = 1 ∧
        e.tick = 0 ∧ (s.dev.plat.porst = true → e.fld F.IOC_STRAP_XTAL = b2n present) ∧ e.mem = s.dev.mem ∧ e.log = s.dev.log ∧
        e.loom = s.dev.loom ∧ s.dev.sameRegs e [R.IOC_STRAP])) ∧
  (∀ s : State, s.dev.plat.aonPll = 1 → Answers (.pllLock 1) s (fun e => e.plat.aonPll = 2 ∧
      e.plat.stage = (if s.dev.plat.porst = true ∧ s.dev.plat.stage = 2 then 3 else s.dev.plat.stage) ∧ e.mem = s.dev.mem ∧
      e.log = s.dev.log ∧ e.alerts = s.dev.alerts ∧ s.dev.sameRegs e [R.LDR_STATUS])) ∧
  (∀ s : State, s.dev.plat.aonPll = 1 → s.dev.log.queue.length < 64 → Answers (.pllLockTimeout 1) s (fun e =>
      e.plat.aonPll = 3 ∧ e.alerts.testBit alPll = true ∧
      e.log.queue = s.dev.log.queue ++ [logEntry s.dev.tick bPWR 0 0x021 33] ∧ e.mem = s.dev.mem ∧
      s.dev.sameRegs e [R.LDR_STATUS])) ∧
  (∀ (s : State) (dom : Nat), dom ∈ pllDomains → s.dev.plat.pllStarted = true → s.dev.plat.pllUp.testBit dom = false →
      s.dev.plat.pllBad.testBit dom = false → Answers (.pllLock dom) s (fun e => e.plat.pllUp.testBit dom = true ∧
        (∀ i, i ≠ dom → e.plat.pllUp.testBit i = s.dev.plat.pllUp.testBit i) ∧ e.plat.pllBad = s.dev.plat.pllBad ∧
        e.mem = s.dev.mem ∧ e.log = s.dev.log ∧ s.dev.sameRegs e [R.LDR_STATUS])) ∧
  (∀ (s : State) (dom : Nat), dom ∈ pllDomains → s.dev.plat.pllStarted = true → s.dev.plat.pllUp.testBit dom = false →
      s.dev.plat.pllBad.testBit dom = false → Answers (.pllLockTimeout dom) s (fun e => e.plat.pllBad.testBit dom = true ∧
        e.plat.pllUp = s.dev.plat.pllUp ∧ e.plat.doneLow = true ∧ e.plat.txIdle = true ∧ e.fld F.LDR_DONE_RELEASED = 0 ∧
        e.fld F.LDR_DONE_PIN = 0 ∧ e.alerts.testBit alPll = true ∧ e.mem = s.dev.mem))) ∧
  (
  ∀ (s : State) (straps : Nat), s.dev.plat.aonUp = true → s.dev.plat.porst = false → straps < 16 →
    Answers (.porstNRise straps) s (fun e => e.plat.porst = true ∧ e.plat.strapPins = straps ∧
      e.reg R.IOC_STRAP = w32 (straps + b2n (s.dev.plat.crystalDone && s.dev.plat.crystal) * 16) ∧
      e.plat.stage = (if s.dev.plat.crystalDone = true ∧ 2 ≤ s.dev.plat.aonPll then 3 else 2) ∧
      e.fld F.LDR_STATUS_STAGE = e.plat.stage ∧ e.mem = s.dev.mem ∧ e.loom = s.dev.loom ∧ e.log = s.dev.log ∧
      s.dev.sameRegs e [R.IOC_STRAP, R.LDR_STATUS])) ∧
  (
  (∀ s : State, s.dev.plat.wrst = true → s.dev.plat.porst = true → s.dev.fld F.PWR_STATUS_DEV ≠ 2 → Answers (.wrstNFall none) s (fun e => e.plat.wrst = false ∧
      e.loom = Loom.empty ∧ e.warp = Warp.empty ∧ e.weft = Weft.empty ∧ e.hubd = HubDie.empty ∧
      (∀ a < hbmEnd, e.byte a = 0) ∧ (∀ a, hbmEnd ≤ a → e.byte a = s.dev.byte a) ∧
      (∀ k, keptWrst k = false → k ∉ [R.LDR_STATUS, R.CHR_FL_STATUS, R.LDR_DONE] → e.reg k = resetVal k) ∧
      ((∀ u < 16, ¬(cpArmed ≤ s.dev.capState u ∧ s.dev.capState u ≤ cpRun)) → s.dev.ldr.load = none → s.dev.rel.fuseCmd = 0 →
        (∀ k, keptWrst k = true → (∀ p < 4, k ≠ instKey R.PWR_PANEL_V p) → e.reg k = s.dev.reg k) ∧ e.rel.fuses = s.dev.rel.fuses ∧ e.log = s.dev.log))) ∧
  (∀ s : State, s.dev.plat.wrst = false → s.dev.plat.porst = true → s.dev.plat.crystalDone = true → 2 ≤ s.dev.plat.aonPll →
      s.dev.fld F.PWR_STATUS_DEV ≠ 2 → Answers .wrstNRise s (fun e => e.plat.wrst = true ∧ e.plat.stage = 3 ∧ e.fld F.LDR_STATUS_STAGE = 3 ∧ e.mem = s.dev.mem ∧
        e.loom = s.dev.loom ∧ e.log = s.dev.log ∧ (∀ p < 4, e.fld (F.PWR_PANEL_V_CODE.at p) = 30) ∧
        s.dev.sameRegs e (R.LDR_STATUS :: (List.range 4).map (instKey R.PWR_PANEL_V)))) ∧
  (∀ (s : State) (test : Option (Nat × Nat)), s.dev.plat.wrst = true → s.dev.plat.porst = true → s.dev.fld F.PWR_STATUS_DEV = 2 →
      exec (.wrstNFall test) s = .next (s.withDev { s.dev with plat := { s.dev.plat with wrst := false } })) ∧
  (∀ s : State, s.dev.plat.wrst = false → s.dev.plat.porst = true → s.dev.fld F.PWR_STATUS_DEV = 2 →
      exec .wrstNRise s = .next (s.withDev { s.dev with plat := { s.dev.plat with wrst := true } })))

/-- The charter (08 R210, R214 to R216, R237). A valid copy A takes effect: the weave role and position, the system identity and the
copy in use are shown, and the PLLs of the second group start; here of a charter with no REGS pair and no WATCH record. With no
valid copy no charter is in force, DONE and ALERT_N are low, and LDR_STATUS.STATE is 4.

HBM's training ends (08 R210, R237; 05 R133): with every stack trained HBM reads 0 everywhere, HBM_STATUS shows 255 and, with
a charter in force, the transmitters leave electrical idle; with a stack failed HBM_STATUS shows which, no image is loaded, and ALERT_N is low. -/
def Obligations.CharterAndHbmTraining : Prop :=
  (
  (∀ (s : State) (c : Charter), s.dev.on = true → 1 ≤ s.dev.plat.stage → s.dev.plat.stage ≤ 3 → s.dev.plat.crystalDone = true →
      2 ≤ s.dev.plat.aonPll → s.dev.copyAt copyA = .ok c → c.writes = [] → c.filters = [] → c.rules = [] → c.gpio.length ≤ 48 → c.role < 3 → c.position < 16 →
      s.dev.plat.warm = false → s.dev.log.queue.length < 64 → Answers .charterRead s (fun e => e.charter = some c ∧ e.fld F.TRD_WEAVE_ROLE = c.role ∧
        e.fld F.TRD_WEAVE_POSITION = c.position ∧ e.reg R.CHR_SYSTEM_ID = w32 c.systemId ∧ e.fld F.LDR_STATUS_STAGE = 4 ∧
        e.plat.pllStarted = true ∧ e.mem = s.dev.mem ∧
        e.loom = { s.dev.loom with hashMode := s.dev.fld F.HBM_HASH_CTL_MODE, hashSeed := (s.dev.reg R.HBM_HASH_SEED).toNat } ∧
        e.log.queue = s.dev.log.queue ++ [logEntry s.dev.tick bCHR 0 0x001 0])) ∧
  (∀ (s : State) (r q : Nat), s.dev.on = true → 1 ≤ s.dev.plat.stage → s.dev.plat.stage ≤ 3 → s.dev.plat.crystalDone = true →
      2 ≤ s.dev.plat.aonPll → s.dev.copyAt copyA = .error r → s.dev.copyAt copyB = .error q →
      Answers .charterRead s (fun e => e.charter = none ∧ e.fld F.LDR_STATUS_STATE = 4 ∧ e.plat.doneLow = true ∧
        e.alerts.testBit alLoad = true ∧ e.plat.pllStarted = true ∧ e.mem = s.dev.mem ∧ e.loom = s.dev.loom))) ∧
  (
  (∀ s : State, s.dev.on = true → s.dev.plat.stage = 7 → s.dev.loom.atCommit = [] → s.dev.charter.isSome = true →
      Answers (.hbmTrained 0) s (fun e =>
      (∀ a < hbmEnd, e.byte a = 0) ∧ e.fld F.HBM_STATUS_TRAINED = 255 ∧ e.plat.hbmReady = true ∧ e.plat.txIdle = false)) ∧
  (∀ (s : State) (failed : Nat), s.dev.on = true → s.dev.plat.stage = 7 → failed ≠ 0 → failed < 256 →
      Answers (.hbmTrained failed) s (fun e => e.fld F.HBM_STATUS_TRAINED = 255 - failed ∧
        e.fld F.LDR_STATUS_STATE = (if s.dev.charter.isNone then 4 else 3) ∧ e.alerts.testBit alLoad = true ∧
        e.plat.hbmReady = s.dev.plat.hbmReady ∧ e.ldr.load = s.dev.ldr.load ∧ e.mem = s.dev.mem ∧
        e.plat.txIdle = (s.dev.plat.txIdle && s.dev.charter.isNone))))

/-- LOAD and ABORT (08 R221, R229, R230, R239). LOAD is refused with reason 1 while a load runs, while the treadle does not stand still
or before HBM is ready, and with reason 2 for a slot without an entry. Otherwise it starts: no image, the treadle IDLE, HBM 0, the
rest of memory as it was, DONE low. ABORT ends a load with event 0x113, the model as it stands. What the spec leaves open of a load's
end, of its checks and of what is written while it streams is as assumption logs 12 and 14 have it.

The attempt at a catalogue entry (08 R221, R230, R237, R238). An entry whose bytes pass every check is ready to be written, with the
image cache placed; one that fails in slot entry 0 is followed by the fallback where that is in use. An eMMC command that fails is
retried up to 3 times. The INIT_HBM bytes are written as the sections stream, and a fallback starts with HBM cleared again; the rest
of memory, and the loom, stay.

The write step ends (08 R230, R231, R232, R237). With a placement that fits and its panels awake the image is valid: the treadle
is ARMED, the image cache holds the image, DONE is released and LDR_STATUS.STATE is 2, once lane training (event 8) has ended too. An uncorrectable word of the image cache makes
the entry fail: a primary is followed by its fallback. -/
def Obligations.LoadsRunToTheirEnd : Prop :=
  (
  (∀ (s : State) (slot : Nat), s.dev.ringsOn = true → (s.dev.ldr.load.isSome = true ∨
      ¬(s.dev.ts = tsIdle ∨ s.dev.ts = tsArmed ∨ s.dev.ts = tsHalted) ∨ s.dev.plat.hbmReady = false) →
      exec (.load slot) s = .next (s.withDev (s.dev.ldrCmd 1 4 1))) ∧
  (∀ (s : State) (slot : Nat), s.dev.ringsOn = true → s.dev.ldr.load = none → (s.dev.ts = tsIdle ∨ s.dev.ts = tsArmed ∨ s.dev.ts = tsHalted) →
      s.dev.plat.hbmReady = true → s.dev.slotUsed slot = false →
      exec (.load slot) s = .next (s.withDev (s.dev.ldrCmd 1 4 2))) ∧
  (∀ (s : State) (slot : Nat), s.dev.ringsOn = true → s.dev.ldr.load = none → (s.dev.ts = tsIdle ∨ s.dev.ts = tsArmed ∨ s.dev.ts = tsHalted) →
      s.dev.plat.hbmReady = true → s.dev.slotUsed slot = true → slot < 256 → s.dev.loom.atCommit = [] →
      Answers (.load slot) s (fun e =>
        e.ldr.load = some ⟨false, slot, if (s.dev.catEntry slot 0).isSome then 0 else 1, 1, 0, none,
          s.dev.fld F.LDR_MODEL_BASE_BASE * 256, false⟩ ∧ e.ldr.cache = none ∧
        e.ts = tsIdle ∧ e.loom.need = [] ∧ e.loom.jac = [] ∧ e.loom.beat = 0 ∧ e.loom.phase = .none ∧
        e.fld F.LDR_STATUS_STATE = 1 ∧ e.fld F.LDR_STATUS_SLOT = slot ∧ e.fld F.LDR_CMD_STATUS_CMD = 1 ∧
        e.fld F.LDR_CMD_STATUS_STATUS = 1 ∧ e.plat.doneLow = true ∧ (∀ a < hbmEnd, e.byte a = 0) ∧
        (∀ a, hbmEnd ≤ a → e.byte a = s.dev.byte a))) ∧
  (∀ s : State, s.dev.ringsOn = true → s.dev.ldr.load = none → exec .abort s = .next (s.withDev (s.dev.ldrCmd 2 4 1))) ∧
  (∀ (s : State) (x : LoadSt), s.dev.ringsOn = true → s.dev.ldr.load = some x → x.written = false → Answers .abort s (fun e => e.ldr.load = none ∧
      e.fld F.LDR_STATUS_STATE = 0 ∧ e.fld F.LDR_STATUS_CODE = 0x113 ∧ e.fld F.LDR_CMD_STATUS_CMD = 1 ∧
      e.fld F.LDR_CMD_STATUS_STATUS = 3 ∧ e.loom = s.dev.loom ∧ e.mem = s.dev.mem ∧ e.trd = s.dev.trd ∧
      s.dev.sameRegs e [R.LDR_STATUS, R.LDR_CMD_STATUS, R.LOG_LOST]))) ∧
  (
  (∀ (s : State) (m : List Byte) (x : LoadSt) (c : CatEntry) (img : Image) (l : Loom) (lo hi : Nat), s.dev.ringsOn = true →
      s.dev.ldr.load = some x → x.ready = none → s.dev.catEntry x.slot x.entry = some c →
      s.dev.tryEntry m c x.base = .ok (img, l, (lo, hi)) → s.dev.loom.hashMode ≠ 1 →
      Answers (.loadEntryAttempt m) s (fun e => e.ldr.load = some { x with step := 4, ready := some img } ∧
        e.fld F.LDR_STATUS_STAGE = 11 ∧ e.reg R.LDR_CACHE_BASE = BitVec.ofNat 32 (lo / 256) ∧
        e.loom = { s.dev.loom with occ := e.loom.occ } ∧ (∀ a, hbmEnd ≤ a → e.byte a = s.dev.byte a) ∧
        (devSec img.sections tyHBM = [] → s.dev.streamed m c x.base = [] → e.mem = s.dev.mem) ∧ e.log = s.dev.log ∧
        s.dev.sameRegs e [R.LDR_PROGRESS, R.LDR_CACHE_BASE, R.LDR_CACHE_SIZE, R.LDR_STATUS])) ∧
  (∀ (s : State) (m : List Byte) (x : LoadSt) (c : CatEntry) (f : LoadFail), s.dev.ringsOn = true → s.dev.ldr.load = some x →
      x.ready = none → x.entry = 0 → s.dev.catEntry x.slot 0 = some c → (s.dev.catEntry x.slot 1).isSome = true →
      s.dev.tryEntry m c x.base = .error f →
      Answers (.loadEntryAttempt m) s (fun e => e.ldr.load = some { x with entry := 1, step := 1, retries := 0, ready := none } ∧
        e.fld F.LDR_STATUS_ENTRY = 1 ∧ e.fld F.LDR_STATUS_CODE = 0x110 ∧ e.loom = { s.dev.loom with occ := e.loom.occ } ∧
        (x.boot = false → ∀ a < hbmEnd, e.byte a = 0) ∧ ∀ a, hbmEnd ≤ a → e.byte a = s.dev.byte a)) ∧
  (∀ (s : State) (x : LoadSt) (status : Nat), s.dev.on = true → s.dev.ldr.load = some x → x.ready = none → x.retries < 3 →
      exec (.emmcRetry ⟨status, true⟩) s = .next (s.withDev (s.dev.onLdr (fun r => { r with
        load := some { x with retries := x.retries + 1 } }))) ∧
      exec (.emmcRetry ⟨status, false⟩) s = .next (s.withDev (s.dev.onLdr (fun r => { r with
        load := some { x with retries := 1 } })))) ∧
  (∀ (s : State) (b : BaySt) (slot status : Nat), s.dev.on = true → s.dev.ldr.load = none → s.dev.ldr.bay = some b → b.phase = 1 →
      b.slot = some slot → b.retries < 3 → exec (.emmcRetry ⟨status, true⟩) s = .next (s.withDev (s.dev.onLdr (fun r => { r with
        bay := some { b with retries := b.retries + 1 } }))))) ∧
  (
  (∀ (s : State) (x : LoadSt) (img : Image) (l : Loom), s.dev.ringsOn = true → s.dev.ldr.load = some x → x.ready = some img → x.written = false →
      s.dev.placeAndCheck img.header img.sections x.base
        (s.dev.fld F.LDR_CACHE_BASE_BASE * 256,
          s.dev.fld F.LDR_CACHE_BASE_BASE * 256 + s.dev.fld F.LDR_CACHE_SIZE_SIZE * 2 ^ 28) = .ok l →
      s.dev.loomAwake l = true → s.dev.event8Over = true → Answers (.loadComplete false) s (fun e => e.ts = tsArmed ∧ e.ldr.load = none ∧
        e.ldr.cache = some img ∧ e.ldr.doneNew = true ∧ e.plat.doneLow = false ∧ e.fld F.LDR_STATUS_STATE = 2 ∧
        e.fld F.LDR_STATUS_STAGE = 13 ∧ e.loom.jac = l.jac ∧ e.loom.need = l.need ∧ e.loom.hmap = l.hmap)) ∧
  (∀ (s : State) (x : LoadSt) (img : Image) (l : Loom), s.dev.ringsOn = true → s.dev.ldr.load = some x → x.ready = some img →
      x.written = false → s.dev.placeAndCheck img.header img.sections x.base
        (s.dev.fld F.LDR_CACHE_BASE_BASE * 256,
          s.dev.fld F.LDR_CACHE_BASE_BASE * 256 + s.dev.fld F.LDR_CACHE_SIZE_SIZE * 2 ^ 28) = .ok l →
      s.dev.loomAwake l = true → s.dev.event8Over = false → Answers (.loadComplete false) s (fun e => e.ts = s.dev.ts ∧
        e.ldr.load = some { x with written := true } ∧ e.fld F.LDR_STATUS_STAGE = 12 ∧ e.plat.doneLow = s.dev.plat.doneLow)) ∧
  (∀ (s : State) (x : LoadSt) (img : Image), s.dev.ringsOn = true → s.dev.ldr.load = some x → x.ready = some img → x.written = false → x.entry = 0 →
      (s.dev.catEntry x.slot 1).isSome = true → Answers (.loadComplete true) s (fun e =>
        e.ldr.load = some { x with entry := 1, step := 1, retries := 0, ready := none } ∧ e.fld F.LDR_STATUS_ENTRY = 1 ∧
        e.loom = { s.dev.loom with occ := e.loom.occ } ∧ (x.boot = false → ∀ a < hbmEnd, e.byte a = 0) ∧
        ∀ a, hbmEnd ≤ a → e.byte a = s.dev.byte a)))

/-- DONE and the automatic start (08 R233 to R235). DONE seen high after a load sets SEEN and lets the automatic start wait; the
automatic start is a START; DONE not seen in time writes event 0x115 and asserts ALERT_N; a fall of the pin clears SEEN, writes event
0x116, asks a beat in progress for a halt of cause 5, and ends a START (the last is DEDUCED, assumption log 10; that MIRROR of a single device
shows its own position only: assumption log 9). The automatic start is accepted as a START is, timed by TRD_START_AT where TRD_START_CFG.SRC
is 1 (08 R234; 06 R171). -/
def Obligations.DoneIsFollowed : Prop :=
  (∀ s : State, s.dev.on = true → s.dev.fld F.LDR_DONE_CFG_SRC = 0 → s.dev.plat.doneLow = false → s.dev.fld F.LDR_DONE_SEEN = 0 →
      s.dev.ldr.doneNew = true → Answers .doneSeenHigh s (fun e => e.fld F.LDR_DONE_SEEN = 1 ∧ e.fld F.LDR_DONE_PIN = 1 ∧
        e.fld F.LDR_DONE_START_PEND = 0 ∧ e.fld F.LDR_STATUS_STAGE = 14 ∧ e.trd.autoWait = s.dev.autoStarts ∧
        e.ldr.doneNew = false ∧ e.ts = s.dev.ts ∧ e.loom = s.dev.loom ∧ e.mem = s.dev.mem ∧
        s.dev.sameRegs e [R.LDR_DONE, R.LDR_STATUS])) ∧
  (∀ s : State, s.dev.ringsOn = true → s.dev.trd.autoWait = true → exec .autoStart s =
      exec (.start (s.dev.fld F.TRD_START_CFG_SRC == 1)) (s.withDev (s.dev.onTrd (fun t => { t with autoWait := false })))) ∧
  (∀ (s : State) (timed : Bool), s.dev.on = true → s.dev.trd.autoWait = true → timed = (s.dev.fld F.TRD_START_CFG_SRC == 1) →
      s.dev.panelsAwake = true → s.dev.startRefusal false = 0 → (s.dev.fld F.TRD_CTL_MODE = 1 → s.dev.armCompute.arm.2 = true) →
      (s.dev.role = roSingle ∨ (s.dev.role = roLeader ∧ s.dev.others ≠ [])) →
      Answers .autoStart s (fun e => e.trd.autoWait = false ∧
        s.dev.acceptsStart e timed (if timed then s.dev.reg R.TRD_START_AT else s.dev.tb.tb))) ∧
  (∀ s : State, s.dev.on = true → s.dev.plat.doneLow = false → s.dev.fld F.LDR_DONE_SEEN = 0 → s.dev.ldr.doneNew = true →
      s.dev.alerts.testBit alDone = false → s.dev.fld F.LDR_DONE_CFG_SRC = 0 →
      exec .doneTimeout s = .next (s.withDev ((s.dev.event bLDR 0 0x115 0).alert alDone))) ∧
  (∀ s : State, s.dev.on = true → s.dev.fld F.LDR_DONE_SEEN = 1 → s.dev.fld F.LDR_DONE_CFG_SRC = 0 → s.dev.log.queue.length < 64 →
      (s.dev.ts = tsArmed ∨ s.dev.ts = tsHalted ∨ s.dev.ts = tsBeat) → Answers .doneFall s (fun e =>
        e.fld F.LDR_DONE_SEEN = 0 ∧ e.fld F.LDR_DONE_PIN = 0 ∧ e.plat.doneOther = true ∧ e.ts = s.dev.ts ∧
        e.log.queue = s.dev.log.queue ++ [logEntry s.dev.tick bLDR 0 0x116 0] ∧
        e.loom = (if s.dev.ts = tsBeat then { s.dev.loom with haltReq := some (s.dev.loom.haltReq.getD 5) } else s.dev.loom) ∧
        e.mem = s.dev.mem ∧ s.dev.sameRegs e [R.LDR_DONE])) ∧
  (∀ s : State, s.dev.on = true → s.dev.fld F.LDR_DONE_SEEN = 1 → s.dev.fld F.LDR_DONE_CFG_SRC = 0 → s.dev.ts = tsStarting →
      s.dev.trd.stopPend = false →
      Answers .doneFall s (fun e => e.ts = tsHalted ∧ e.fld F.LOM_STATUS_HALT_CAUSE = 5 ∧ e.fld F.LDR_DONE_SEEN = 0 ∧
        e.fld F.TRD_CMD_STATUS_CMD = 1 ∧ e.fld F.TRD_CMD_STATUS_STATUS = 3 ∧ e.loom.beat = s.dev.loom.beat))

/-- Bay reloads (08 R241 to R246). RELOAD_BAY of an undeclared bay is refused with reason 3, with another reload under way with reason 1;
from the image cache it is accepted. The staged bay of a running device waits for the leave point; ABORT_BAY before it ends the
reload with event 0x123, and without a reload is refused. Once the bay is written it waits for the rejoin. The reasons and orders that
the spec leaves open are as assumption logs 14 and 16 have them. -/
def Obligations.BayReloads : Prop :=
  (∀ (s : State) (bay : Nat) (slot : Option Nat), s.dev.ringsOn = true → s.dev.loom.bayBeams bay = [] →
      exec (.reloadBay bay slot) s = .next (s.withDev (s.dev.ldrCmd 3 4 3))) ∧
  (∀ (s : State) (bay : Nat) (slot : Option Nat), s.dev.ringsOn = true → s.dev.loom.bayBeams bay ≠ [] → s.dev.ldr.bay.isSome = true →
      exec (.reloadBay bay slot) s = .next (s.withDev (s.dev.ldrCmd 3 4 1))) ∧
  (∀ (s : State) (bay : Nat), s.dev.ringsOn = true → s.dev.loom.bayBeams bay ≠ [] → s.dev.ldr.bay = none →
      s.dev.ts ∈ [tsArmed, tsStarting, tsBeat, tsWaiting, tsHalted] →
      (∀ gb ∈ s.dev.loom.bayBeams bay, s.dev.panelUp (s.dev.panelOf gb) = true) → Answers (.reloadBay bay none) s (fun e =>
        e.ldr.bay = some ⟨bay, none, 1, [], 0, 0⟩ ∧ e.fld F.LDR_CMD_STATUS_CMD = 3 ∧ e.fld F.LDR_CMD_STATUS_STATUS = 1 ∧
        e.loom = s.dev.loom ∧ e.mem = s.dev.mem ∧ e.log = s.dev.log ∧ s.dev.sameRegs e [R.LDR_CMD_STATUS])) ∧
  (∀ (s : State) (m : List Byte) (b : BaySt), s.dev.ringsOn = true → s.dev.ldr.bay = some b → b.phase = 1 → b.slot = none →
      s.dev.ts = tsBeat → exec (.bayStaged m) s = .next (s.withDev (s.dev.onLdr (fun r => { r with
        bay := some { b with phase := 2, staged := s.dev.cacheBay b.bay } })))) ∧
  (∀ s : State, s.dev.ringsOn = true → s.dev.ldr.bay = none → exec .abortBay s = .next (s.withDev (s.dev.ldrCmd 4 4 1))) ∧
  (∀ (s : State) (b : BaySt), s.dev.ringsOn = true → s.dev.ldr.bay = some b → b.phase ≤ 2 → Answers .abortBay s (fun e =>
      e.ldr.bay = none ∧ e.fld F.LDR_CMD_STATUS_CMD = 3 ∧ e.fld F.LDR_CMD_STATUS_STATUS = 3 ∧ e.fld F.LDR_STATUS_CODE = 0x123 ∧
      e.loom = s.dev.loom ∧ e.mem = s.dev.mem ∧ s.dev.sameRegs e [R.LDR_STATUS, R.LDR_CMD_STATUS, R.LOG_LOST])) ∧
  (∀ (s : State) (b : BaySt), s.dev.ringsOn = true → s.dev.ldr.bay = some b → b.phase = 3 →
      (∀ gb ∈ s.dev.loom.bayBeams b.bay, s.dev.panelUp (s.dev.panelOf gb) = true) → Answers .bayWriteDone s (fun e =>
        e.ldr.bay = some { b with phase := 4, staged := [] } ∧ e.loom.beat = s.dev.loom.beat ∧
        e.loom.phase = s.dev.loom.phase ∧ e.ts = s.dev.ts ∧ e.loom.need = s.dev.loom.need ∧ e.loom.hmap = s.dev.loom.hmap))

/-- The internal flash (08 R212, R220, R249). By OWNER authority and with no command under way: READ brings the word at CHR_FL_ADDR
into CHR_FL_DATA, PROGRAM of an erased word of the charter copies stores CHR_FL_DATA, ERASE makes the word's sector read 0xFF; no other
byte changes, the reserved region reads 0xFF whatever is programmed, and BUSY is 1 until the command ends, with WRST_N low too. A
PROGRAM or ERASE of a charter copy that verifies writes event 0x004. -/
def Obligations.FlashCommands : Prop :=
  (∀ (s : State) (a : Nat), s.dev.ringsOn = true → a = s.dev.fld F.CHR_FL_ADDR_ADDR / 4 * 4 →
    (∀ mid, s.dev.ownerMay mid R.CHR_FL_CMD → s.dev.fld F.CHR_FL_STATUS_BUSY = 0 → Answers (.flashRead mid) s (fun e =>
      e.reg R.CHR_FL_DATA = BitVec.ofNat 32 (leNat (s.dev.flashBytes a 4)) ∧ e.fld F.CHR_FL_STATUS_BUSY = 1 ∧
      e.flash = s.dev.flash ∧ e.mem = s.dev.mem ∧ s.dev.sameRegs e [R.CHR_FL_DATA, R.CHR_FL_STATUS])) ∧
    (∀ mid, s.dev.ownerMay mid R.CHR_FL_CMD → s.dev.fld F.CHR_FL_STATUS_BUSY = 0 → a < 0x80000 →
      (∀ i < 4, s.dev.flashByte (a + i) = 0xFF) → Answers (.flashProgram mid) s (fun e =>
        (∀ i < 4, e.flashByte (a + i) = (leBytes 4 (s.dev.reg R.CHR_FL_DATA).toNat).getD i 0) ∧
        (∀ x, x < a ∨ a + 4 ≤ x → e.flashByte x = s.dev.flashByte x) ∧ e.fld F.CHR_FL_STATUS_BUSY = 1 ∧
        e.mem = s.dev.mem ∧ s.dev.sameRegs e [R.CHR_FL_STATUS])) ∧
    (∀ mid, s.dev.ownerMay mid R.CHR_FL_CMD → s.dev.fld F.CHR_FL_STATUS_BUSY = 0 → a < 0xF0000 →
      Answers (.flashErase mid) s (fun e => (∀ x, x / 4096 = a / 4096 → e.flashByte x = 0xFF) ∧
        (∀ x, x / 4096 ≠ a / 4096 → e.flashByte x = s.dev.flashByte x) ∧ e.fld F.CHR_FL_STATUS_BUSY = 1 ∧
        e.mem = s.dev.mem ∧ s.dev.sameRegs e [R.CHR_FL_STATUS])) ∧
    (∀ mid, s.dev.ownerMay mid R.CHR_FL_CMD → s.dev.fld F.CHR_FL_STATUS_BUSY = 0 → 0x80000 ≤ a → a < 0xF0000 →
      Answers (.flashProgram mid) s (fun e => (∀ x, e.flashByte x = s.dev.flashByte x) ∧ e.flashByte a = 0xFF ∧
        e.fld F.CHR_FL_STATUS_BUSY = 1 ∧ e.mem = s.dev.mem ∧ s.dev.sameRegs e [R.CHR_FL_STATUS])) ∧
    (∀ mid c, s.dev.ownerMay mid R.CHR_FL_CMD → s.dev.fld F.CHR_FL_STATUS_BUSY = 1 →
      c ∈ [Instr.flashRead mid, .flashProgram mid, .flashErase mid] →
      exec c s = .next (s.withDev (s.dev.access 0x806 mid R.CHR_FL_CMD)))) ∧
  (∀ (s : State) (x : Nat), s.dev.aonOn = true → s.dev.ldr.flashCmd = 2 + 4 * x → x < 0x80000 → s.dev.log.queue.length < 64 →
    Answers (.flashCmdComplete true) s (fun e => e.fld F.CHR_FL_STATUS_BUSY = 0 ∧ e.ldr.flashCmd = 0 ∧ e.flash = s.dev.flash ∧
      e.log.queue = s.dev.log.queue ++ [logEntry s.dev.tick bCHR 0 0x004 0] ∧ e.mem = s.dev.mem ∧
      s.dev.sameRegs e [R.CHR_FL_STATUS]))

/-- Start-up events 5 and 6 (08 R210; 14 R422, R424, R428). At event 5 every valid harness repair of the hard fuses marks its slot bad,
and event 6 follows where BIST runs, else event 7; at the end of event 6 event 7 follows. Memory and the loom stay.

The record of a repair (14 R431): with AUTO 0 the oldest repair is dropped; with AUTO 1 one that the shadow does not hold is
appended to its first free entry. -/
def Obligations.RepairsAppliedAndRecorded : Prop :=
  (
  (∀ s : State, s.dev.on = true → s.dev.plat.stage = 5 → Answers .repairApply s (fun e =>
      (∀ w ∈ s.dev.rel.hard, Rep.valid w = true → Rep.ok w = true → Rep.kind w = 2 →
        66 * Rep.gb w + Rep.ph w ∈ e.rel.badHarness) ∧
      (∀ x ∈ s.dev.rel.badHarness, x ∈ e.rel.badHarness) ∧
      e.plat.stage = (if s.dev.bistEnabled s.dev.plat.warm then 6 else 7) ∧ e.fld F.LDR_STATUS_STAGE = e.plat.stage ∧
      e.rel.fuses = s.dev.rel.fuses ∧ e.loom = s.dev.loom ∧ e.mem = s.dev.mem ∧
      s.dev.sameRegs e [R.LDR_STATUS, R.LOG_LOST])) ∧
  (∀ s : State, s.dev.on = true → s.dev.plat.stage = 6 → exec (.startupBistComplete []) s =
      .next (s.withDev ((s.dev.event bBST 0 0xB01 0).setStage 7)))) ∧
  (
  ∀ (s : State) (w : Word) (t : List Word) (ok : Bool), s.dev.on = true → s.dev.rel.toRecord = w :: t →
    (s.dev.fld F.FUS_REPAIR_CFG_AUTO = 0 →
      exec (.repairRecord ok) s = .next (s.withDev (s.dev.onRel (fun r => { r with toRecord := t })))) ∧
    (∀ i, s.dev.fld F.FUS_REPAIR_CFG_AUTO = 1 → s.dev.shadowWords.contains w = false → s.dev.freeShadow = some i →
      exec (.repairRecord ok) s = .next (s.withDev ((s.dev.onRel (fun r => { r with toRecord := t })).writeShadow i w))))

/-- Self-test on demand (14 R425). RUN by OWNER authority in IDLE starts a run of its targets; elsewhere it is refused with reason 1.
The run's end and its ABORT leave the targets' memories at 0, other memory as it was, and BST_STATUS DONE or ABORTED; an ABORT
without a run is refused.

Rolling test (14 R432; 06 R170). A loaded spare asks for its swap; a granted swap points the candidate's harness map at the spare,
counts it, and gives the release back; a retired slot that the test finds good is a spare again. Memory stays.

A re-place after a capacity fault (14 R436): with room on the beam's own physical beam, and with the sheds of its moved harnesses
rebuilt (R434), it ends with event 0xB0A and the re-place over, the beam placed on it, the stored words of each harness that moves as the
image cache gives them and those of each that stays as they stood, and the beat count and memory as they were. Here without
an automatic restart; the event is the last of the input queue, unless that is full. Which place comes first is the model's choice
(assumption log 12). -/
def Obligations.SelfTestsAndReplace : Prop :=
  (
  (∀ (s : State) (mid targets : Nat), s.dev.ringsOn = true → s.dev.ownerMay mid R.BST_CMD → targets < 16 → s.dev.ts = tsIdle →
      s.dev.rel.bistRun = none → exec (.run mid targets) s = .next (s.withDev
        ((s.dev.bstStatus 1 1 0).onRel (fun r => { r with bistRun := some targets })))) ∧
  (∀ (s : State) (mid targets : Nat), s.dev.ringsOn = true → s.dev.ownerMay mid R.BST_CMD → targets < 16 → s.dev.ts ≠ tsIdle →
      s.dev.rel.bistRun = none → exec (.run mid targets) s = .next (s.withDev (s.dev.bstStatus 0 4 1))) ∧
  (∀ (s : State) (t : Nat), s.dev.on = true → s.dev.rel.bistRun = some t →
      ∀ c ∈ [(Instr.bistRunComplete [], 2), (.bistAbort, 3)], (c.2 = 3 → s.dev.ringsOn = true) →
        Answers c.1 s (fun e => e.rel.bistRun = none ∧
        e.fld F.BST_STATUS_STATE = 0 ∧ e.fld F.BST_STATUS_STATUS = c.2 ∧
        (t.testBit 0 = true → ∀ a, beamMemBase ≤ a → a < beamMemBase + 0x8000000 → e.byte a = 0) ∧
        (t.testBit 3 = true → ∀ a < hbmEnd, e.byte a = 0) ∧ (t = 0 → e.mem = s.dev.mem) ∧
        (t.testBit 1 = true → ∀ a, (clusterBase ≤ a ∧ a < clusterBase + 0x4000000) ∨ (0x6100000000 ≤ a ∧ a < 0x6102000000) → e.byte a = 0) ∧
        (∀ a, (t.testBit 0 = true → a < beamMemBase ∨ beamMemBase + 0x8000000 ≤ a) → (t.testBit 3 = true → hbmEnd ≤ a) →
          (t.testBit 1 = true → (a < clusterBase ∨ clusterBase + 0x4000000 ≤ a) ∧ (a < 0x6100000000 ∨ 0x6102000000 ≤ a)) →
          e.byte a = s.dev.byte a) ∧
        (t.testBit 0 = true → e.loom.jac = [] ∧ e.loom.shed = [] ∧ e.loom.slots = []) ∧
        (t.testBit 0 = false → t.testBit 3 = false → e.loom = s.dev.loom) ∧ s.dev.sameRegs e [R.BST_STATUS, R.LOG_LOST])) ∧
  (∀ s : State, s.dev.ringsOn = true → s.dev.rel.bistRun = none → exec .bistAbort s = .next (s.withDev (s.dev.bstStatus 0 4 1)))) ∧
  (
  (∀ (s : State) (pgb : Nat), s.dev.ringsOn = true → (s.dev.rollOf pgb).phase = 1 → exec (.rollPreloadDone pgb) s =
      .next (s.withDev (s.dev.setRoll pgb { s.dev.rollOf pgb with phase := 2 }))) ∧
  (∀ (s : State) (pgb gb : Nat) (r : Roll), s.dev.on = true → s.dev.rollOf pgb = r → r.phase = 3 → s.dev.rel.grant = pgb + 1 →
      s.dev.beamOn pgb = some gb → Answers (.rollSwapDone pgb) s (fun e =>
        e.loom.ph (hnOf gb r.cand) = (if r.ph = r.cand then hnOf gb r.cand % 64 else r.ph) ∧ e.rel.grant = 0 ∧
        (∃ p ∈ [5, 6], e.rollOf pgb = ⟨p, r.cand, s.dev.loom.ph (hnOf gb r.cand), r.cand + 1⟩) ∧
        (∀ k p, k < 33 → p < 2048 → e.loom.jacRead (jacKey (hnOf gb r.cand) k p) = .clean 0) ∧
        SMap.get false e.loom.spare (66 * pgb + r.ph) = false ∧
        e.fld F.BST_ROLL_CNT_COUNT = satAdd 32 (s.dev.fld F.BST_ROLL_CNT_COUNT) 1 ∧ e.loom.jac = s.dev.loom.jac ∧
        e.loom.shed = s.dev.loom.shed ∧ e.loom.beat = s.dev.loom.beat ∧ e.mem = s.dev.mem)) ∧
  (∀ (s : State) (pgb : Nat) (r : Roll), s.dev.on = true → s.dev.rollOf pgb = r → r.phase = 6 → s.dev.slotUsable pgb r.ph = true →
      s.dev.fld F.BST_CFG_ROLL_EN = 0 → Answers (.rollSlotTestDone pgb []) s (fun e =>
        SMap.get false e.loom.spare (66 * pgb + r.ph) = true ∧ e.rollOf pgb = ⟨0, 0, 0, r.last⟩ ∧ e.rel.badHarness = s.dev.rel.badHarness ∧
        e.loom.hmap = s.dev.loom.hmap ∧ e.loom.jac = s.dev.loom.jac ∧ e.mem = s.dev.mem ∧ s.dev.sameRegs e []))) ∧
  (
  ∀ (s : State) (x : Bool) (hn : Nat) (hits : List Hit) (d d1 d2 : Dev) (l : Loom) (h k p : Nat), s.dev.ringsOn = true →
    d = s.dev.hitAll hits → s.dev.ldr.replace = some (x, hn) → s.dev.ldr.bay = none →
    d1 = d.onRel (fun r => { r.mark (repairWord 2 (d.loom.pgb (hn / 64)) (d.loom.ph hn) 0) with
      toRecord := r.toRecord ++ [repairWord 2 (d.loom.pgb (hn / 64)) (d.loom.ph hn) 0] }) →
    d1.fits d1.loom (hn / 64) (d1.loom.pgb (hn / 64)) = true →
    l = d1.placeBeam d1.loom (hn / 64) (d1.loom.pgb (hn / 64)) →
    (d1.addFld F.BST_BAD_CNT_BAD (d1.rel.slotsBad - d.rel.slotsBad)).rebuildMoved (hn / 64) l = some d2 →
    d.panelUp (d.loom.pgb (hn / 64) / 32) = true → d.fld F.FUS_REPAIR_CFG_RESTART = 0 → h < 64 → k < 33 → p < 2048 →
    Answers (.replaceEnd hits) s (fun e => e.ldr.replace = none ∧
      e.loom.hmap = l.hmap ∧ e.loom.shed = d2.loom.shed ∧ e.loom.beat = s.dev.loom.beat ∧
      e.loom.jac = s.dev.loom.jac ∧ e.ts = s.dev.ts ∧ e.rel.badHarness = d1.rel.badHarness ∧ e.mem = s.dev.mem ∧
      (e.log.queue.getLast? = some (logEntry s.dev.tick bLDR 0 0xB0A (2 + hn / 64 * 2 ^ 8)) ∨ 64 ≤ e.log.queue.length) ∧
      e.loom.jacRead (jacKey (hnOf (hn / 64) h) k p) =
        (if d2.loom.slotOf (hnOf (hn / 64) h) = l.slotOf (hnOf (hn / 64) h) then
          d2.loom.jacRead (jacKey (hnOf (hn / 64) h) k p) else .clean 0)))

/-- The field fuses and their shadow (14 R429, R430, R446). By OWNER authority with no command under way: BURN_DATA runs on a word that
reads 0, BURN_VALID on one that holds FUS_DATA, SHADOW_APPEND while an entry is free, SHADOW_ERASE always, READ with the word in
FUS_READ; BURN_DATA of another word is refused. At the verified end fuses only go from 0 to 1, an append fills the first free entry
and an erase frees every entry. -/
def Obligations.FusesAndShadow : Prop :=
  (∀ (s : State) (mid : Nat), s.dev.ringsOn = true → s.dev.ownerMay mid R.FUS_CMD → s.dev.fld F.FUS_STATUS_BUSY = 0 →
      (∀ c ∈ [(Instr.burnData mid, 1), (.burnValid mid, 2), (.shadowAppend mid, 3), (.shadowErase mid, 4), (.fuseRead mid, 5)],
        (c.2 = 1 → s.dev.fuse (s.dev.fld F.FUS_ADDR_WORD) = 0) →
        (c.2 = 2 → (s.dev.fuse (s.dev.fld F.FUS_ADDR_WORD)).toNat % 2 ^ 31 = (s.dev.reg R.FUS_DATA).toNat % 2 ^ 31) →
        (c.2 = 3 → s.dev.freeShadow.isSome = true) →
        Answers c.1 s (fun e => e.fld F.FUS_STATUS_BUSY = 1 ∧ e.rel.fuseCmd = c.2 ∧
          e.rel.fuseWord = s.dev.fld F.FUS_ADDR_WORD ∧ e.rel.fuseData = s.dev.reg R.FUS_DATA ∧
          (c.2 = 5 → e.reg R.FUS_READ = s.dev.fuse (s.dev.fld F.FUS_ADDR_WORD)) ∧ e.rel.fuses = s.dev.rel.fuses ∧
          e.flash = s.dev.flash ∧ e.mem = s.dev.mem ∧ s.dev.sameRegs e [R.FUS_STATUS, R.FUS_READ])) ∧
      (s.dev.fuse (s.dev.fld F.FUS_ADDR_WORD) ≠ 0 →
        exec (.burnData mid) s = .next (s.withDev (s.dev.setFld F.FUS_STATUS_REFUSED 1)))) ∧
  (∀ s : State, s.dev.on = true → s.dev.rel.fuseCmd = 1 → Answers (.fuseCmdComplete true) s (fun e =>
      e.fuse s.dev.rel.fuseWord = s.dev.fuse s.dev.rel.fuseWord ||| (s.dev.rel.fuseData &&& 0x7FFFFFFF) ∧
      (∀ i, i ≠ s.dev.rel.fuseWord → e.fuse i = s.dev.fuse i) ∧ e.fld F.FUS_STATUS_BUSY = 0 ∧ e.rel.fuseCmd = 0 ∧
      e.flash = s.dev.flash ∧ e.mem = s.dev.mem ∧ s.dev.sameRegs e [R.FUS_STATUS])) ∧
  (∀ (s : State) (i : Nat), s.dev.on = true → s.dev.rel.fuseCmd = 3 → s.dev.freeShadow = some i →
      Answers (.fuseCmdComplete true) s (fun e => e.shadow i = some s.dev.rel.fuseData ∧
        (∀ x, x < shadowAt i ∨ shadowAt i + 8 ≤ x → e.flashByte x = s.dev.flashByte x) ∧ e.fld F.FUS_STATUS_BUSY = 0 ∧
        e.rel.fuses = s.dev.rel.fuses ∧ e.mem = s.dev.mem ∧ s.dev.sameRegs e [R.FUS_STATUS])) ∧
  (∀ s : State, s.dev.on = true → s.dev.rel.fuseCmd = 4 → Answers (.fuseCmdComplete true) s (fun e =>
      (∀ x, 0xF0000 ≤ x → e.flashByte x = 0xFF) ∧ (∀ x < 0xF0000, e.flashByte x = s.dev.flashByte x) ∧
      e.fld F.FUS_STATUS_BUSY = 0 ∧ e.rel.fuses = s.dev.rel.fuses ∧ e.mem = s.dev.mem ∧ s.dev.sameRegs e [R.FUS_STATUS]))

/-- Refresh, scrub and transparent test (13 R403 to R406; 14 R415 to R418, R435). A refresh shows whether its stack is hot and counts
the repeated commands; a scrub of a right word changes nothing but, at a pass's end, the count of passes; a single upset is corrected
and counted; more make the granule uncorrectable with event 0x413. A transparent test of units that are stored right changes no byte
(which bits an upset flips is the model's where R415 does not need them: assumption log 25).

INJECT (14 R420): by OWNER authority while the lock is open, the bits that ECC_INJ_BITS names are flipped in the stored word that
ECC_INJ_POS names, and nothing else changes.

The error log (14 R437 to R440): the oldest entry of the input queue goes into the slot that LOG_STATUS.IDX names, and IDX and
the count move on; here with no subscriber and no log trigger. CLEAR by OWNER authority makes every slot read 0, and its index and
counts 0; entries that wait stay. -/
def Obligations.ScrubInjectionAndLog : Prop :=
  (
  (∀ (s : State) (stack n : Nat) (hot : Bool), s.dev.on = true → stack < 8 → Answers (.hbmRefresh stack hot n) s (fun e =>
      (e.fld F.HBM_STATUS_HOT).testBit stack = hot ∧
      (∀ i, i ≠ stack → (e.fld F.HBM_STATUS_HOT).testBit i = (s.dev.fld F.HBM_STATUS_HOT).testBit i) ∧
      e.fld F.HBM_CA_CNT_COUNT = satAdd 32 (s.dev.fld F.HBM_CA_CNT_COUNT) n ∧ s.dev.sameRegs e [R.HBM_STATUS, R.HBM_CA_CNT] ∧
      s.dev.sameUnits e)) ∧
  (∀ (s : State) (a : Nat), s.dev.on = true → s.dev.fld F.HBM_SCRUB_CFG_PERIOD ≠ 0 → a < hbmEnd →
      s.dev.memCheck (a / 32 * 32) = .clean 0 →
      exec (.hbmScrubRead a .none false) s = .next s ∧
      exec (.hbmScrubRead a .none true) s = .next (s.withDev (s.dev.addFld F.HBM_SCRUB_PASS_COUNT 1)) ∧
      exec (.hbmScrubRead a .single false) s = .next (s.withDev (s.dev.addFld F.HBM_CE_CNT_COUNT 1)) ∧
      Answers (.hbmScrubRead a .many false) s (fun e => e.memCheck a = .uncorrectable ∧
        e.fld F.HBM_UE_CNT_COUNT = satAdd 32 (s.dev.fld F.HBM_UE_CNT_COUNT) 1 ∧
        e.log = (s.dev.event bHBM (s.dev.hbmStack (a / 32 * 32)) 0x413 0).log ∧ s.dev.sameBytes e ∧ e.loom = s.dev.loom)) ∧
  (∀ (s : State) (a : Nat), s.dev.on = true → s.dev.fld F.ECC_SCRUB_CFG_PERIOD ≠ 0 → beamMemBase ≤ a → s.dev.memCheck a = .clean 0 →
      exec (.eccScrubRead (.memory a) .none) s = .next s ∧
      exec (.eccScrubRead (.memory a) .single) s = .next (s.withDev (s.dev.countCE (eccClass a) (a / 4 % 2 ^ 32)))) ∧
  (∀ (s : State) (cls a : Nat), s.dev.on = true → Answers (.tmtRegionTest cls a false) s (fun e => (s.dev.chk = [] → s.dev.sameBytes e) ∧
      s.dev.sameRegs e [] ∧ e.loom = s.dev.loom ∧ e.log = s.dev.log)) ∧
  (∀ (s : State) (cls a : Nat), s.dev.on = true → (tmtRegion cls a).isSome = true →
      (s.dev.fld F.BST_TMT_CFG_CLASS).testBit cls = true → s.dev.fld F.BST_TMT_CFG_RATE ≠ 0 →
      Answers (.tmtRegionTest cls a true) s (fun e => (s.dev.chk = [] → s.dev.sameBytes e) ∧
        e.fld F.BST_TMT_ERR_COUNT = satAdd 32 (s.dev.fld F.BST_TMT_ERR_COUNT) 1 ∧ e.loom = s.dev.loom ∧
        s.dev.sameRegs e [R.BST_TMT_ERR, R.LOG_LOST]))) ∧
  (
  ∀ (s : State) (mid hn st p a b : Nat), s.dev.ringsOn = true → s.dev.ownerMay mid R.ECC_INJ_CMD → s.dev.unlocked = true →
    hn = hnOf (s.dev.fld F.ECC_INJ_POS_GB) (s.dev.fld F.ECC_INJ_POS_HARNESS) → st = s.dev.fld F.ECC_INJ_POS_STREAM →
    p = s.dev.fld F.ECC_INJ_POS_PICK → s.dev.loom.mapped hn = true → st ≤ 32 → p < s.dev.depth →
    s.dev.fld F.ECC_INJ_BITS_EN0 = 1 → s.dev.fld F.ECC_INJ_BITS_EN1 = 1 → a = s.dev.fld F.ECC_INJ_BITS_BIT0 →
    b = s.dev.fld F.ECC_INJ_BITS_BIT1 → a < 80 → b < 80 →
    exec (.inject mid) s = .next (s.withDev (s.dev.onLoom (fun l => { l with
      jacFlip := SMap.put 0 l.jacFlip (jacKey hn st p) (SMap.get 0 l.jacFlip (jacKey hn st p) ^^^
        BitVec.ofNat 80 (2 ^ a ||| 2 ^ b)) })))) ∧
  (
  (∀ (s : State) (x : LogWord) (t : List LogWord), s.dev.aonOn = true → s.dev.log.queue = x :: t → s.dev.logFull = false →
      s.dev.eth.subs = [] → (∀ i < 64, s.dev.trigEn i trLOG = false) → Answers .logEntryWrite s (fun e => e.log.queue = t ∧
        SMap.get 0 e.log.slots (s.dev.fld F.LOG_STATUS_IDX) = x ∧
        (∀ i, i ≠ s.dev.fld F.LOG_STATUS_IDX → SMap.get 0 e.log.slots i = SMap.get 0 s.dev.log.slots i) ∧
        e.fld F.LOG_STATUS_IDX = (s.dev.fld F.LOG_STATUS_IDX + 1) % 4096 ∧
        e.fld F.LOG_COUNT_COUNT = satAdd 32 (s.dev.fld F.LOG_COUNT_COUNT) 1 ∧ s.dev.sameUnits e ∧
        s.dev.sameRegs e [R.LOG_STATUS, R.LOG_COUNT])) ∧
  (∀ (s : State) (mid : Nat), s.dev.on = true → s.dev.ownerMay mid R.LOG_CTL → Answers (.logClear mid) s (fun e =>
      (∀ i, SMap.get 0 e.log.slots i = 0) ∧ e.fld F.LOG_STATUS_IDX = 0 ∧ e.reg R.LOG_COUNT = 0 ∧ e.reg R.LOG_LOST = 0 ∧
      e.log.queue = s.dev.log.queue ∧ e.mem = s.dev.mem ∧ e.loom = s.dev.loom)))

/-- A lane's life (09 R252, R255 to R258, R268, R282), warp lanes 0 to 127 and weft lanes 128 to 143. An enabled lane notes block lock,
which ends its receiver's wake; a disabled one ignores it. Lock lost while UP starts a fast retrain. In TRAINING a lane that holds lock
goes from phase 0 to 1 at a fitting RATE, keeping the far end's fields, and at the 16th PHASE 2 block of its own phase 2 it is UP with
its frames numbered anew; a preset request sets the taps. After a fast retrain the numbers go on; one whose eye is not open goes on in
phase 1 of a training. A training that times out takes the lane DOWN; the retry and the end of a fast retrain start a training. When a
receiver asks for a tap, and that a retrain without an eye goes on in phase 1, is as assumption log 8 has it. -/
def Obligations.LanesTrain : Prop :=
  ∀ (s : State) (ph : Nat), s.dev.on = true → ph < 144 →
    (s.dev.laneEn ph = true → s.dev.lanePwr ph < 2 → (s.dev.lane ph).rxWaits = false → exec (.blockLockGained ph) s =
      .next (s.withDev (s.dev.onLane ph (fun x => { x with lock := true })))) ∧
    (s.dev.laneEn ph = true → (s.dev.lane ph).rxWaits = true → Answers (.blockLockGained ph) s (fun e => (e.lane ph).lock = true ∧
      (e.lane ph).rxWaits = false ∧ e.lanePwr ph = s.dev.lanePwr ph % 2 ∧ (∀ j, j ≠ ph → e.lane j = s.dev.lane j) ∧
      e.mem = s.dev.mem ∧ s.dev.sameRegs e [instKey R.WRP_LANE_STATUS ph])) ∧
    (s.dev.laneEn ph = false → exec (.blockLockGained ph) s = .next s) ∧
    (s.dev.laneState ph = lnUp → s.dev.lanePwr ph < 2 → (128 ≤ ph → s.dev.linkUp ((ph - 128) / 4) = false) → Answers (.blockLockLost ph) s (fun e => e.laneState ph = lnRetrain ∧
      (e.lane ph).lock = false ∧ (e.lane ph).phase = 0 ∧ (e.lane ph).txq = (s.dev.lane ph).txq ∧
      e.fld (F.WRP_LANE_EVENTS_RETRAIN.at ph) = 1 ∧ (∀ j, j ≠ ph → e.lane j = s.dev.lane j) ∧ e.mem = s.dev.mem ∧
      e.loom = s.dev.loom ∧ s.dev.sameRegs e [instKey R.WRP_LANE_STATUS ph, R.WRP_UP0 + 4 * (ph / 32),
        instKey R.WRP_LANE_EVENTS ph, R.LOG_LOST])) ∧
    (∀ (t : Train) (ln : Nat) (eye : Bool) (ask : Nat), s.dev.laneState ph = lnTraining → (s.dev.lane ph).lock = true → t.req % 128 = 0 →
      (s.dev.lane ph).phase = 0 → t.rate = (s.dev.lane ph).rate → Answers (.trainBlockRx ph t ln eye ask) s (fun e =>
        (e.lane ph).phase = 1 ∧ (e.lane ph).resp = 0 ∧ (e.lane ph).txq = (s.dev.lane ph).txq ∧ (e.lane ph).farResp = t.resp ∧
        (e.lane ph).farPre = t.pre ∧ (e.lane ph).farPost = t.post ∧ (e.lane ph).farMain = t.main ∧ (e.lane ph).farLane = ln ∧
        ((s.dev.lane ph).req = 0 → eye = false → t.resp = 0 → (e.lane ph).req = ask % 128) ∧
        (∀ j, j ≠ ph → e.lane j = s.dev.lane j) ∧ e.mem = s.dev.mem ∧ e.loom = s.dev.loom ∧ s.dev.sameRegs e [])) ∧
    (∀ (t : Train) (ln : Nat) (eye : Bool) (ask : Nat), s.dev.laneState ph = lnTraining → (s.dev.lane ph).lock = true → t.req % 128 = 0 →
      t.phase = 2 → (s.dev.lane ph).phase = 2 → (s.dev.lane ph).phase2 = 15 → Answers (.trainBlockRx ph t ln eye ask) s (fun e =>
        e.laneState ph = lnUp ∧ (e.lane ph).txq.map WFrame.seq = (renumber 0 (s.dev.lane ph).txq).map WFrame.seq ∧
        (e.lane ph).txq.map WFrame.body = (s.dev.lane ph).txq.map WFrame.body ∧ (e.lane ph).lastAcc = 255 ∧
        (e.lane ph).nextSeq = (s.dev.lane ph).txq.length % 256 ∧ (e.lane ph).nak = false ∧
        (ph < 128 → e.fld ⟨R.WRP_UP0 + 4 * (ph / 32), ph % 32, ph % 32⟩ = 1) ∧
        (∀ j, j ≠ ph → e.lane j = s.dev.lane j) ∧ e.mem = s.dev.mem ∧ e.loom = s.dev.loom ∧
        s.dev.sameRegs e [instKey R.WRP_LANE_STATUS ph, R.WRP_UP0 + 4 * (ph / 32), R.LOG_LOST])) ∧
    (∀ (t : Train) (ln ask : Nat), s.dev.laneState ph = lnRetrain → (s.dev.lane ph).lock = true → t.req % 128 = 0 → t.phase = 2 →
      (s.dev.lane ph).phase2 = 15 → Answers (.trainBlockRx ph t ln true ask) s (fun e =>
        e.laneState ph = lnUp ∧ (e.lane ph).txq.map WFrame.seq = (s.dev.lane ph).txq.map WFrame.seq ∧ (e.lane ph).lastAcc = (s.dev.lane ph).lastAcc ∧
        (e.lane ph).nextSeq = (s.dev.lane ph).nextSeq ∧ (∀ j, j ≠ ph → e.lane j = s.dev.lane j) ∧ e.mem = s.dev.mem ∧
        s.dev.sameRegs e [instKey R.WRP_LANE_STATUS ph, R.WRP_UP0 + 4 * (ph / 32), R.LOG_LOST])) ∧
    (∀ (t : Train) (ln ask : Nat), s.dev.laneState ph = lnRetrain → (s.dev.lane ph).lock = true → t.req % 128 = 0 →
      Answers (.trainBlockRx ph t ln false ask) s (fun e => e.laneState ph = lnTraining ∧ (e.lane ph).phase = 1 ∧
        (e.lane ph).txq = (s.dev.lane ph).txq ∧ (∀ j, j ≠ ph → e.lane j = s.dev.lane j) ∧ e.mem = s.dev.mem ∧
        s.dev.sameRegs e [instKey R.WRP_LANE_STATUS ph, R.WRP_UP0 + 4 * (ph / 32)])) ∧
    (∀ (t : Train) (ln p ask : Nat) (eye : Bool), s.dev.laneState ph = lnTraining → (s.dev.lane ph).lock = false →
      (s.dev.lane ph).resp = 0 → p < 5 → t.req = 16 * (p + 1) → Answers (.trainBlockRx ph t ln eye ask) s (fun e => (e.lane ph).resp ≠ 0 ∧
        e.fld (F.WRP_LANE_TAPS_PRE.at ph) = (presetTaps p).1 ∧ e.fld (F.WRP_LANE_TAPS_POST.at ph) = (presetTaps p).2 ∧
        e.fld (F.WRP_LANE_TAPS_MAIN.at ph) = 64 - (presetTaps p).1 - (presetTaps p).2 ∧ e.mem = s.dev.mem ∧
        s.dev.sameRegs e [instKey R.WRP_LANE_TAPS ph])) ∧
    (s.dev.laneState ph = lnTraining → Answers (.laneTrainingTimeout ph) s (fun e => e.laneState ph = lnDown ∧
      e.fld (F.WRP_LANE_EVENTS_DOWN.at ph) = 1 ∧ (e.lane ph).failLogged = true ∧
      ((s.dev.lane ph).failLogged = true ∨ 128 ≤ ph → e.log = s.dev.log) ∧
      ((s.dev.lane ph).failLogged = false → ph < 128 → s.dev.log.queue.length < 64 → e.log.queue = s.dev.log.queue ++
        [logEntry s.dev.tick bWRP ph 0x501 (ph + (s.dev.lane ph).phase * 256)]) ∧ e.mem = s.dev.mem ∧ e.loom = s.dev.loom ∧
      s.dev.sameRegs e [instKey R.WRP_LANE_STATUS ph, R.WRP_UP0 + 4 * (ph / 32), instKey R.WRP_LANE_EVENTS ph, R.LOG_LOST])) ∧
    (s.dev.laneEn ph = true → s.dev.fld F.PWR_STATUS_DEV = 0 → s.dev.plat.txIdle = false →
      (128 ≤ ph → s.dev.linkState ((ph - 128) / 4) ≠ 1) → ∀ c ∈ [(lnDown, Instr.trainingRetryTimer ph),
      (lnRetrain, .fastRetrainTimeout ph)], s.dev.laneState ph = c.1 → Answers c.2 s (fun e => e.laneState ph = lnTraining ∧
        (e.lane ph).phase = 0 ∧ (e.lane ph).phase2 = 0 ∧ (e.lane ph).rate = s.dev.laneRate ph ∧ (e.lane ph).txq = (s.dev.lane ph).txq ∧
        e.fld (F.WRP_LANE_TAPS_POST.at ph) = (presetTaps (s.dev.fld (F.WRP_LANE_CFG_PRESET.at ph))).2 ∧
        (∀ j, j ≠ ph → e.lane j = s.dev.lane j) ∧ e.mem = s.dev.mem ∧ e.loom = s.dev.loom ∧
        s.dev.sameRegs e [instKey R.WRP_LANE_STATUS ph, R.WRP_UP0 + 4 * (ph / 32), instKey R.WRP_LANE_TAPS ph]))

/-- Blocks, acknowledgements and resends (09 R253, R267, R269, R272). An IDLE block's ACK takes the frames up to its SEQ off the
queue, here of frames that are no messages; a frame or block that fails sets NAK and is counted when its CRC failed, but not on a disabled lane; a resend is counted, and
the episode that reaches MAX starts a fast retrain; a reserved block type sets PROTO and writes event 0x506 detail 5. Outside a beat
the HOLD period queues a HOLD frame on a named lane that is UP and in L0; in a beat it does nothing. That each IDLE block with NAK is an
episode, when a frame counts as sent, and the detail of 0x506, are the model's (assumption logs 8, 11).

Responses (09 R267, R274, R275; 06 R166; 11 R329): a frame that is next in order and answers the oldest unanswered DATA frame is
delivered, kept among the newest four, and reaches the capture units' records; one with a wrong B leaves a void response and event
0x506 detail 2; one out of order leaves NAK and nothing else. The order of the two events is assumption log 11's, the four responses kept
assumption log 8's. -/
def Obligations.FramesAndResponses : Prop :=
  (
  ∀ s : State, s.dev.on = true →
    (∀ (ph ack status i : Nat) (rr : Bool), ph < 128 → s.dev.laneState ph = lnUp → status % 4 = 0 →
      (s.dev.lane ph).txq.findIdx? (fun f => f.seq == ack) = some i → (∀ f ∈ (s.dev.lane ph).txq, f.msg = 0) →
      (s.dev.lane ph).pwrPend = 0 → (s.dev.lane ph).txWaits = false → (∀ en < 16, (s.dev.msg en).due = false) → exec (.idleBlockRx ph ack status false rr) s = .next (s.withDev
        ((s.dev.onLane ph (fun x => { x with rxReady := rr })).onLane ph (fun x => { x with
          txq := x.txq.drop (i + 1), episodes := 0 })))) ∧
    (∀ (ph ack status i : Nat) (rr : Bool), 128 ≤ ph → s.dev.laneState ph = lnUp →
      (s.dev.link ((ph - 128) / 4)).txq.findIdx? (fun f => f.seq == ack % 65536) = some i → (s.dev.link ((ph - 128) / 4)).due = [] →
      exec (.idleBlockRx ph ack status false rr) s = .next (s.withDev
        ((s.dev.onLane ph (fun x => { x with rxReady := rr })).onLink ((ph - 128) / 4) (fun w => { w with
          txq := w.txq.drop (i + 1), episodes := 0 })))) ∧
    (∀ (ph : Nat) (isFrame badCrc : Bool), ph < 128 → s.dev.laneEn ph = true → Answers (.frameCrcFail ph isFrame badCrc) s (fun e =>
      (e.lane ph).nak = (isFrame || badCrc || (s.dev.lane ph).nak) ∧ (e.lane ph).lastAcc = (s.dev.lane ph).lastAcc ∧
      (e.lane ph).txq = (s.dev.lane ph).txq ∧ e.fld (F.WRP_LANE_ERR_CRC.at ph) =
        (if badCrc = true then satAdd 16 (s.dev.fld (F.WRP_LANE_ERR_CRC.at ph)) 1 else s.dev.fld (F.WRP_LANE_ERR_CRC.at ph)) ∧
      e.mem = s.dev.mem ∧ e.loom = s.dev.loom ∧ e.log = s.dev.log ∧ s.dev.sameRegs e [instKey R.WRP_LANE_ERR ph])) ∧
    (∀ (ph : Nat) (isFrame badCrc : Bool), ph < 144 → s.dev.laneEn ph = false → exec (.frameCrcFail ph isFrame badCrc) s = .next s) ∧
    (∀ (ph : Nat) (isFrame badCrc : Bool), 128 ≤ ph → ph < 144 → s.dev.laneEn ph = true → Answers (.frameCrcFail ph isFrame badCrc) s (fun e =>
      (e.link ((ph - 128) / 4)).nak = (isFrame || badCrc || (s.dev.link ((ph - 128) / 4)).nak) ∧ e.warp = s.dev.warp ∧
      e.mem = s.dev.mem ∧ e.loom = s.dev.loom ∧ e.log = s.dev.log ∧
      s.dev.sameRegs e [instKey R.WFT_LINK_ERR ((ph - 128) / 4)])) ∧
    (∀ ph, ph < 128 → s.dev.laneState ph = lnUp → (s.dev.lane ph).txq ≠ [] → Answers (.resendTimeout ph) s (fun e =>
      e.fld (F.WRP_LANE_ERR_RESENT.at ph) = satAdd 16 (s.dev.fld (F.WRP_LANE_ERR_RESENT.at ph)) 1 ∧
      (e.lane ph).txq = (s.dev.lane ph).txq ∧ e.mem = s.dev.mem ∧ e.loom = s.dev.loom ∧
      (if max 1 (s.dev.fld F.WRP_RETRY_CFG_MAX) ≤ (s.dev.lane ph).episodes + 1
        then e.laneState ph = lnRetrain ∧ (e.lane ph).episodes = 0
        else e.laneState ph = lnUp ∧ (e.lane ph).episodes = (s.dev.lane ph).episodes + 1))) ∧
    (∀ ph, ph < 128 → s.dev.laneEn ph = true → s.dev.log.queue.length < 64 → Answers (.reservedCtypeRx ph) s (fun e =>
      e.fld (F.WRP_LANE_EVENTS_PROTO.at ph) = 1 ∧ e.log.queue = s.dev.log.queue ++
        [logEntry s.dev.tick bWRP ph 0x506 (ph + 5 * 256)] ∧ s.dev.sameUnits e ∧
      s.dev.sameRegs e [instKey R.WRP_LANE_EVENTS ph])) ∧
    (∀ l, s.dev.ts ∈ [tsIdle, tsArmed, tsStarting, tsHalted] → s.dev.fld F.TRD_CTL_MODE ≠ 1 → s.dev.plat.txIdle = false →
      s.dev.warp.mapped = true → s.dev.namedLanes = [l] → s.dev.laneState (s.dev.phys l) = lnUp →
      s.dev.lanePwr (s.dev.phys l) = 0 → s.dev.txqLen (s.dev.phys l) < 64 →
      exec .holdFramePeriod s = .next (s.withDev (s.dev.queueFrame (s.dev.phys l) ⟨2, 0, s.dev.loom.beat % 65536,
        ((s.dev.laneEntry (s.dev.logical (s.dev.phys l))).map PM.bm1).getD 0, s.dev.frameStatus, 0, 0, false⟩))) ∧
    (s.dev.ts = tsBeat → s.dev.trd.recovery = 0 → exec .holdFramePeriod s = .next s)) ∧
  (
  ∀ (s : State) (ph seq ack status beat bm1 ns b : Nat) (rest : List (Nat × Nat)) (compare : Nat) (samples : List Word),
    s.dev.on = true → ph < 128 → s.dev.laneState ph = lnUp → (s.dev.lane ph).unanswered = (beat % 65536, b) :: rest →
    (s.dev.lane ph).txq.findIdx? (fun f => f.seq == ack) = none → status % 4 = 0 →
    (seq = ((s.dev.lane ph).lastAcc + 1) % 256 → b = bm1 → ns ≤ 2 * (bm1 + 1) →
      Answers (.respRx ph seq ack status beat bm1 ns false compare samples) s (fun e =>
        (e.lane ph).resps = ((s.dev.lane ph).resps ++ [(⟨beat % 65536, false, compare, samples, false, false⟩ : Resp)]).drop
          ((s.dev.lane ph).resps.length + 1 - 4) ∧ (e.lane ph).unanswered = rest ∧ (e.lane ph).lastAcc = seq ∧
        (e.lane ph).nak = false ∧ (∀ u < 16, (e.cu u).pend = (s.dev.cu u).pend.map
          (s.dev.recordTakes u ph ⟨beat % 65536, false, compare, samples, false, false⟩)) ∧
        (∀ j, j ≠ ph → e.lane j = s.dev.lane j) ∧ e.regs = s.dev.regs ∧ e.mem = s.dev.mem ∧ e.loom = s.dev.loom ∧
        e.log = s.dev.log)) ∧
    (seq = ((s.dev.lane ph).lastAcc + 1) % 256 → b ≠ bm1 → s.dev.log.queue.length < 63 →
      Answers (.respRx ph seq ack status beat bm1 ns false compare samples) s (fun e =>
        (e.lane ph).resps = ((s.dev.lane ph).resps ++ [(⟨beat % 65536, true, 0, [], false, false⟩ : Resp)]).drop
          ((s.dev.lane ph).resps.length + 1 - 4) ∧ (e.lane ph).unanswered = rest ∧ e.fld (F.WRP_LANE_EVENTS_PROTO.at ph) = 1 ∧
        e.log.queue = s.dev.log.queue ++ [logEntry s.dev.tick bWRP ph 0x506 (ph + 2 * 256),
          logEntry s.dev.tick bWRP ph 0x506 (ph + 6 * 256)] ∧ e.mem = s.dev.mem ∧ e.loom = s.dev.loom ∧
        s.dev.sameRegs e [instKey R.WRP_LANE_EVENTS ph])) ∧
    (seq ≠ ((s.dev.lane ph).lastAcc + 1) % 256 → s.dev.laneEn ph = true →
      exec (.respRx ph seq ack status beat bm1 ns false compare samples) s = .next (s.withDev
        (s.dev.onLane ph (fun x => { x with nak := true })))))

/-- Power states and loopbacks (09 R253, R281 to R283). A PWR block notes the far end's sleep on an enabled lane; a LOOP block is followed only where
REMOTE_LB_OK allows it on a lane that no port map names, and its end starts a training. A request for a lane in use while beats run
is refused with PWR_REF; else, in L0, the receiver's sleep takes effect at once and the transmitter's once the queue is empty, with
their PWR block; a lane asleep in both waits, after a request for L0, for RX_READY and block lock. A loopback of a
lane in use is refused with LB_REF; of another it starts, and mode 0 ends it with a training.A request in device LOW is kept for the
exit, which is the model's reading (assumption log 8). -/
def Obligations.LanePowerAndLoopbacks : Prop :=
  ∀ (s : State) (ph : Nat), s.dev.on = true → ph < 128 →
    (s.dev.laneEn ph = true → exec (.pwrBlockRx ph 1) s = .next (s.withDev (s.dev.onLane ph (fun x => { x with farTxSleep := true }))) ∧
      exec (.pwrBlockRx ph 2) s = .next (s.withDev (s.dev.onLane ph (fun x => { x with farRxSleep := true }))) ∧
      exec (.pwrBlockRx ph 3) s = .next (s.withDev (s.dev.onLane ph (fun x => { x with
        farTxSleep := false, farRxSleep := false })))) ∧
    (s.dev.fld (F.WRP_LANE_CFG_REMOTE_LB_OK.at ph) = 1 → s.dev.isNamed ph = false → s.dev.laneState ph = lnUp →
      Answers (.loopBlockRx ph true) s (fun e => e.laneState ph = lnLoopback ∧ (e.lane ph).remoteLoop = true ∧
        (∀ j, j ≠ ph → e.lane j = s.dev.lane j) ∧ e.mem = s.dev.mem ∧ e.loom = s.dev.loom ∧
        s.dev.sameRegs e [instKey R.WRP_LANE_STATUS ph, R.WRP_UP0 + 4 * (ph / 32)])) ∧
    ((s.dev.fld (F.WRP_LANE_CFG_REMOTE_LB_OK.at ph) = 0 ∨ s.dev.isNamed ph = true) → exec (.loopBlockRx ph true) s = .next s) ∧
    ((s.dev.lane ph).remoteLoop = true → s.dev.laneEn ph = true → s.dev.txMute = false → Answers (.loopBlockRx ph false) s (fun e =>
      e.laneState ph = lnTraining ∧ (e.lane ph).remoteLoop = false ∧ e.mem = s.dev.mem ∧
      s.dev.sameRegs e [instKey R.WRP_LANE_STATUS ph, R.WRP_UP0 + 4 * (ph / 32), instKey R.WRP_LANE_TAPS ph,
        instKey R.WRP_LANE_PRBS_ERR ph])) ∧
    (∀ req < 4, s.dev.ringsOn = true → s.dev.isNamed ph = true → s.dev.ts = tsBeat → Answers (.lanePowerRequest ph req) s (fun e =>
      e.fld (F.WRP_LANE_EVENTS_PWR_REF.at ph) = 1 ∧ e.lanePwr ph = s.dev.lanePwr ph ∧ e.warp = s.dev.warp ∧ e.mem = s.dev.mem ∧
      s.dev.sameRegs e [instKey R.WRP_LANE_EVENTS ph, R.LOG_LOST])) ∧
    (∀ req < 4, s.dev.ringsOn = true → s.dev.isNamed ph = false → s.dev.lanePwr ph = 0 → (s.dev.lane ph).pwrSaved = 0 → (req % 2 = 0 ∨ (s.dev.lane ph).txq = []) →
      Answers (.lanePowerRequest ph req) s (fun e => e.lanePwr ph = req ∧ (e.lane ph).pwrPend = 0 ∧
      (e.lane ph).pwrSent = (if req % 2 = 1 then 1 else if req = 2 then 2 else (s.dev.lane ph).pwrSent) ∧ e.mem = s.dev.mem ∧ e.log = s.dev.log ∧
      s.dev.sameRegs e [instKey R.WRP_LANE_PWR ph, instKey R.WRP_LANE_STATUS ph])) ∧
    (s.dev.ringsOn = true → s.dev.isNamed ph = false → s.dev.lanePwr ph = 3 → (s.dev.lane ph).pwrSaved = 0 → Answers (.lanePowerRequest ph 0) s (fun e =>
      e.lanePwr ph = 3 ∧ (e.lane ph).txWaits = true ∧ (e.lane ph).rxWaits = true ∧ (e.lane ph).pwrSent = 3 ∧ e.mem = s.dev.mem ∧
      s.dev.sameRegs e [instKey R.WRP_LANE_PWR ph, instKey R.WRP_LANE_STATUS ph])) ∧
    (∀ req < 4, s.dev.ringsOn = true → s.dev.isNamed ph = false → req % 2 = 1 → (s.dev.lane ph).pwrSaved = 0 → (s.dev.lane ph).txq ≠ [] → Answers (.lanePowerRequest ph req) s (fun e =>
      e.lanePwr ph = s.dev.lanePwr ph ∧ (e.lane ph).pwrPend = req + 1 ∧ (e.lane ph).txq = (s.dev.lane ph).txq ∧ e.mem = s.dev.mem ∧
      s.dev.sameRegs e [instKey R.WRP_LANE_PWR ph])) ∧
    (∀ req < 4, s.dev.ringsOn = true → s.dev.isNamed ph = false → (s.dev.lane ph).pwrSaved ≠ 0 → Answers (.lanePowerRequest ph req) s (fun e =>
      e.lanePwr ph = s.dev.lanePwr ph ∧ (e.lane ph).pwrSaved = req + 1 ∧ (e.lane ph).txq = (s.dev.lane ph).txq ∧ e.mem = s.dev.mem ∧
      s.dev.sameRegs e [instKey R.WRP_LANE_PWR ph])) ∧
    (∀ (mode : Nat) (prbs : Bool), s.dev.ringsOn = true → mode ≠ 0 → mode < 4 → s.dev.isNamed ph = true → Answers (.loopbackRequest ph mode prbs) s (fun e =>
      e.fld (F.WRP_LANE_EVENTS_LB_REF.at ph) = 1 ∧ e.laneState ph = s.dev.laneState ph ∧ e.warp = s.dev.warp ∧ e.mem = s.dev.mem ∧
      s.dev.sameRegs e [instKey R.WRP_LANE_EVENTS ph, R.LOG_LOST])) ∧
    (∀ (mode : Nat) (prbs : Bool), s.dev.ringsOn = true → mode ≠ 0 → mode < 4 → s.dev.isNamed ph = false →
      Answers (.loopbackRequest ph mode prbs) s (fun e => e.laneState ph = lnLoopback ∧ e.fld (F.WRP_LANE_LB_MODE.at ph) = mode ∧
        e.fld (F.WRP_LANE_LB_PRBS.at ph) = b2n prbs ∧ (prbs = true → e.reg (instKey R.WRP_LANE_PRBS_ERR ph) = 0) ∧
        e.warp = s.dev.warp ∧ e.mem = s.dev.mem ∧ s.dev.sameRegs e [instKey R.WRP_LANE_LB ph, instKey R.WRP_LANE_PRBS_ERR ph,
          instKey R.WRP_LANE_STATUS ph, R.WRP_UP0 + 4 * (ph / 32)])) ∧
    (s.dev.ringsOn = true → s.dev.fld (F.WRP_LANE_LB_MODE.at ph) ≠ 0 → s.dev.laneEn ph = true → s.dev.txMute = false → Answers (.loopbackRequest ph 0 false) s (fun e =>
      e.laneState ph = lnTraining ∧ e.fld (F.WRP_LANE_LB_MODE.at ph) = 0 ∧ e.mem = s.dev.mem ∧
      s.dev.sameRegs e [instKey R.WRP_LANE_LB ph, instKey R.WRP_LANE_STATUS ph, R.WRP_UP0 + 4 * (ph / 32),
        instKey R.WRP_LANE_TAPS ph, instKey R.WRP_LANE_PRBS_ERR ph]))

/-- Messages (09 R266, R284, R290). SEND of an entry that is not PENDING, on a lane that is UP and awake, is PENDING and its frame
enters the queue behind the frames there, or waits for room or for its time; with LEN above 63, or on a lane that is not, it is refused. MSG_ABORT
of an entry that still waits is ABORTED, and of one that is not PENDING or on the wire leaves reason 4. A payload word goes to the pointer's place,
up to 64. A received message enters the queue of 16, or is dropped with event 0x509; POP takes the oldest; a data read moves on by one
word. That a message which finds the queue full waits for room, and which SEND has reason 3, are assumption logs 8 and 11. -/
def Obligations.Messages : Prop :=
  (∀ (s : State) (en : Nat), s.dev.ringsOn = true → s.dev.fld F.WRP_MSG_SEL_ENTRY = en →
    (∀ lane len, s.dev.fld (F.WRP_MSG_STATUS_STATUS.at en) ≠ 1 → len < 64 → s.dev.laneL0 (s.dev.phys lane) = true →
      64 ≤ s.dev.txqLen (s.dev.phys lane) → Answers (.send lane len false) s (fun e =>
        e.fld (F.WRP_MSG_STATUS_STATUS.at en) = 1 ∧ (e.msg en).due = true ∧ (e.msg en).wait = false ∧ (e.msg en).lane = lane ∧
        (e.msg en).len = len ∧ e.warp.lanes = s.dev.warp.lanes ∧ e.mem = s.dev.mem ∧
        s.dev.sameRegs e [instKey R.WRP_MSG_STATUS en])) ∧
    (∀ lane len, s.dev.fld (F.WRP_MSG_STATUS_STATUS.at en) ≠ 1 → len < 64 → s.dev.laneL0 (s.dev.phys lane) = true →
      s.dev.txqLen (s.dev.phys lane) < 64 → Answers (.send lane len false) s (fun e => e.fld (F.WRP_MSG_STATUS_STATUS.at en) = 1 ∧
        e.fld (F.WRP_MSG_STATUS_REASON.at en) = 0 ∧ (e.lane (s.dev.phys lane)).txq = (s.dev.lane (s.dev.phys lane)).txq ++
          [⟨3, (s.dev.lane (s.dev.phys lane)).nextSeq, 0, 0, s.dev.frameStatus,
            wordsNat ((s.dev.msg en).words.take (len + 1)) + len * 2 ^ 2048, en + 1, true⟩] ∧ (e.msg en).wait = false ∧ (e.msg en).due = false ∧
        (∀ j, j ≠ s.dev.phys lane → e.lane j = s.dev.lane j) ∧ e.mem = s.dev.mem ∧ e.loom = s.dev.loom ∧ e.log = s.dev.log ∧
        s.dev.sameRegs e [instKey R.WRP_MSG_STATUS en])) ∧
    (∀ lane len, s.dev.fld (F.WRP_MSG_STATUS_STATUS.at en) ≠ 1 → len < 64 → s.dev.laneL0 (s.dev.phys lane) = true →
      s.dev.tooLate (s.dev.reg (instKey R.WRP_MSG_AT en)) = false → Answers (.send lane len true) s (fun e =>
        e.fld (F.WRP_MSG_STATUS_STATUS.at en) = 1 ∧ (e.msg en).wait = true ∧ (e.msg en).lane = lane ∧ (e.msg en).len = len ∧
        e.warp.lanes = s.dev.warp.lanes ∧ e.mem = s.dev.mem ∧ e.log = s.dev.log ∧ s.dev.sameRegs e [instKey R.WRP_MSG_STATUS en])) ∧
    (∀ lane len timed, s.dev.fld (F.WRP_MSG_STATUS_STATUS.at en) ≠ 1 → (64 ≤ len ∨ s.dev.laneL0 (s.dev.phys lane) = false) →
      Answers (.send lane len timed) s (fun e => e.fld (F.WRP_MSG_STATUS_STATUS.at en) = 4 ∧
        e.fld (F.WRP_MSG_STATUS_REASON.at en) = (if 64 ≤ len then 3 else 2) ∧ e.warp = s.dev.warp ∧ e.mem = s.dev.mem ∧
        s.dev.sameRegs e [instKey R.WRP_MSG_STATUS en])) ∧
    (s.dev.fld (F.WRP_MSG_STATUS_STATUS.at en) = 1 → ((s.dev.msg en).wait = true ∨ (s.dev.msg en).due = true) →
      Answers .msgAbort s (fun e => e.fld (F.WRP_MSG_STATUS_STATUS.at en) = 3 ∧ (e.msg en).wait = false ∧ (e.msg en).due = false ∧ e.warp.lanes = s.dev.warp.lanes ∧ e.mem = s.dev.mem ∧
      s.dev.sameRegs e [instKey R.WRP_MSG_STATUS en])) ∧
    ((s.dev.fld (F.WRP_MSG_STATUS_STATUS.at en) ≠ 1 ∨ ((s.dev.msg en).wait = false ∧ (s.dev.msg en).due = false ∧
      ∀ f ∈ (s.dev.lane (s.dev.phys (s.dev.msg en).lane)).txq, f.sent = true)) → exec .msgAbort s = .next (s.withDev
      (s.dev.setFld (F.WRP_MSG_STATUS_REASON.at en) 4))) ∧
    (∀ w : Word, s.dev.warp.msgPtr < 64 → Answers (.msgDataWrite w) s (fun e =>
      (e.msg en).words.getD s.dev.warp.msgPtr 0 = w ∧ (∀ n, n ≠ s.dev.warp.msgPtr → (e.msg en).words.getD n 0 =
        (s.dev.msg en).words.getD n 0) ∧ e.warp.msgPtr = s.dev.warp.msgPtr + 1 ∧ e.regs = s.dev.regs ∧ e.mem = s.dev.mem)) ∧
    (∀ w : Word, 64 ≤ s.dev.warp.msgPtr → exec (.msgDataWrite w) s = .next s) ∧
    (exec .pop s = .next (s.withDev { s.dev with warp := { s.dev.warp with rx := s.dev.warp.rx.drop 1, rxPtr := 0 } })) ∧
    (s.dev.warp.rx ≠ [] → exec .rxmsgDataRead s = .next (s.withDev { s.dev with warp := { s.dev.warp with
      rxPtr := s.dev.warp.rxPtr + 1 } }))) ∧
  (∀ s : State, s.dev.on = true →
    (∀ (ph seq ack status : Nat) (ws : List Word), s.dev.laneState ph = lnUp → seq = ((s.dev.lane ph).lastAcc + 1) % 256 →
      (s.dev.lane ph).txq.findIdx? (fun f => f.seq == ack) = none → status % 4 = 0 → s.dev.log.queue.length < 64 → ph < 128 →
      Answers (.msgRx ph seq ack status false ws) s (fun e => (e.lane ph).lastAcc = seq ∧ e.regs = s.dev.regs ∧ e.mem = s.dev.mem ∧
        (if s.dev.warp.rx.length < 16
          then e.warp.rx = s.dev.warp.rx ++ [(s.dev.logical ph, ws)] ∧ e.log = s.dev.log
          else e.warp.rx = s.dev.warp.rx ∧ e.warp.msgOvf = true ∧
            e.log.queue = s.dev.log.queue ++ [logEntry s.dev.tick bWRP ph 0x509 ph]))))

/-- A link's life (10 R292, R295, R300, R304, R305). Its four lanes UP make it UP, or UNUSED where the topology joins nothing, with event
0x320; a lane or the alignment lost, or MAX resends without an ACK, takes it out of UP with event 0x321 and its lanes into a fast retrain
with event 0x322; a lane that fails to train makes it DOWN; a resend is counted; a required link lost while a member waits for its barrier or marker halts the device with cause 5. What a
link whose lanes come back by a fast retrain returns to is the model's reading (assumption log 9). -/
def Obligations.LinksComeAndGo : Prop :=
  ∀ (s : State) (p : Nat), s.dev.on = true → p < 4 →
    (∀ full : Bool, s.dev.lanesUp p = true → s.dev.linkUp p = false → (s.dev.joins (s.dev.logLink p)) = none →
      Answers (.linkUp p full) s (fun e => e.linkState p = 6 ∧ e.mem = s.dev.mem ∧ e.loom = s.dev.loom ∧
        (e.link p).episodes = 0 ∧ (full = true → (e.link p).lastAcc = 65535) ∧
        e.log = (s.dev.event bWFT p 0x320 p).log ∧
        s.dev.sameRegs e [instKey R.WFT_LINK_STATUS p, R.LOG_LOST])) ∧
    (∀ full : Bool, s.dev.lanesUp p = true → s.dev.linkUp p = false → (s.dev.joins (s.dev.logLink p)).isSome = true →
      (s.dev.link p).due = [] → (s.dev.link p).bytes + 24 ≤ 65536 → Answers (.linkUp p full) s (fun e =>
        e.linkState p = (if full = false ∧ ((s.dev.link p).was = 4 ∨ (s.dev.link p).was = 5) then (s.dev.link p).was else 3) ∧
        (∃ f ∈ (e.link p).txq, f.typ = 4) ∧ e.mem = s.dev.mem ∧
        e.log = (s.dev.event bWFT p 0x320 (p + 256 * (s.dev.nbrPos p % 16))).log ∧
        e.loom = s.dev.loom ∧ (full = true → (e.link p).lastAcc = 65535) ∧ (∀ q, q ≠ p → e.link q = s.dev.link q) ∧
        s.dev.sameRegs e [instKey R.WFT_LINK_STATUS p, R.LOG_LOST])) ∧
    (s.dev.lanesUp p = false → s.dev.linkUp p = false → s.dev.linkState p = 2 → (s.dev.link p).was ≠ 0 →
      (∃ i < 4, s.dev.laneState (128 + 4 * p + i) = lnDown) → exec (.linkDown p) s = .next (s.withDev (s.dev.setLinkState p 1))) ∧
    (s.dev.linkUp p = true → ∀ c ∈ [Instr.alignBlockRx p true, .linkDown p], (c = .linkDown p → s.dev.lanesUp p = false) →
      Answers c s (fun e => e.linkState p = 2 ∧ (e.link p).was = s.dev.linkState p ∧ (e.link p).txq = (s.dev.link p).txq ∧
        (∀ i < 4, s.dev.laneState (128 + 4 * p + i) = lnUp → e.laneState (128 + 4 * p + i) = lnRetrain) ∧
        (∀ i < 4, s.dev.laneState (128 + 4 * p + i) ≠ lnUp → e.laneState (128 + 4 * p + i) = s.dev.laneState (128 + 4 * p + i)) ∧
        (s.dev.log.queue.length < 63 → ∃ lane < 4, e.log.queue = s.dev.log.queue ++
          [logEntry s.dev.tick bWFT p 0x321 (p + 4 * lane + 256 * (s.dev.nbrPos p % 16)),
            logEntry s.dev.tick bWFT p 0x322 (p + 4 * lane + 256 * (s.dev.nbrPos p % 16))]) ∧
        (∀ q, q ≠ p → e.link q = s.dev.link q) ∧ e.mem = s.dev.mem ∧ e.loom = s.dev.loom)) ∧
    (exec (.alignBlockRx p false) s = .next s) ∧
    (s.dev.linkUp p = true → (s.dev.link p).txq ≠ [] →
      (s.dev.link p).episodes + 1 < max 1 (s.dev.fld F.WFT_RETRY_CFG_MAX) → Answers (.weftResendTimeout p) s (fun e =>
        e.fld (F.WFT_LINK_ERR_RESENT.at p) = satAdd 16 (s.dev.fld (F.WFT_LINK_ERR_RESENT.at p)) 1 ∧
        (e.link p).episodes = (s.dev.link p).episodes + 1 ∧ (e.link p).txq = (s.dev.link p).txq ∧ e.mem = s.dev.mem ∧
        s.dev.sameRegs e [instKey R.WFT_LINK_ERR p])) ∧
    (s.dev.linkUp p = true → (s.dev.link p).txq ≠ [] →
      max 1 (s.dev.fld F.WFT_RETRY_CFG_MAX) ≤ (s.dev.link p).episodes + 1 → Answers (.weftResendTimeout p) s (fun e =>
        e.linkState p = 2 ∧ (e.link p).episodes = 0 ∧ (e.link p).txq = (s.dev.link p).txq ∧ e.mem = s.dev.mem ∧
        e.log = ((s.dev.event bWFT p 0x321 (p + 256 * (s.dev.nbrPos p % 16))).event bWFT p 0x322
          (p + 256 * (s.dev.nbrPos p % 16))).log)) ∧
    ((s.dev.joins (s.dev.logLink p)).isSome = true → s.dev.linkState p < 3 → s.dev.ts = tsWaiting →
      (s.dev.unmet6 = 2 ∨ s.dev.unmet6 = 3) → exec (.linkLostTimeout p) s = .next (s.withDev
        ((s.dev.linkEvent p 0x324 0 (s.dev.nbrPos p)).haltNow 5 false)))

/-- Frames of the weave (10 R295 to R303; 04 R117, R119; 06 R184), each the next in order on an UP link of the weave, with nothing acknowledged.
A bundle for the beat in progress goes onto the rings, one for the next beat is kept; a MARK raises the link's barrier and the origin's
commit marker and goes on once over the other UP links; a DONE newer than the kept one is kept and shown in MIRROR; a halt note halts at
the commit; a PEER frame that the rules turn away writes event 0x325. A STATUS that fits takes the link into use, and another makes
it MISMATCHED. The timers repeat this device's STATUS and DONE. When a
full retry buffer lets the next frame go, and which bundles wait, is as assumption log 9 has it. -/
def Obligations.WeftFrames : Prop :=
  (∀ (s : State) (p seq ack : Nat), s.dev.on = true → p < 4 → s.dev.linkOpen p = true →
    seq = ((s.dev.link p).lastAcc + 1) % 65536 → (s.dev.link p).txq.findIdx? (fun f => f.seq == ack % 65536) = none →
    (∀ beat flow v, beat % 16 = s.dev.stageBeat → exec (.bundleFrameRx p seq ack false beat flow [v]) s = .next (s.withDev
      ((s.dev.onLink p (fun w => { w with lastAcc := seq, nak := false })).gatewayPut p flow v))) ∧
    (∀ beat flow v, beat % 16 = (s.dev.stageBeat + 1) % 16 → (s.dev.link p).early = [] →
      exec (.bundleFrameRx p seq ack false beat flow [v]) s = .next (s.withDev
        ((s.dev.onLink p (fun w => { w with lastAcc := seq, nak := false })).onLink p (fun w => { w with
          early := [(beat % 16, flow, v)] })))) ∧
    (∀ (origin beat : Nat) (tb : Word), s.dev.ts = tsBeat → s.dev.weft.start = .idle → origin ≠ s.dev.position →
      SMap.get 0 s.dev.weft.fwdMark (2 * origin) < beat + 1 →
      Answers (.markFrameRx p seq ack false true true false origin beat tb) s (fun e =>
        (e.link p).barrier = max (s.dev.link p).barrier (beat + 1) ∧ (e.link p).txq = (s.dev.link p).txq ∧
        SMap.get 0 e.weft.marks origin = max (SMap.get 0 s.dev.weft.marks origin) (beat + 1) ∧
        (∀ q, q ≠ origin → SMap.get 0 e.weft.marks q = SMap.get 0 s.dev.weft.marks q) ∧
        SMap.get 0 e.weft.fwdMark (2 * origin) = beat + 1 ∧
        (∀ q < 4, q ≠ p → s.dev.linkOpen q = true → e.link q =
          (s.dev.link q).take ⟨2, 0, markHead false true false origin, markBody beat tb, 16⟩) ∧
        e.regs = s.dev.regs ∧ e.mem = s.dev.mem ∧ e.loom = s.dev.loom ∧ e.log = s.dev.log)) ∧
    (∀ (origin gen : Nat) (released : Bool), origin ≠ s.dev.position → origin < 16 → gen < 256 →
      SMap.get 0 s.dev.weft.done origin = 0 → Answers (.doneFrameRx p seq ack false origin released gen) s (fun e =>
        SMap.get 0 e.weft.done origin = 1 + 2 * gen + b2n released ∧
        (e.fld F.LDR_DONE_MIRROR).testBit origin = released ∧ (e.link p).txq = (s.dev.link p).txq ∧
        (∀ q < 4, q ≠ p → s.dev.linkOpen q = true → e.link q =
          (s.dev.link q).take ⟨5, 0, origin * 2 ^ 23 + b2n released * 2 ^ 22 + gen * 2 ^ 14, 0, 0⟩) ∧
        e.mem = s.dev.mem ∧ e.loom = s.dev.loom ∧ s.dev.sameRegs e [R.LDR_DONE])) ∧
    (∀ (src tag args : Nat), s.dev.linkInUse p = true → s.dev.ts = tsBeat → s.dev.weft.start = .idle → src ≠ s.dev.position →
      s.dev.weft.fwdPeer.contains (src, tag) = false → Answers (.peerFrameRx p seq ack false src 0 true 4 tag args) s (fun e =>
        e.loom = { s.dev.loom with haltReq := some (s.dev.loom.haltReq.getD 5) } ∧ e.weft.fwdPeer.contains (src, tag) = true ∧
        (∀ q < 4, q ≠ p → s.dev.linkOpen q = true → e.link q = (s.dev.link q).take ⟨3, 0, peerHead src 0 true 4 tag, args, 8⟩) ∧
        e.regs = s.dev.regs ∧ e.mem = s.dev.mem ∧ e.log = s.dev.log)) ∧
    (∀ (src tag args : Nat), src ≠ s.dev.position → src < 16 → s.dev.weft.fwdPeer.contains (src, tag) = false →
      s.dev.log.queue.length < 64 → Answers (.peerFrameRx p seq ack false src 0 true 6 tag args) s (fun e =>
        e.log.queue = s.dev.log.queue ++ [logEntry s.dev.tick bWFT p 0x325 (p + src * 256)] ∧ e.regs = s.dev.regs ∧
        e.mem = s.dev.mem ∧ e.loom = s.dev.loom ∧ e.trd = s.dev.trd))) ∧
  (∀ (s : State) (p seq ack sys pos role size topo far : Nat) (n : Nat × Nat), s.dev.on = true → p < 4 →
    s.dev.linkState p = 3 → seq = ((s.dev.link p).lastAcc + 1) % 65536 →
    (s.dev.link p).txq.findIdx? (fun f => f.seq == ack % 65536) = none → s.dev.joins (s.dev.logLink p) = some n → pos < 16 →
    Answers (.statusFrameRx p seq ack false sys pos role size topo far) s (fun e =>
      e.linkState p = (if sys = (s.dev.charter.map Charter.systemId).getD 0 ∧ size = s.dev.weaveSize ∧
        topo = s.dev.fld F.WFT_CTL_TOPO ∧ pos = n.1 ∧ far = n.2 then 4 else 5) ∧
      e.fld (F.WFT_LINK_STATUS_NBR.at p) = pos ∧ (e.link p).nbrRole = role ∧ (e.link p).lastAcc = seq ∧ e.mem = s.dev.mem ∧
      e.loom = s.dev.loom ∧ s.dev.sameRegs e [instKey R.WFT_LINK_STATUS p, R.LOG_LOST])) ∧
  (∀ s : State, s.dev.on = true → Answers .statusSendTimer s (fun e => e.regs = s.dev.regs ∧ e.mem = s.dev.mem ∧
    e.loom = s.dev.loom ∧ (∀ p < 4, s.dev.linkUp p = true → s.dev.linkState p ≠ 6 → ∃ b, e.link p =
      (s.dev.link p).take ⟨4, 0, 0, b, 12⟩) ∧
    ∀ p < 4, (s.dev.linkUp p = false ∨ s.dev.linkState p = 6) → e.link p = s.dev.link p)) ∧
  (∀ s : State, s.dev.on = true → SMap.get 0 s.dev.weft.done s.dev.position ≠ 0 → Answers .doneRepeatTimer s (fun e =>
    e.regs = s.dev.regs ∧ e.mem = s.dev.mem ∧ e.loom = s.dev.loom ∧ (∀ p < 4, s.dev.linkOpen p = true → ∃ h, e.link p =
      (s.dev.link p).take ⟨5, 0, h, 0, 0⟩) ∧
    ∀ p < 4, s.dev.linkOpen p = false → e.link p = s.dev.link p))

/-- ARM, STOP and TRIGGER of a capture unit (11 R332, R334 to R336, R340, R350). A unit that is IDLE or ENDED, with a mode and a trigger
that fit, is armed empty with its write pointer at 0; else the ARM is refused with reason 1. STOP ends a CONT capture DONE with event
0x603, any other one ABORTED with event 0x606 and a MARK record in its queue; TRIGGER is noted for the next candidate. In any other
state each changes the reason only (assumption log 17 says what the model fixes of them).

Records (11 R329 to R331, R333, R334, R336, R341). The oldest record of a BITS unit, complete, enters the write queue with its header;
the first one of an arm that is MISSING writes event 0x605; in WAIT_TRIG with an immediate trigger it is the trigger record, with
event 0x602. A response timeout completes the record that waits, as MISSING. A record written, here where the gatekeepers pass its
lines and no bit is wrong, lies in the ring buffer from the write pointer on, wrapping, a MARK with the time base of its writing, and
the last one of a capture ends it DONE; every other byte stays. An overflow's MARK is written once the queue is empty. After an entry to
device LOW no record is made or written until a beat commits (16 R476). What becomes of a refused line is assumption log 17's. -/
def Obligations.CaptureUnitsAndRecords : Prop :=
  (
  ∀ (s : State) (u : Nat), s.dev.on = true → u < 16 →
    (s.dev.ringsOn = true → (s.dev.capState u = cpIdle ∨ s.dev.capState u = cpEnded) → s.dev.capMode u ≠ 0 →
      (s.dev.capMode u = 2 → s.dev.capFld F.CAP_TRIG_CFG_KIND u ≠ 1 ∧ s.dev.capFld F.CAP_TRIG_CFG_KIND u ≠ 2) →
      s.dev.capFld F.CAP_TRIG_CFG_KIND u < 6 → Answers (.arm u) s (fun e =>
        e.capState u = (if s.dev.capFld F.CAP_UNIT_CFG_CONT u = 1 then cpRun
          else if s.dev.capFld F.CAP_TRIG_CFG_ARM_SEQ u = 1 then cpArmed else cpPre) ∧ e.cu u = CapUnit.empty ∧
        e.reg (instKey R.CAP_WPTR u) = 0 ∧ e.capFld F.CAP_UNIT_STATUS_STATUS u = 0 ∧ (∀ v, v ≠ u → e.cu v = s.dev.cu v) ∧
        e.mem = s.dev.mem ∧ e.loom = s.dev.loom ∧ e.log = s.dev.log ∧
        s.dev.sameRegs e [instKey R.CAP_WPTR u, instKey R.CAP_UNIT_STATUS u])) ∧
    (s.dev.ringsOn = true → (s.dev.capState u = cpIdle ∨ s.dev.capState u = cpEnded) → (s.dev.capMode u = 0 ∨ 6 ≤ s.dev.capFld F.CAP_TRIG_CFG_KIND u) →
      Answers (.arm u) s (fun e => e.capFld F.CAP_UNIT_STATUS_STATUS u = 4 ∧ e.capFld F.CAP_UNIT_STATUS_REASON u = 1 ∧
        e.capState u = s.dev.capState u ∧ s.dev.sameUnits e ∧ s.dev.sameRegs e [instKey R.CAP_UNIT_STATUS u])) ∧
    (s.dev.ringsOn = true → s.dev.capState u = cpRun → s.dev.log.queue.length < 64 → Answers (.capStop u) s (fun e => e.capState u = cpEnded ∧
      e.capFld F.CAP_UNIT_STATUS_STATUS u = 2 ∧ (e.cu u).pend = [] ∧ (e.cu u).queue = (s.dev.cu u).queue ∧
      e.log.queue = s.dev.log.queue ++ [logEntry s.dev.tick bCAP u 0x603 (capData u s.dev.loom.beat)] ∧ e.mem = s.dev.mem ∧
      e.loom = s.dev.loom ∧ s.dev.sameRegs e [instKey R.CAP_UNIT_STATUS u])) ∧
    (∀ b first : Nat, s.dev.ringsOn = true → s.dev.capState u ∈ [cpArmed, cpPre, cpWait, cpPost] → s.dev.log.queue.length < 64 →
      b = (if (s.dev.cu u).closing = true then ((s.dev.cu u).queue.getLast?.map (fun x => x.1 + 1)).getD s.dev.loom.beat
        else ((s.dev.cu u).pend.head?.map CapRec.beat).getD s.dev.loom.beat) → first = s.dev.firstLost u b →
      Answers (.capStop u) s (fun e => e.capState u = cpEnded ∧ e.capFld F.CAP_UNIT_STATUS_STATUS u = 3 ∧ (e.cu u).pend = [] ∧
        (e.cu u).queue = (s.dev.cu u).queue ++ [(first, s.dev.markRecord u 2 first (s.dev.lostRecords u first b))] ∧
        (s.dev.capInterval u = 0 → first = b ∧ s.dev.lostRecords u first b = (s.dev.cu u).pend.length) ∧
        e.log.queue = s.dev.log.queue ++ [logEntry s.dev.tick bCAP u 0x606 (capData u first)] ∧ e.mem = s.dev.mem ∧
        e.loom = s.dev.loom ∧ s.dev.sameRegs e [instKey R.CAP_UNIT_STATUS u])) ∧
    ((s.dev.capState u = cpPre ∨ s.dev.capState u = cpWait) → exec (.trigger u) s = .next (s.withDev
      (s.dev.onUnit u (fun x => { x with host := true })))) ∧
    (∀ c ∈ [(Instr.arm u, [cpArmed, cpPre, cpWait, cpPost, cpRun]), (.capStop u, [cpIdle, cpEnded]),
        (.trigger u, [cpIdle, cpArmed, cpPost, cpRun, cpEnded])], (c.1 = .trigger u ∨ s.dev.ringsOn = true) → s.dev.capState u ∈ c.2 →
      exec c.1 s = .next (s.withDev (s.dev.setFld (F.CAP_UNIT_STATUS_REASON.at u) 1)))) ∧
  (
  ∀ (s : State) (u : Nat), s.dev.on = true → u < 16 →
    (s.dev.cap.quiet = true → exec (.recordComplete u) s = .next s ∧ (s.dev.ringsOn = true → exec (.recordWritten u) s = .next s)) ∧
    (∀ (r : CapRec) (t : List CapRec), s.dev.cap.quiet = false → s.dev.capState u = cpRun → s.dev.capMode u = 1 → (s.dev.cu u).closing = false →
      (s.dev.cu u).pend = r :: t → r.waits = [] → s.dev.capFld F.CAP_TRIG_CFG_KIND u ≠ 4 →
      s.dev.log.queue.length < 64 → queueBytes (s.dev.cu u).queue + 16 + (pad16 (leBytes (4 * (s.dev.capFld F.CAP_UNIT_CFG_WIDTH u + 1)) r.bits)).length ≤ 65536 →
      Answers (.recordComplete u) s (fun e => (e.cu u).pend = t ∧ (e.cu u).queue = (s.dev.cu u).queue ++ [(r.beat,
          capHeader r.tb r.beat 1 (2 * b2n r.missing + 4 * b2n r.bayout)
            (pad16 (leBytes (4 * (s.dev.capFld F.CAP_UNIT_CFG_WIDTH u + 1)) r.bits)).length u (s.dev.cu u).seq ++
          pad16 (leBytes (4 * (s.dev.capFld F.CAP_UNIT_CFG_WIDTH u + 1)) r.bits))] ∧ (e.cu u).seq = (s.dev.cu u).seq + 1 ∧
        e.log.queue = s.dev.log.queue ++ (if r.missing = true ∧ (s.dev.cu u).missed = false then
          [logEntry s.dev.tick bCAP u 0x605 (u + r.missLane * 16)] else []) ∧ e.capState u = cpRun ∧ (∀ v, v ≠ u → e.cu v = s.dev.cu v) ∧ e.mem = s.dev.mem ∧ e.loom = s.dev.loom ∧
        s.dev.sameRegs e [instKey R.CAP_UNIT_STATUS u])) ∧
    (∀ (r : CapRec) (t : List CapRec), s.dev.cap.quiet = false → s.dev.capState u = cpWait → s.dev.capMode u = 1 → (s.dev.cu u).closing = false →
      (s.dev.cu u).pend = r :: t → r.waits = [] → r.missing = false → s.dev.capFld F.CAP_TRIG_CFG_KIND u = 0 →
      s.dev.capFld F.CAP_TRIG_CFG_COUNT u ≤ 1 → (s.dev.cu u).hits = 0 →
      (s.dev.reg (instKey R.CAP_PRE u)).toNat ≤ (s.dev.cu u).made → (s.dev.cu u).queue = [] → (∀ v < 16, s.dev.capState v ≠ cpArmed) →
      s.dev.log.queue.length < 64 → Answers (.recordComplete u) s (fun e => e.capState u = cpPost ∧
        e.capFld F.CAP_UNIT_STATUS_TRIGGERED u = 1 ∧ e.reg (instKey R.CAP_TRIG_BEAT u) = BitVec.ofNat 32 r.beat ∧
        e.reg (instKey R.CAP_TRIG_POS u) = BitVec.ofNat 32 ((s.dev.cu u).made % 2 ^ s.dev.capFld F.CAP_UNIT_CFG_SIZE u) ∧
        e.log.queue = s.dev.log.queue ++ [logEntry s.dev.tick bCAP u 0x602 (capData u r.beat)] ∧
        (e.cu u).closing = decide ((s.dev.reg (instKey R.CAP_POST u)).toNat = 0) ∧ e.mem = s.dev.mem ∧ e.loom = s.dev.loom)) ∧
    (∀ (r : CapRec) (t : List CapRec), (s.dev.cu u).pend = r :: t → r.waits ≠ [] → (∀ c ∈ t, c.beat ≠ r.beat) →
      Answers (.captureRspTimeout u) s (fun e =>
        (e.cu u).pend = { r with waits := [], missing := true, missLane :=
          if r.missing = true then r.missLane else r.waits.foldl min (r.waits.headD 0) } :: t ∧ (e.cu u).queue = (s.dev.cu u).queue ∧
        e.log = s.dev.log ∧ e.mem = s.dev.mem ∧ e.loom = s.dev.loom ∧ s.dev.sameRegs e [])) ∧
    (∀ (r : CapRec) (t : List CapRec), (s.dev.cu u).pend = r :: t → r.waits ≠ [] → exec (.recordComplete u) s = .next s) ∧
    (∀ (b : Nat) (bs : List Byte) (q : List (Nat × List Byte)), s.dev.cap.quiet = false → s.dev.ringsOn = true → s.dev.mayFill u → (s.dev.cu u).queue = (b, bs) :: q → s.dev.log.queue.length < 64 →
      bs.length ≤ 2 ^ s.dev.capFld F.CAP_UNIT_CFG_SIZE u → Answers (.recordWritten u) s (fun e => (e.cu u).queue = q ∧
        (∀ i < bs.length, (s.dev.stamped bs)[i]? = some (e.byte (s.dev.capFld F.CAP_BUF_BASE_BASE u * 256 +
          ((s.dev.reg (instKey R.CAP_WPTR u)).toNat + i) % 2 ^ s.dev.capFld F.CAP_UNIT_CFG_SIZE u))) ∧
        (∀ a, (∀ i < bs.length, a ≠ s.dev.capFld F.CAP_BUF_BASE_BASE u * 256 +
          ((s.dev.reg (instKey R.CAP_WPTR u)).toNat + i) % 2 ^ s.dev.capFld F.CAP_UNIT_CFG_SIZE u) → e.byte a = s.dev.byte a) ∧
        e.reg (instKey R.CAP_WPTR u) = s.dev.reg (instKey R.CAP_WPTR u) + BitVec.ofNat 32 bs.length ∧
        (if (s.dev.cu u).closing = true ∧ q = [] then e.capState u = cpEnded ∧ e.capFld F.CAP_UNIT_STATUS_STATUS u = 2 ∧
            e.log.queue = s.dev.log.queue ++ [logEntry s.dev.tick bCAP u 0x603 (capData u b)]
          else e.capState u = s.dev.capState u ∧ e.log = s.dev.log) ∧
        s.dev.sameRegs e [instKey R.CAP_WPTR u, instKey R.CAP_UNIT_STATUS u])) ∧
    (∀ m : Nat × Nat, s.dev.cap.quiet = false → s.dev.ringsOn = true → s.dev.mayFill u → (s.dev.cu u).mark = some m → (s.dev.cu u).queue = [] → Answers (.overflowMark u) s (fun e =>
      (e.cu u).mark = none ∧ (e.cu u).seq = (s.dev.cu u).seq + 1 ∧ e.log = s.dev.log ∧
      e.reg (instKey R.CAP_WPTR u) = s.dev.reg (instKey R.CAP_WPTR u) + 32 ∧
      (∀ a, a < s.dev.capFld F.CAP_BUF_BASE_BASE u * 256 ∨ s.dev.capFld F.CAP_BUF_BASE_BASE u * 256 +
        2 ^ s.dev.capFld F.CAP_UNIT_CFG_SIZE u ≤ a → e.byte a = s.dev.byte a) ∧
      s.dev.sameRegs e [instKey R.CAP_WPTR u])) ∧
    (s.dev.ringsOn = true → (s.dev.cap.quiet = true ∨ (s.dev.cu u).mark = none ∨ (s.dev.cu u).queue ≠ []) → exec (.overflowMark u) s = .next s))

/-- Fail maps (11 R343 to R346, R351). The oldest committed record ORs its bits into its map's word, counts, and changes no other byte;
here of a map word free of bit errors. CLEAR waits for the commit while a beat runs and takes effect at once otherwise; its end
leaves the map 0 and its counters at their start, with event 0x613, and no byte outside the map changes. A read of FMP_APPLIED_LO latches the high half.
The order in which records of a beat are applied is R345's; which one waits is assumption log 17's. -/
def Obligations.FailMapsCollect : Prop :=
  (∀ (s : State) (r : FailRec) (a : Nat), s.dev.ringsOn = true → s.dev.cap.applying = [r] → s.dev.loom.failStage = [] →
    s.dev.failBlocked r = false → s.dev.mapValid r.map = true → r.addr < 2 ^ s.dev.mapBits r.map → r.addr < 2 ^ 32 →
    s.dev.chk = [] → s.dev.bad = [] → s.dev.fld F.ECC_TEST_EN = 0 → a = s.dev.mapBase r.map + 4 * r.addr →
    Answers .failMapOr s (fun e => e.cap.applying = [] ∧ e.word a = s.dev.word a ||| r.bits ∧
      (∀ x, x < a ∨ a + 4 ≤ x → e.byte x = s.dev.byte x) ∧
      e.fld (F.FMP_REC_CNT_COUNT.at r.map) = satAdd 32 (s.dev.fld (F.FMP_REC_CNT_COUNT.at r.map)) 1 ∧
      e.fld (F.FMP_NEWBITS_COUNT.at r.map) = satAdd 32 (s.dev.fld (F.FMP_NEWBITS_COUNT.at r.map))
        (popcount 32 (s.dev.word a ||| r.bits).toNat - popcount 32 (s.dev.word a).toNat) ∧ e.log = s.dev.log ∧
      s.dev.sameRegs e [instKey R.FMP_REC_CNT r.map, instKey R.FMP_NEWBITS r.map, instKey R.FMP_FIRST_BEAT r.map,
        instKey R.FMP_FIRST_ADDR r.map])) ∧
  (∀ (s : State) (r : FailRec), s.dev.ringsOn = true → s.dev.cap.applying = [r] → s.dev.loom.failStage = [] →
    s.dev.failBlocked r = false → s.dev.mapValid r.map = false →
    exec .failMapOr s = .next (s.withDev { s.dev with cap := { s.dev.cap with applying := [] } })) ∧
  (∀ (s : State) (mid m : Nat), s.dev.ringsOn = true → m = s.dev.fld F.FMP_SEL_MAP →
    (s.dev.mapValid m = true → SMap.get 0 s.dev.cap.clearing m = 0 → s.dev.inBeat = true → s.dev.cap.clearPend.contains m = false →
      exec (.clear mid) s = .next (s.withDev { s.dev with cap := { s.dev.cap with clearPend := s.dev.cap.clearPend ++ [m] } })) ∧
    (s.dev.mapValid m = true → SMap.get 0 s.dev.cap.clearing m = 0 → s.dev.inBeat = false →
      exec (.clear mid) s = .next (s.withDev { s.dev with cap := { s.dev.cap with
        clearing := SMap.put 0 s.dev.cap.clearing m (s.dev.loom.beat + 1) } })) ∧
    ((s.dev.mapValid m = false ∨ SMap.get 0 s.dev.cap.clearing m ≠ 0) →
      exec (.clear mid) s = .next (s.withDev (s.dev.access 0x806 mid R.FMP_CMD)))) ∧
  (∀ (s : State) (m : Nat), s.dev.ringsOn = true → SMap.get 0 s.dev.cap.clearing m ≠ 0 → s.dev.cap.applying = [] →
    s.dev.loom.failStage = [] → s.dev.log.queue.length < 64 → Answers (.clearComplete m) s (fun e =>
      (∀ a, s.dev.mapBase m ≤ a → a < s.dev.mapBase m + 4 * 2 ^ s.dev.mapBits m → e.byte a = 0) ∧
      (∀ a, a < s.dev.mapBase m ∨ s.dev.mapBase m + 4 * 2 ^ s.dev.mapBits m ≤ a → e.byte a = s.dev.byte a) ∧
      e.reg (instKey R.FMP_REC_CNT m) = 0 ∧ e.reg (instKey R.FMP_NEWBITS m) = 0 ∧ e.reg (instKey R.FMP_RANGE_CNT m) = 0 ∧
      e.reg (instKey R.FMP_FIRST_BEAT m) = 0xFFFFFFFF ∧ e.reg (instKey R.FMP_FIRST_ADDR m) = 0 ∧
      e.log.queue = s.dev.log.queue ++ [logEntry s.dev.tick bFMP 0 0x613 (m % 256)] ∧ e.loom = { s.dev.loom with occ := e.loom.occ } ∧
      s.dev.sameRegs e [instKey R.FMP_REC_CNT m, instKey R.FMP_NEWBITS m, instKey R.FMP_RANGE_CNT m,
        instKey R.FMP_FIRST_BEAT m, instKey R.FMP_FIRST_ADDR m])) ∧
  (∀ s : State, s.dev.ringsOn = true →
    exec .appliedRead s = .next (s.withDev (s.dev.setReg R.FMP_APPLIED_HI (w32 (s.dev.appliedBeat / 2 ^ 32 % 2 ^ 16)))) ∧
    exec .beatCountRead s = .next (s.withDev (s.dev.setReg R.LOM_BEAT_HI (w32 (s.dev.loom.beat / 2 ^ 32 % 2 ^ 16)))))

/-- An instruction word spells at most one instruction, and an instruction is spelled by one word only: no bit of a word is dropped
(12 R355, R356). -/
def Obligations.ShuttleWordsSpellOneInstruction : Prop :=
  ∀ (v w : Word) (o : ShOp), shDecode v = some o → shDecode w = some o → v = w

/-- Arithmetic and logic (12 R352, R356): each instruction puts its result into gD, goes on to the next word, and changes nothing else;
g0 reads 0 and takes no result.

Branches and jumps (12 R356): a branch goes to pc plus its constant times 4 where its condition holds, else to the next word, and
writes no register; LEAP and VIA put pc + 4 into gD and go to their target. Nothing else changes.

The measure datapath (12 R357, R359, R360). MACD adds both products of two tablet words to one accumulator, MACP one to each of a
pair; a sum outside 40 bits wraps or saturates and sets its OVF bit; each pointer advances by its offset register. EXT rounds, shifts
and saturates; CLRA, MVA, MVTA and LDO move. Nothing else changes. -/
def Obligations.ShuttleComputes : Prop :=
  (
  ∀ (st : State) (s : Nat) (w : Word) (d : Dev) (rd ra rb k : Nat) (x : Shuttle) (a b : BitVec 64), st.dev.on = true →
    st.dev.shGets d s w → x = d.sh s → a = x.reg ra → b = x.reg rb →
    ∀ c ∈ [(ShOp.sum rd ra rb, Instr.sum s, a + b), (.dif rd ra rb, .dif s, a - b), (.conj rd ra rb, .conj s, a &&& b),
        (.disj rd ra rb, .disj s, a ||| b), (.excl rd ra rb, .excl s, a ^^^ b), (.shl rd ra rb, .shl s, a <<< (b.toNat % 64)),
        (.shr rd ra rb, .shr s, a >>> (b.toNat % 64)), (.sha rd ra rb, .sha s, a.sshiftRight (b.toNat % 64)),
        (.less rd ra rb, .less s, if a.toInt < b.toInt then 1 else 0), (.lessu rd ra rb, .lessu s, if a.toNat < b.toNat then 1 else 0),
        (.prod rd ra rb, .prod s, a * b), (.prodhs rd ra rb, .prodhs s, BitVec.ofInt 64 (a.toInt * b.toInt / 2 ^ 64)),
        (.prodhu rd ra rb, .prodhu s, BitVec.ofNat 64 (a.toNat * b.toNat / 2 ^ 64)), (.sumk rd ra k, .sumk s, a + sext 17 k),
        (.conjk rd ra k, .conjk s, a &&& BitVec.ofNat 64 k), (.disjk rd ra k, .disjk s, a ||| BitVec.ofNat 64 k),
        (.exclk rd ra k, .exclk s, a ^^^ BitVec.ofNat 64 k),
        (.lessk rd ra k, .lessk s, if a.toInt < (sext 17 k).toInt then 1 else 0), (.topk rd k, .topk s, sext 17 k <<< 17)],
      shDecode w = some c.1 → Answers c.2.1 st (fun e => d.shIs e s (x.nextWith rd c.2.2))) ∧
  (
  ∀ (st : State) (s : Nat) (w : Word) (d : Dev) (rd ra rb k : Nat) (x : Shuttle) (a b : BitVec 64), st.dev.on = true →
    st.dev.shGets d s w → x = d.sh s → a = x.reg ra → b = x.reg rb →
    (∀ c ∈ [(ShOp.ifeq ra rb k, Instr.ifeq s, decide (a = b)), (.ifne ra rb k, .ifne s, decide (a ≠ b)),
        (.iflt ra rb k, .iflt s, decide (a.toInt < b.toInt)), (.ifge ra rb k, .ifge s, decide (b.toInt ≤ a.toInt)),
        (.iflo ra rb k, .iflo s, decide (a.toNat < b.toNat)), (.ifhs ra rb k, .ifhs s, decide (b.toNat ≤ a.toNat))],
      shDecode w = some c.1 → Answers c.2.1 st (fun e => d.shIs e s { x with
        pc := if c.2.2 = true then x.pc + sext 16 (4 * k) else x.pc + 4, fresh := false })) ∧
    (shDecode w = some (.leap rd k) → Answers (.leap s) st (fun e => d.shIs e s { x.setReg rd (x.pc + 4) with
      pc := x.pc + sext 24 (4 * k), fresh := false })) ∧
    (shDecode w = some (.via rd ra k) → Answers (.via s) st (fun e => d.shIs e s { x.setReg rd (x.pc + 4) with
      pc := (a + sext 17 k) &&& ~~~3#64, fresh := false }))) ∧
  (
  ∀ (st : State) (s : Nat) (w : Word) (d : Dev) (x : Shuttle), st.dev.on = true → st.dev.shGets d s w → x = d.sh s →
    (∀ (sat : Bool) (acc xo yo xp yp : Nat) (xw yw : Word) (lo hi : Int) (f g : Dev) (y : Shuttle),
      d.macWord s (x.reg xp) = (f, .ok xw) → f.macWord s (x.reg yp) = (g, .ok yw) → y = g.sh s → lo = sgn 16 xw.toNat * sgn 16 yw.toNat →
      hi = sgn 16 (xw.toNat / 65536) * sgn 16 (yw.toNat / 65536) →
      ∀ c ∈ [(ShOp.macd sat acc xo yo xp yp, Instr.macd s, y.accPut sat acc (y.accInt acc + lo + hi)),
          (.macp sat acc xo yo xp yp, .macp s, (y.accPut sat acc (y.accInt acc + lo)).accPut sat (acc ^^^ 1)
            (y.accInt (acc ^^^ 1) + hi))], shDecode w = some c.1 → Answers c.2.1 st (fun e => g.shIs e s
        { (c.2.2.setReg xp (y.reg xp + y.ofs64 xo)).setReg yp ((y.setReg xp (y.reg xp + y.ofs64 xo)).reg yp + y.ofs64 yo) with
          pc := y.pc + 4, fresh := false })) ∧
    (∀ (rd acc wd shift : Nat) (sat : Bool), shDecode w = some (.ext rd sat wd acc shift) → Answers (.ext s) st (fun e =>
      d.shIs e s (x.nextWith rd (extValue (x.accInt acc) sat wd shift)))) ∧
    (∀ rd acc, shDecode w = some (.mva rd acc) → Answers (.mva s) st (fun e =>
      d.shIs e s (x.nextWith rd (BitVec.ofInt 64 (x.accInt acc))))) ∧
    (∀ acc, shDecode w = some (.clra acc) → Answers (.clra s) st (fun e => d.shIs e s { x with
      acc := SMap.put 0 x.acc acc 0, pc := x.pc + 4, fresh := false })) ∧
    (∀ acc ra, shDecode w = some (.mvta acc ra) → Answers (.mvta s) st (fun e => d.shIs e s { x with
      acc := SMap.put 0 x.acc acc ((x.reg ra).setWidth 40), pc := x.pc + 4, fresh := false })) ∧
    (∀ o ra, shDecode w = some (.ldo o ra) → Answers (.ldo s) st (fun e => d.shIs e s { x with
      ofs := SMap.put 0 x.ofs o ((x.reg ra).setWidth 18), pc := x.pc + 4, fresh := false })))

/-- Loads, stores and cache instructions (12 R353, R354, R356, R361, R363, R364). A load that the caches serve, be it after a fill, puts
its bytes, extended, into gT, and a store that they take goes on to the next word; a store into the shuttle's own tablet memory writes
the register's low bytes there and no others, one that the write buffer takes waits there behind the others, and one that hits a cached
line of HBM changes the line and no byte of memory; a misaligned address traps. After FENCE no write waits and no line is dirty; CLEAN
and INVAL write the dirty lines of a range back; INVAL and IINV discard the lines of a range. When a buffered store is issued, and with which
privilege, is the model's (assumption log 18).

A dirty line of HBM written back reaches memory: its written bytes are there and no other byte changes, and the line is clean
(12 R361, R363), and the loom is as before but for the count of accesses (05 R149); here where no bit of its granules is wrong. Where the fixed rules of its target refuse the write (13 R391), no byte
changes and the shuttle has an ACCESS trap with the address of the first written byte. The oldest write of the buffer, here one for a
tablet memory, reaches it in the same way and leaves the buffer. That a write-back is checked with the privilege that the shuttle then
presents, and not by the tables again, is the model's choice (assumption log 18). -/
def Obligations.ShuttleLoadsAndStores : Prop :=
  (
  ∀ (st : State) (s : Nat) (w : Word) (d : Dev) (x : Shuttle), st.dev.on = true → st.dev.shGets d s w → x = d.sh s →
    (∀ (rt ra sz disp : Nat) (bs : List Byte) (f : Dev), shDecode w = some (.get rt ra sz disp) →
      d.shLoad s (x.reg ra + sext 14 disp) (szBytes sz) = (f, .ok bs) → Answers (.get s) st (fun e => f.shIs e s
        ((f.sh s).nextWith rt (if sz < 4 then sext (8 * szBytes sz) (leNat bs) else BitVec.ofNat 64 (leNat bs))))) ∧
    (∀ (rt ra sz disp : Nat) (f : Dev), shDecode w = some (.sto rt ra sz disp) →
      d.shStore s (x.reg ra + sext 14 disp) (leBytes (szBytes sz) (x.reg rt).toNat) = (f, none) → Answers (.sto s) st (fun e =>
        f.shIs e s { f.sh s with pc := (f.sh s).pc + 4, fresh := false })) ∧
    (∀ (rt ra sz disp a : Nat), shDecode w = some (.sto rt ra sz disp) → a = (x.reg ra + sext 14 disp).toNat →
      a % szBytes sz = 0 → regionOf a = .tablet → buffered s a = false → d.shBlocked s a = false → d.passes s gkWRITE a → Answers (.sto s) st (fun e =>
        e.bytes a (szBytes sz) = leBytes (szBytes sz) (x.reg rt).toNat ∧
        (∀ y, y < a ∨ a + szBytes sz ≤ y → e.byte y = d.byte y) ∧ e.sh s = { x with pc := x.pc + 4, fresh := false } ∧
        (∀ j, j ≠ s → e.sh j = d.sh j) ∧ e.regs = d.regs ∧ e.loom = d.loom ∧ e.log = d.log)) ∧
    (∀ (rt ra sz disp a : Nat), shDecode w = some (.sto rt ra sz disp) → a = (x.reg ra + sext 14 disp).toNat →
      a % szBytes sz = 0 → buffered s a = true → d.shBlocked s a = false → d.passes s gkWRITE a → a < 2 ^ 48 →
      (regionOf a = .regs → szBytes sz = 4) → x.wbuf.length < 8 → Answers (.sto s) st (fun e => d.shIs e s { x with
        wbuf := x.wbuf ++ [⟨a, pairsAt a (leBytes (szBytes sz) (x.reg rt).toNat), x.priv⟩], pc := x.pc + 4, fresh := false })) ∧
    (∀ (rt ra sz disp a : Nat) (l : CLine), shDecode w = some (.sto rt ra sz disp) → a = (x.reg ra + sext 14 disp).toNat →
      a % szBytes sz = 0 → regionOf a = .hbm → d.passes s gkWRITE a → findLine x.dcache (a / 64) = some l →
      Answers (.sto s) st (fun e => d.shIs e s { x with
        dcache := x.dcache.map (fun z => if z.line = a / 64 then z.write (a % 64) (leBytes (szBytes sz) (x.reg rt).toNat) else z),
        pc := x.pc + 4, fresh := false })) ∧
    (∀ (rt ra sz disp : Nat), d.shStalled s = false → st.dev.shStalled s = false → x.tvec ≠ 0 → x.fresh = false →
      (x.reg ra + sext 14 disp).toNat % szBytes sz ≠ 0 →
      ∀ c ∈ [(ShOp.get rt ra sz disp, Instr.get s), (.sto rt ra sz disp, .sto s)], shDecode w = some c.1 →
        Answers c.2 st (fun e => d.shTook e s cMISALIGN (x.reg ra + sext 14 disp))) ∧
    (∀ f : Dev, shDecode w = some .fence → d.hubd.hub.stopped = false → d.shFence s = (f, none) → (f.sh s).wbuf = [] ∧
      (∀ l ∈ (f.sh s).dcache, l.dirty = 0) ∧ Answers (.fence s) st (fun e =>
        f.shIs e s { f.sh s with pc := (f.sh s).pc + 4, fresh := false })) ∧
    (∀ (ra rb : Nat) (f : Dev), d.hubd.hub.stopped = false → d.shClean s ra rb = (f, none) →
      (∀ l ∈ (f.sh s).dcache, lineIn (x.reg ra) (x.reg rb) l.line = true → l.dirty = 0) ∧
      (shDecode w = some (.clean ra rb) → Answers (.clean s) st (fun e =>
        f.shIs e s { f.sh s with pc := (f.sh s).pc + 4, fresh := false })) ∧
      (shDecode w = some (.inval ra rb) → Answers (.inval s) st (fun e => f.shIs e s { f.sh s with
        dcache := (f.sh s).dcache.filter (fun l => !lineIn (x.reg ra) (x.reg rb) l.line),
        pc := (f.sh s).pc + 4, fresh := false }))) ∧
    (x.wbuf = [] → ∀ ra rb : Nat, (∀ l ∈ x.dcache, lineIn (x.reg ra) (x.reg rb) l.line = true → l.dirty = 0) →
      d.shClean s ra rb = (d, none)) ∧
    (∀ ra rb : Nat, shDecode w = some (.iinv ra rb) → Answers (.iinv s) st (fun e => d.shIs e s { x with
      icache := x.icache.filter (fun l => !lineIn (x.reg ra) (x.reg rb) l.line), pc := x.pc + 4, fresh := false }))) ∧
  (
  (∀ (d f : Dev) (s a : Nat) (bs : List Byte) (fw : Bool) (t : List WbEnt), d.hubd.hub.stopped = false →
    (d.sh s).wbuf = ⟨a, pairsAt a bs, fw⟩ :: t →
    regionOf a = .tablet → bs.length ∈ [1, 2, 4, 8] → a % bs.length = 0 → d.chk = [] → d.bad = [] → d.wbIssue s = (f, none) ∧
      f.bytes a bs.length = bs ∧ (∀ y, y < a ∨ a + bs.length ≤ y → f.byte y = d.byte y) ∧ f.sh s = { d.sh s with wbuf := t } ∧
      (∀ j, j ≠ s → f.sh j = d.sh j) ∧ f.regs = d.regs ∧ f.loom = d.loom) ∧
  (∀ (d f : Dev) (s : Nat) (l : CLine) (r : Option ShTrap), regionOf (64 * l.line) = .hbm → d.writeBack s l = (f, r) →
    (l.dirty ≠ 0 → ∀ y ∈ (f.sh s).dcache, y.line = l.line → y.dirty = 0) ∧ (∀ j, j ≠ s → f.sh j = d.sh j) ∧
    f.loom = { d.loom with occ := f.loom.occ } ∧
    (d.fixedRefusesAs (d.sh s).priv s gkWRITE (d.lineEnt s l).addr = false → d.plat.hbmReady = true → d.chk = [] → d.bad = [] →
      r = none ∧
      (∀ i < 64, l.dirty.getLsbD i = true → f.byte (64 * l.line + i) = BitVec.ofNat 8 (l.data.toNat / 2 ^ (8 * i))) ∧
      (∀ a, (∀ i < 64, l.dirty.getLsbD i = true → a ≠ 64 * l.line + i) → f.byte a = d.byte a)) ∧
    (d.fixedRefusesAs (d.sh s).priv s gkWRITE (d.lineEnt s l).addr = true → l.dirty ≠ 0 →
      r = some (cACCESS, BitVec.ofNat 64 (d.lineEnt s l).addr) ∧ ∀ a, f.byte a = d.byte a)))

/-- Control words, traps and the return (12 R355, R358, R361, R362). RDCW reads a control word; WRCW writes one in FIRMWARE, and in
KERNEL any but CW 9 traps. TRAP and a word that spells no instruction take their trap. UNTRAP goes back to EPC with PRIOR in
FIRMWARE and traps in KERNEL. WAIT goes on at once on its event or time and otherwise sleeps; the wake goes on. That CW 5 and CW 6 take a
write, and how CW 7 counts, is assumption log 18's. -/
def Obligations.ShuttleControlAndTraps : Prop :=
  (∀ (st : State) (s : Nat) (w : Word) (d : Dev) (x : Shuttle), st.dev.on = true → st.dev.shGets d s w → x = d.sh s →
    (∀ rd : Nat, ∀ c ∈ [(0, BitVec.ofNat 64 (b2n x.priv + 2 * b2n x.prior)), (1, x.tvec), (2, x.epc), (3, x.cause), (4, x.tval),
        (5, x.cwItem), (6, x.cwClass), (7, d.shCycles - x.cyc0), (8, d.tb.tb.setWidth 64), (9, x.ovf.setWidth 64), (10, BitVec.ofNat 64 s),
        (11, BitVec.ofNat 64 (b2n x.evt))],
      shDecode w = some (.rdcw rd c.1) → Answers (.rdcw s) st (fun e => d.shIs e s (x.nextWith rd c.2))) ∧
    (∀ ra : Nat, x.priv = true → ∀ c ∈ [(1, { x with tvec := x.reg ra &&& ~~~3#64 }), (2, { x with epc := x.reg ra }),
        (3, { x with cause := x.reg ra }), (4, { x with tval := x.reg ra }), (5, { x with cwItem := x.reg ra }),
        (6, { x with cwClass := x.reg ra }), (7, { x with cyc0 := d.shCycles - x.reg ra }), (9, { x with ovf := (x.reg ra).setWidth 4 }),
        (11, { x with evt := (x.reg ra).getLsbD 0 })],
      shDecode w = some (.wrcw ra c.1) → Answers (.wrcw s) st (fun e =>
        d.shIs e s { c.2 with pc := x.pc + 4, fresh := false })) ∧
    (∀ ra : Nat, shDecode w = some (.wrcw ra 9) → Answers (.wrcw s) st (fun e =>
      d.shIs e s { x with ovf := (x.reg ra).setWidth 4, pc := x.pc + 4, fresh := false })) ∧
    (∀ ra : Nat, shDecode w = some (.wrcw ra 0) → x.priv = true → Answers (.wrcw s) st (fun e =>
      (e.sh s).priv = (x.reg ra).getLsbD 0 ∧ (e.sh s).prior = (x.reg ra).getLsbD 1 ∧ (e.sh s).pc = x.pc + 4 ∧
      (e.sh s).g = x.g ∧ (∀ j, j ≠ s → e.sh j = d.sh j) ∧ e.regs = d.regs ∧ e.mem = d.mem ∧ e.loom = d.loom)) ∧
    (∀ ra cw : Nat, cw ∈ [8, 10] → shDecode w = some (.wrcw ra cw) → x.priv = true → Answers (.wrcw s) st (fun e =>
      d.shIs e s { x with pc := x.pc + 4, fresh := false })) ∧
    (∀ ra : Nat, (x.evt = true ∨ d.waitOver (x.reg ra) = true) → shDecode w = some (.wait ra) →
      Answers (.wait s) st (fun e => d.shIs e s { x with evt := false, pc := x.pc + 4, fresh := false })) ∧
    (st.dev.shStalled s = false → (∀ ra : Nat, shDecode w = some (.wait ra) → x.evt = false → d.waitOver (x.reg ra) = false →
      Answers (.wait s) st (fun e => (e.sh s).wait = some (x.reg ra) ∧ (e.sh s).pc = x.pc ∧ (e.sh s).g = x.g ∧ e.mem = d.mem ∧
        e.regs = d.regs ∧ e.loom = d.loom ∧ e.hubd.sched = d.hubd.sched)) ∧
      (shDecode w = some .untrap → x.priv = true → Answers (.untrap s) st (fun e => (e.sh s).pc = x.epc ∧
        (e.sh s).priv = x.prior ∧ (e.sh s).inTrap = false ∧ (e.sh s).g = x.g ∧ (e.sh s).item = x.item ∧
        (∀ j, j ≠ s → e.sh j = d.sh j) ∧ e.regs = d.regs ∧ e.mem = d.mem ∧ e.loom = d.loom)) ∧
      (x.tvec ≠ 0 → x.fresh = false →
        (∀ rb : Nat, shDecode w = some (.trap rb) → Answers (.trap s) st (fun e =>
          d.shTook e s cTRAP (BitVec.ofNat 64 rb))) ∧
        (shDecode w = none → Answers (.illegalInstruction s) st (fun e => d.shTook e s cILLEGAL (w.setWidth 64))) ∧
        (x.priv = false → ∀ ra cw : Nat, cw ≠ 9 → ∀ c ∈ [(ShOp.wrcw ra cw, Instr.wrcw s), (.untrap, .untrap s)],
          shDecode w = some c.1 → Answers c.2 st (fun e => d.shTook e s cPRIV (d.shWord s)))))) ∧
  (∀ (st : State) (s : Nat) (a : BitVec 64), st.dev.on = true → (st.dev.sh s).wait = some a →
    ((st.dev.sh s).evt = true → Answers (.waitWake s) st (fun e => (e.sh s).wait = none ∧ (e.sh s).evt = false ∧
      (e.sh s).pc = (st.dev.sh s).pc + 4 ∧ (e.sh s).g = (st.dev.sh s).g ∧ (∀ j, j ≠ s → e.sh j = st.dev.sh j) ∧
      e.regs = st.dev.regs ∧ e.mem = st.dev.mem ∧ e.loom = st.dev.loom)) ∧
    ((st.dev.sh s).evt = false → st.dev.waitOver a = false → exec (.waitWake s) st = .next st))

/-- Posting and DONE (12 R370, R371, R373, R379; 01 R16; what the model fixes: assumption log 19). POST queues the item behind the others and answers 0, or refuses with 1 and event
0x705; WSC_POST does the same with the words written to WSC_POST_DATA, and refuses a FIRMWARE item without OWNER authority
(a shuttle's is ignored with event 0x806, 01 R16). DONE frees
the shuttle, counts the item and remembers its class, raises the counter and sets the event flag that the descriptor names.

The scheduler (12 R371 to R375). The item dispatched is one of the highest priority that a shuttle can take, the oldest of them; its
shuttle starts at ENTRY with ARG, FIRINGS and the index in g1 to g3 and every other register 0. An affine item that has waited AGE
at the head of its level may go elsewhere; the run limit traps; a firing posts its template, or adds to the firings of the item that waits; a held chain is
posted when there is room; CANCEL removes the queued items of a class and counts them. Of equals the lowest shuttle is taken (assumption
log 19). -/
def Obligations.ItemsAreScheduled : Prop :=
  (
  (∀ (st : State) (s rd ra : Nat) (w : Word) (d f : Dev) (x : Shuttle) (bs : List Byte) (q : BitVec 256), st.dev.on = true →
    st.dev.shGets d s w → x = f.sh s → shDecode w = some (.post rd ra) → d.shLoad32 s ((d.sh s).reg ra) = (f, .ok bs) →
    q = BitVec.ofNat 256 (leNat bs) → (Desc.priv q = false ∨ x.priv = true) →
    (Desc.clean q = true → f.eligible q ≠ [] → f.storeFull = false → Answers (.post s) st (fun e => e.sh s = x.nextWith rd 0 ∧
      (∃ n, e.hubd.sched.store = f.hubd.sched.store ++ [⟨n, q, 0, none, false⟩]) ∧ (∀ j, j ≠ s → e.sh j = f.sh j) ∧
      e.regs = f.regs ∧ e.mem = f.mem ∧ e.loom = f.loom ∧ e.log = f.log)) ∧
    ((Desc.clean q = false ∨ f.eligible q = []) → f.log.queue.length < 64 → Answers (.post s) st (fun e =>
      e.sh s = x.nextWith rd 1 ∧ e.hubd.sched = f.hubd.sched ∧ e.log.queue = f.log.queue ++
        [logEntry f.tick bWSC 0 0x705 (shData s 0 (Desc.cls q))] ∧ e.regs = f.regs ∧ e.mem = f.mem ∧ e.loom = f.loom))) ∧
  (∀ (st : State) (w : Word), st.dev.ringsOn = true → st.dev.hubd.sched.post.length < 8 → exec (.wscPostDataWrite w) st =
    .next (st.withDev (st.dev.onSched (fun q => { q with post := q.post ++ [w] })))) ∧
  (∀ (st : State) (mid : Nat) (q : BitVec 256), st.dev.ringsOn = true →
    q = BitVec.ofNat 256 (st.dev.hubd.sched.post.foldr (fun w n => w.toNat + 2 ^ 32 * n) 0) →
    ((Desc.priv q = false ∨ (st.dev.who mid).owner = true) → Desc.clean q = true → st.dev.eligible q ≠ [] →
      st.dev.storeFull = false → Answers (.wscPost mid) st (fun e => e.fld F.WSC_POST_STATUS_STATUS = 1 ∧
        (∃ n, e.hubd.sched.store = st.dev.hubd.sched.store ++ [⟨n, q, 0, none, false⟩]) ∧ e.hubd.sched.post = [] ∧
        e.mem = st.dev.mem ∧ e.log = st.dev.log ∧ st.dev.sameRegs e [R.WSC_POST_STATUS])) ∧
    (Desc.priv q = true → 128 ≤ mid → (st.dev.who mid).owner = false → Answers (.wscPost mid) st (fun e =>
      e.fld F.WSC_POST_STATUS_STATUS = 3 ∧ e.hubd.sched.store = st.dev.hubd.sched.store ∧ e.hubd.sched.post = [] ∧
      e.mem = st.dev.mem ∧ st.dev.sameRegs e [R.WSC_POST_STATUS, R.LOG_LOST])) ∧
    (Desc.priv q = true → mid < 128 → exec (.wscPost mid) st = .next (st.withDev
      (st.dev.access 0x806 mid R.WSC_POST_CMD)))) ∧
  (∀ (st : State) (s : Nat) (w : Word) (d : Dev) (i : Item), st.dev.on = true → st.dev.shGets d s w → shDecode w = some .done →
    (d.sh s).item = some i → st.dev.shStalled s = false → (d.sh s).wbuf = [] → (∀ l ∈ (d.sh s).dcache, l.dirty = 0) → Desc.chain i.desc = 0xFFFF →
    Answers (.done s) st (fun e => (e.sh s).item = none ∧ e.fld (F.SHT_ITEMS_COUNT.at s) =
        satAdd 32 (d.fld (F.SHT_ITEMS_COUNT.at s)) 1 ∧ SMap.get 0 e.hubd.sched.affine (Desc.cls i.desc) = s + 1 ∧
      (Desc.count i.desc = true → e.fld (F.WSC_CNT_COUNT.at (Desc.counter i.desc)) =
        satAdd 32 (d.fld (F.WSC_CNT_COUNT.at (Desc.counter i.desc))) 1) ∧
      (Desc.notify i.desc = true → (e.sh (Desc.target i.desc)).evt = true) ∧ e.hubd.sched.store = d.hubd.sched.store ∧
      e.mem = d.mem ∧ e.loom = d.loom ∧ e.log = d.log ∧
      d.sameRegs e [instKey R.SHT_ITEMS s, instKey R.WSC_CNT (Desc.counter i.desc)]))) ∧
  (
  (∀ (d : Dev) (n s : Nat) (i : Item), d.nextItem = some (n, i, s) → d.hubd.sched.store[n]? = some i ∧ d.shuttleFor i = some s ∧
    (∀ (m : Nat) (j : Item), d.hubd.sched.store[m]? = some j → Desc.prio i.desc < Desc.prio j.desc → d.shuttleFor j = none) ∧
    (∀ (m : Nat) (j : Item), m < n → d.hubd.sched.store[m]? = some j → Desc.prio j.desc = Desc.prio i.desc →
      d.shuttleFor j = none)) ∧
  (∀ (st : State) (n s : Nat) (i : Item), st.dev.on = true → st.dev.fld F.PWR_STATUS_DEV = 0 → st.dev.plat.trans = 0 →
    st.dev.nextItem = some (n, i, s) → Answers .itemDispatch st (fun e => e.hubd.sched.store = st.dev.hubd.sched.store.eraseIdx n ∧
      (e.sh s).pc = BitVec.ofNat 64 (Desc.entry i.desc) ∧ (e.sh s).item = some i ∧ (e.sh s).priv = Desc.priv i.desc ∧
      (∀ r, (e.sh s).reg r = if r = 1 then BitVec.ofNat 64 (Desc.arg i.desc) else if r = 2 then BitVec.ofNat 64 i.firings
        else if r = 3 then BitVec.ofNat 64 i.idx else 0) ∧ (e.sh s).acc = [] ∧ (e.sh s).ofs = [] ∧
      (∀ j, j ≠ s → e.sh j = st.dev.sh j) ∧ e.regs = st.dev.regs ∧ e.mem = st.dev.mem ∧ e.loom = st.dev.loom)) ∧
  (∀ (st : State) (level n : Nat) (i : Item), st.dev.on = true → st.dev.hubd.sched.store.findIdx? (fun j =>
      Desc.prio j.desc == level) = some n → st.dev.hubd.sched.store[n]? = some i → Desc.affine i.desc = true → i.aged = false →
    st.dev.shuttleFor i = none → exec (.affinityAgeExpiry level) st = .next (st.withDev
      (st.dev.onSched (fun q => { q with store := q.store.set n { i with aged := true } })))) ∧
  (∀ (st : State) (s : Nat), st.dev.on = true → (st.dev.sh s).item.isSome = true → st.dev.fld F.WSC_CFG_RUN_LIMIT ≠ 0 →
    (st.dev.sh s).tvec ≠ 0 → (st.dev.sh s).fresh = false → st.dev.log.queue.length < 64 →
    Answers (.runLimit s) st (fun e => (∃ v, st.dev.shTook e s cLIMIT v) ∧ e.log.queue = st.dev.log.queue ++
      [logEntry st.dev.tick bSHT (if s < 128 then s else 0) 0x704 (shData s cLIMIT (st.dev.sh s).cls)])) ∧
  (∀ (st : State) (k : Nat) (rest : List Nat), st.dev.on = true → st.dev.hubd.sched.fired = k :: rest →
    ((∀ j ∈ st.dev.hubd.sched.store, j.trig ≠ some k) → st.dev.storeFull = false → st.dev.fld (F.WSC_TRIG_PEND_COUNT.at k) = 0 →
      Desc.clean (st.dev.template (st.dev.fld (F.WSC_TRIG_LO_TEMPLATE.at k))) = true →
      st.dev.eligible (st.dev.template (st.dev.fld (F.WSC_TRIG_LO_TEMPLATE.at k))) ≠ [] →
      Answers .triggerFiring st (fun e => e.hubd.sched.fired = rest ∧ (∃ n, e.hubd.sched.store = st.dev.hubd.sched.store ++
        [⟨n, st.dev.template (st.dev.fld (F.WSC_TRIG_LO_TEMPLATE.at k)), 1, some k, false⟩]) ∧ e.regs = st.dev.regs ∧
        e.mem = st.dev.mem ∧ e.loom = st.dev.loom ∧ e.log = st.dev.log)) ∧
    (∀ j : Item, st.dev.hubd.sched.store = [j] → j.trig = some k → j.firings < 2 ^ 32 - 1 →
      Answers .triggerFiring st (fun e => e.hubd.sched.fired = rest ∧
        e.hubd.sched.store = [{ j with firings := j.firings + 1 }] ∧ e.regs = st.dev.regs ∧ e.mem = st.dev.mem))) ∧
  (∀ (st : State) (q : BitVec 256) (rest : List (BitVec 256)), st.dev.on = true → st.dev.occ < 65536 →
    st.dev.hubd.sched.held = q :: rest → Answers .heldPost st (fun e => e.hubd.sched.held = rest ∧
      (∃ n, e.hubd.sched.store = st.dev.hubd.sched.store ++ [⟨n, q, 0, none, false⟩]) ∧ e.regs = st.dev.regs ∧
      e.mem = st.dev.mem ∧ e.loom = st.dev.loom ∧ e.log = st.dev.log)) ∧
  (∀ (st : State) (cls : Nat), st.dev.ringsOn = true → cls < 65536 → st.dev.occ ≤ 65536 → Answers (.wscCancel cls) st (fun e =>
    e.hubd.sched.store = st.dev.hubd.sched.store.filter (fun i => Desc.cls i.desc != cls) ∧
    e.fld F.WSC_CMD_STATUS_REMOVED + e.hubd.sched.store.length = st.dev.hubd.sched.store.length ∧ e.mem = st.dev.mem ∧
    e.hubd.shuttles = st.dev.hubd.shuttles ∧ st.dev.sameRegs e [R.WSC_CMD_STATUS])))

/-- Hub requests to a tablet memory (13 R384, R385, R387, R391): a request that its stop may inject is checked and served. WRITE_L writes its
64 bytes, WRITE_M the bytes of one half that its mask names, OR one word, READ returns its line; no other byte changes, and the response
with its STATUS, its TAG and its data is on the ring. A denied write changes no byte. A stop with no slot or credit injects nothing. A
response taken frees both. When a request waits for a slot is time (assumption logs 9, 20). -/
def Obligations.HubRequestsAreServed : Prop :=
  (∀ (s : State) (q : HubReq) (line : Nat), s.dev.on = true → line = q.addr / 64 * 64 → q.lost = none → q.waited = 0 →
    s.dev.mayInject q = true → regionOf line = .tablet → s.dev.chk = [] → s.dev.bad = [] → s.dev.fld F.ECC_TEST_EN = 0 →
    (s.dev.passes q.mid gkWRITE line → s.dev.passes q.mid gkWRITE (line + 32) →
      (∀ data : BitVec 512, Answers (.writeL q data) s (fun e => e.bytes line 64 = leBytes 64 data.toNat ∧
        (∀ a, a < line ∨ line + 64 ≤ a → e.byte a = s.dev.byte a) ∧ e.regs = s.dev.regs ∧ e.loom = s.dev.loom ∧
        e.hubd.hub.rsps = s.dev.hubd.hub.rsps ++ [⟨ringOf q.addr, q.src, s.dev.stopOf q.addr, q.tag % 32, 9, stOK, s.dev.urgOf 0, 0⟩])) ∧
      (∀ (half : Bool) (mask : BitVec 32) (data : BitVec 256), Answers (.writeM q half mask data) s (fun e =>
        (∀ i < 32, mask.getLsbD i = true → e.byte (line + 32 * b2n half + i) = BitVec.ofNat 8 (data.toNat / 2 ^ (8 * i))) ∧
        (∀ a, (∀ i < 32, mask.getLsbD i = true → a ≠ line + 32 * b2n half + i) → e.byte a = s.dev.byte a) ∧
        e.regs = s.dev.regs ∧ e.loom = s.dev.loom ∧ ∃ r, e.hubd.hub.rsps = s.dev.hubd.hub.rsps ++ [r] ∧ r.typ = 9 ∧
          r.status = stOK ∧ r.tag = q.tag % 32))) ∧
    (s.dev.passes q.mid gkREAD line → Answers (.read q (BitVec.allOnes 64)) s (fun e => e.mem = s.dev.mem ∧
      e.regs = s.dev.regs ∧ e.loom = s.dev.loom ∧ ∃ r, e.hubd.hub.rsps = s.dev.hubd.hub.rsps ++ [r] ∧ r.typ = 8 ∧
        r.status = stOK ∧ r.tag = q.tag % 32 ∧ r.payload = BitVec.ofNat 512 (leNat (s.dev.bytes line 64)))) ∧
    (∀ (word : Nat) (bits : Word), word < 16 → s.dev.passes q.mid gkOR (line + 4 * word) →
      Answers (.or q word bits) s (fun e => e.word (line + 4 * word) = s.dev.word (line + 4 * word) ||| bits ∧
        (∀ a, a < line + 4 * word ∨ line + 4 * word + 4 ≤ a → e.byte a = s.dev.byte a) ∧ e.regs = s.dev.regs ∧
        e.loom = s.dev.loom ∧ ∃ r, e.hubd.hub.rsps = s.dev.hubd.hub.rsps ++ [r] ∧ r.typ = 10 ∧ r.status = stOK ∧
          r.payload = (s.dev.word (line + 4 * word)).setWidth 512)) ∧
    (∀ (data : BitVec 512) (reason : Nat), s.dev.verdict q.mid gkWRITE line = (stDENIED, reason) →
      Answers (.writeL q data) s (fun e => e.mem = s.dev.mem ∧ e.loom = s.dev.loom ∧
        ∃ r, e.hubd.hub.rsps = s.dev.hubd.hub.rsps ++ [r] ∧ r.typ = 9 ∧ r.status = stDENIED))) ∧
  (∀ (s : State) (q : HubReq) (mask : BitVec 64) (data : BitVec 512) (half : Bool) (m : BitVec 32) (h : BitVec 256) (word : Nat)
    (bits : Word), s.dev.on = true → s.dev.mayInject q = false →
    ∀ c ∈ [Instr.read q mask, .writeL q data, .writeM q half m h, .or q word bits], exec c s = .next s) ∧
  (∀ (s : State) (r : HubRsp) (t : List HubRsp), s.dev.on = true → s.dev.hubd.hub.rsps = r :: t →
    exec (.hubResponse r.ring r.src r.dst r.tag) s = .next (s.withDev (s.dev.onHub (fun h => { h with rsps := t }))))

/-- The hub's links and monitors (12 R369; 13 R407, R409). A flit resent is counted; the eighth failure in a row stops the hub, writes event
0x821 and asks a beat in progress for a halt of cause 7, and a stopped hub injects nothing. A request that waits too long at a FULL
cluster writes event 0x707 once. The monitor's interval leaves the count of the link that is selected, at most 0x10000: what it then reads for
another link is a free value (assumption logs 9, 20).

Gatekeeper entries and bank owners (12 R368; 13 R410; 14 R417). A write of GK_SEL selects an entry and stages its words; a write of GK_ENT0
puts the four staged words into the selected entry, and an entry found uncorrectable counts as right again. A handover by a master
with OWNER authority sets the bank's owner; by one that may not hand it over, the owner stays. Which master a flit's authority is is as
assumption logs 9 and 20 have it. -/
def Obligations.HubLinksAndGatekeepers : Prop :=
  (
  (∀ (s : State) (ring dir node : Nat), s.dev.on = true → s.dev.hubd.hub.stopped = false →
    Answers (.linkParityResend ring dir node false) s (fun e => e.fld F.HUB_LINK_ERR_COUNT =
        satAdd 32 (s.dev.fld F.HUB_LINK_ERR_COUNT) 1 ∧ SMap.get 0 e.hubd.hub.fails (linkKey ring dir node) = 1 ∧
      (∀ x, x ≠ linkKey ring dir node → SMap.get 0 e.hubd.hub.fails x = SMap.get 0 s.dev.hubd.hub.fails x) ∧
      e.mem = s.dev.mem ∧ e.loom = s.dev.loom ∧ e.log = s.dev.log ∧ s.dev.sameRegs e [R.HUB_LINK_ERR])) ∧
  (∀ (s : State) (ring dir node : Nat), s.dev.on = true → s.dev.hubd.hub.stopped = false → s.dev.ts = tsBeat →
    SMap.get 0 s.dev.hubd.hub.fails (linkKey ring dir node) = 7 → s.dev.log.queue.length < 64 →
    Answers (.ringLinkFail ring dir node) s (fun e => e.hubd.hub.stopped = true ∧ (∀ q, e.mayInject q = false) ∧
      e.loom = { s.dev.loom with haltReq := some (s.dev.loom.haltReq.getD 7) } ∧ e.regs = s.dev.regs ∧ e.mem = s.dev.mem ∧
      e.log.queue = s.dev.log.queue ++ [logEntry s.dev.tick bHUB 0 0x821 0])) ∧
  (∀ (s : State) (cl bank : Nat), s.dev.on = true → cl < 16 → bank < 32 → (s.dev.fld F.CLM_CFG_FULL).testBit cl = true →
    (s.dev.hubd.hub.starved = false → s.dev.log.queue.length < 64 → Answers (.clmStarveLimit cl bank) s (fun e =>
      e.hubd.hub.starved = true ∧ e.log.queue = s.dev.log.queue ++ [logEntry s.dev.tick bCLM 0 0x707 (cl + bank * 16)] ∧
      e.regs = s.dev.regs ∧ e.mem = s.dev.mem ∧ e.loom = s.dev.loom)) ∧
    (s.dev.hubd.hub.starved = true → exec (.clmStarveLimit cl bank) s = .next s)) ∧
  (∀ (s : State) (flits : Nat), s.dev.on = true → exec (.hubMonIntervalEnd flits) s = .next (s.withDev
    { s.dev with
      hubd := { s.dev.hubd with hub := { s.dev.hubd.hub with mon := some ⟨s.dev.monSel, min 0x10000 flits, s.dev.freeCtr⟩ } }
      freeCtr := s.dev.freeCtr + 512 })) ∧
  (∀ (d : Dev) (n f : Nat), d.hubd.hub.mon = some ⟨d.monSel, n, f⟩ → (d.regRead R.HUB_MON_CNT).2 = w32 n)) ∧
  (
  (∀ (s : State) (mid : Nat) (v : Word), s.dev.ringsOn = true → s.dev.mayWrite mid R.GK_SEL → Answers (.gkSelWrite mid v) s (fun e =>
    e.fld F.GK_SEL_TABLE = bitsN v.toNat 10 8 ∧ e.fld F.GK_SEL_ENTRY = bitsN v.toNat 5 0 ∧
    e.hubd.hub.stage1 = s.dev.reg (instKey R.GK_ENT1 (gkKey (min 5 (bitsN v.toNat 10 8)) (bitsN v.toNat 5 0))) ∧
    e.hubd.hub.stage2 = s.dev.reg (instKey R.GK_ENT2 (gkKey (min 5 (bitsN v.toNat 10 8)) (bitsN v.toNat 5 0))) ∧
    e.mem = s.dev.mem ∧ e.loom = s.dev.loom ∧ e.log = s.dev.log ∧ s.dev.sameRegs e [R.GK_SEL])) ∧
  (∀ (s : State) (mid : Nat) (v : Word), s.dev.ringsOn = true → s.dev.mayWrite mid R.GK_ENT0 → Answers (.gkEnt0Write mid v) s (fun e =>
    e.reg (instKey R.GK_ENT0 s.dev.gkSel) = v &&& 0x9EFFFFFF ∧ e.reg (instKey R.GK_ENT1 s.dev.gkSel) = s.dev.hubd.hub.stage1 ∧
    e.reg (instKey R.GK_ENT2 s.dev.gkSel) = s.dev.hubd.hub.stage2 ∧ e.reg (instKey R.GK_ENT3 s.dev.gkSel) = s.dev.hubd.hub.stage3 ∧
    e.hubd.hub.gkBad = s.dev.hubd.hub.gkBad.erase s.dev.gkSel ∧
    (∀ j < 4, SMap.get 0 e.hubd.hub.gkFlip (4 * s.dev.gkSel + j) = 0) ∧ e.mem = s.dev.mem ∧ e.loom = s.dev.loom ∧ e.log = s.dev.log ∧
    s.dev.sameRegs e [instKey R.GK_ENT0 s.dev.gkSel, instKey R.GK_ENT1 s.dev.gkSel, instKey R.GK_ENT2 s.dev.gkSel,
      instKey R.GK_ENT3 s.dev.gkSel])) ∧
  (∀ (s : State) (mid bank kind id : Nat), s.dev.ringsOn = true → bank < 512 → kind ∈ [1, 2] → id < 128 →
    s.dev.mayWrite mid (R.CLM_BANK_OWNER + 4 * bank) →
    ((s.dev.who mid).owner = true → s.dev.rel.badCluster.contains (bank / 32) = false →
      Answers (.handover mid bank (w32 (kind * 256 + id))) s (fun e => e.fld (F.CLM_BANK_OWNER_KIND.at bank) = kind ∧
        e.fld (F.CLM_BANK_OWNER_ID.at bank) = id ∧ e.mem = s.dev.mem ∧ e.loom = s.dev.loom ∧ e.log = s.dev.log ∧
        s.dev.sameRegs e [instKey R.CLM_BANK_OWNER bank])) ∧
    ((s.dev.who mid).owner = false → s.dev.ownsBank mid bank = false → s.dev.log.queue.length < 63 →
      Answers (.handover mid bank (w32 (kind * 256 + id))) s (fun e => e.regs = s.dev.regs ∧ e.mem = s.dev.mem ∧
        e.loom = s.dev.loom ∧ e.log.queue = s.dev.log.queue ++
          [logEntry s.dev.tick bCLM 0 0x806 (mid % 2 ^ 12 * 2 ^ 32 + (R.CLM_BANK_OWNER + 4 * bank)),
            logEntry s.dev.tick bCLM 0 0x706 (bank / 32 + bank % 32 * 16 + mid % 4096 * 2 ^ 12)]))))

/-- A bobbin channel (13 R394, R396 to R402), with the tokens of a flit in its bucket. GO of a channel that does not run starts it at its descriptor with its counts at 0, and is
refused while it runs. A descriptor that meets every rule is taken, and a bad one halts the channel with cause 3. A read's response
brings bytes of the source stream, and at the write that ends a copy into a tablet memory its bytes stand at the destination, no others
change, and the channel is DONE. ABORT ends a channel ABORTED, once a write that can be in flight has ended (the order of a channel's
reads and writes is assumption log 20's). -/
def Obligations.BobbinChannelsMoveData : Prop :=
  ∀ (s : State) (c : Nat), s.dev.on = true → c < 32 →
    (∀ mid, s.dev.ringsOn = true → s.dev.bobBusy c = false → Answers (.go mid c) s (fun e => e.fld (F.BOB_CH_STATUS_STATE.at c) = 1 ∧
      e.fld (F.BOB_CH_STATUS_STATUS.at c) = 1 ∧ e.reg (instKey R.BOB_CH_BYTES c) = 0 ∧ (e.bob c).priv = s.dev.fwOf mid ∧
      (e.bob c).addr = (s.dev.reg (instKey R.BOB_CH_DESC_LO c)).toNat / 64 * 64 +
        s.dev.fld (F.BOB_CH_DESC_HI_ADDR_HI.at c) * 2 ^ 32 ∧ (e.bob c).inp = [] ∧ (e.bob c).tokens = bobBucket ∧ (∀ j, j ≠ c → e.bob j = s.dev.bob j) ∧
      e.mem = s.dev.mem ∧ e.loom = s.dev.loom ∧ e.log = s.dev.log ∧ s.dev.sameRegs e [instKey R.BOB_CH_STATUS c,
        instKey R.BOB_CH_BYTES c, instKey R.BOB_CH_ERR_LO c, instKey R.BOB_CH_ERR_HI c])) ∧
    (∀ mid, s.dev.ringsOn = true → s.dev.bobBusy c = true → exec (.go mid c) s = .next (s.withDev
      (s.dev.setFld (F.BOB_CH_STATUS_REASON.at c) 1))) ∧
    (∀ (d : Dev) (bs : List Byte) (x : BitVec 512), s.dev.fld (F.BOB_CH_STATUS_STATE.at c) = 1 → s.dev.ringsOn = true → s.dev.bobReady c = true →
      (s.dev.bobPay c).busRead (midBOB + c) gkREAD (s.dev.bob c).addr 64 = (d, stOK, bs) → x = BitVec.ofNat 512 (leNat bs) →
      ((Bd.fieldsOk x && Bd.shufOk x) = true → exec (.descriptorFetch c) s = .next (s.withDev
        ((d.onBob c (fun b => { b with desc := x, inp := [], outPos := 0, retries := 0, wretries := 0 })).setFld (F.BOB_CH_STATUS_STATE.at c) 2))) ∧
      ((Bd.fieldsOk x && Bd.shufOk x) = false → Answers (.descriptorFetch c) s (fun e => e.fld (F.BOB_CH_STATUS_STATE.at c) = 4 ∧
        e.fld (F.BOB_CH_STATUS_STATUS.at c) = 5 ∧ e.fld (F.BOB_CH_STATUS_CAUSE.at c) = 3 ∧ e.mem = d.mem ∧ e.loom = d.loom))) ∧
    (∀ (d : Dev) (bs : List Byte) (a n : Nat), s.dev.fld (F.BOB_CH_STATUS_STATE.at c) = 2 → s.dev.ringsOn = true → s.dev.bobReady c = true →
      (s.dev.bob c).inp.length < Bd.total (s.dev.bob c).desc → a = streamAddr (Bd.src (s.dev.bob c).desc)
        (Bd.srcStride (s.dev.bob c).desc) (Bd.srcLen (s.dev.bob c).desc) (s.dev.bob c).inp.length →
      n = min (Bd.srcLen (s.dev.bob c).desc - (s.dev.bob c).inp.length % Bd.srcLen (s.dev.bob c).desc) (64 - a % 64) →
      (s.dev.bobPay c).busRead (midBOB + c) gkREAD (a / 64 * 64) 64 = (d, stOK, bs) → exec (.bobbinResponse ⟨c, false⟩) s = .next (s.withDev
        (d.onBob c (fun y => { y with inp := y.inp ++ (bs.drop (a % 64)).take n, retries := 0 })))) ∧
    (∀ x : BitVec 512, s.dev.fld (F.BOB_CH_STATUS_STATE.at c) = 2 → s.dev.ringsOn = true → s.dev.bobReady c = true →
      s.dev.chk = [] → s.dev.bad = [] → x = (s.dev.bob c).desc →
      Bd.shuf x = 0 → Bd.chain x = false → 0 < Bd.total x → Bd.total x ≤ 32 → Bd.dstCnt x = 1 → Bd.dstLen x = Bd.total x →
      Bd.dst x % 32 = 0 → (s.dev.bob c).outPos = 0 → (s.dev.bob c).inp.length = Bd.total x →
      (∀ i < Bd.total x, inStream (Bd.src x) (Bd.srcStride x) (Bd.srcLen x) (Bd.srcCnt x) (Bd.dst x + i) = false) →
      regionOf (Bd.dst x) = .tablet → s.dev.passes (midBOB + c) gkWRITE (Bd.dst x) →
      Answers (.bobbinResponse ⟨c, true⟩) s (fun e => e.bytes (Bd.dst x) (Bd.total x) = (s.dev.bob c).inp ∧
        (∀ a, a < Bd.dst x ∨ Bd.dst x + Bd.total x ≤ a → e.byte a = s.dev.byte a) ∧
        e.fld (F.BOB_CH_STATUS_STATE.at c) = 4 ∧ e.fld (F.BOB_CH_STATUS_STATUS.at c) = 2 ∧
        e.reg (instKey R.BOB_CH_BYTES c) = s.dev.reg (instKey R.BOB_CH_BYTES c) + w32 (Bd.total x) ∧ e.loom = s.dev.loom)) ∧
    (s.dev.ringsOn = true → (s.dev.fld (F.BOB_CH_STATUS_STATE.at c) = 1 ∨ (s.dev.fld (F.BOB_CH_STATUS_STATE.at c) = 2 ∧
      Bd.canWrite (s.dev.bob c).desc (s.dev.bob c).inp.length (s.dev.bob c).outPos = false)) → Answers (.bobbinAbort c) s (fun e => e.fld (F.BOB_CH_STATUS_STATE.at c) = 4 ∧
      e.fld (F.BOB_CH_STATUS_STATUS.at c) = 3 ∧ e.mem = s.dev.mem ∧ e.loom = s.dev.loom ∧ e.log = s.dev.log ∧
      s.dev.sameRegs e [instKey R.BOB_CH_STATUS c])) ∧
    (s.dev.ringsOn = true → s.dev.fld (F.BOB_CH_STATUS_STATE.at c) = 2 →
      Bd.canWrite (s.dev.bob c).desc (s.dev.bob c).inp.length (s.dev.bob c).outPos = true →
      Answers (.bobbinAbort c) s (fun e => e.fld (F.BOB_CH_STATUS_STATE.at c) = 3 ∧ e.hubd = s.dev.hubd ∧ e.mem = s.dev.mem ∧
        s.dev.sameRegs e [instKey R.BOB_CH_STATUS c])) ∧
    (s.dev.ringsOn = true → s.dev.bobBusy c = false → Answers (.bobbinAbort c) s (fun e => e.fld (F.BOB_CH_STATUS_REASON.at c) = 1 ∧
      s.dev.sameUnits e ∧ s.dev.sameRegs e [instKey R.BOB_CH_STATUS c]))

/-- Device power states (15 R449, R453 to R455, R471; 09 R282). With OWNER authority and the register lock open, LOW begins its
transition and OFF takes effect at once: panels off, transmitters idle; RUN begins its own, and asks for no authority but the lock. A
request while the treadle runs is ignored with event 0x806. The end of the entry leaves DEV = LOW, the lanes asleep and HBM refreshing
itself, and waits for the lanes that still have frames; the end of the exit leaves DEV = RUN with the lanes as before. A request that
meets no condition leaves the state (assumption log 1); that one command runs the entry's events, and a later one ends it, is the
model's choice (assumption log 27).

Panels (15 R448 to R451, R456, R472; 17 R491). The selected panel is asked for SLEEP, OFF or the active pair; a SLEEP that its beams
forbid is ignored with event 0x806; OFF is at once, with no supply. SLEEP entered leaves the panel asleep at its lowest voltage with the
memories of its beams 0. A wake from OFF begins at code 30, and leaves the panel idle; one that fails leaves it unusable. A tick of
adaptive voltage steps its code by one towards the target and within its bounds, but not while start-up holds it at 30 (17 R497;
assumption log 27). -/
def Obligations.PowerStates : Prop :=
  (
  (∀ (s : State) (mid : Nat), s.dev.ringsOn = true → s.dev.ownerMay mid R.PWR_DEV_REQ → s.dev.rwlOk (s.dev.who mid) = true →
    (s.dev.devQuiet = true → s.dev.fld F.PWR_STATUS_DEV = 0 → s.dev.plat.trans = 0 → Answers (.devLowRequest mid) s (fun e =>
      e.fld F.PWR_STATUS_TRANS = 1 ∧ e.plat.trans = 1 ∧ e.fld F.PWR_DEV_REQ_REQ = 1 ∧ e.fld F.PWR_STATUS_DEV = 0 ∧
      e.mem = s.dev.mem ∧ e.loom = s.dev.loom ∧ e.log = s.dev.log ∧ s.dev.sameRegs e [R.PWR_STATUS, R.PWR_DEV_REQ])) ∧
    (s.dev.fld F.PWR_STATUS_DEV = 1 → s.dev.plat.trans = 0 → Answers (.devRunRequest mid) s (fun e =>
      e.fld F.PWR_STATUS_TRANS = 1 ∧ e.plat.trans = 2 ∧ e.fld F.PWR_DEV_REQ_REQ = 0 ∧ e.fld F.PWR_STATUS_DEV = 1 ∧
      (∀ p < 4, s.dev.panel p = 2 → e.plat.waking.testBit p = true) ∧ e.mem = s.dev.mem ∧ e.loom = s.dev.loom ∧
      e.log = s.dev.log ∧ s.dev.sameRegs e [R.PWR_STATUS, R.PWR_DEV_REQ])) ∧
    (s.dev.devQuiet = true → s.dev.plat.trans = 0 → Answers (.devOffRequest mid) s (fun e => e.fld F.PWR_STATUS_DEV = 2 ∧
      e.fld F.PWR_STATUS_TRANS = 0 ∧ e.plat.txIdle = true ∧ e.plat.gpioStage = 1 ∧ (∀ p < 4, e.panel p = 3) ∧ e.on = false)) ∧
    (s.dev.devQuiet = false → ∀ c ∈ [Instr.devLowRequest mid, .devOffRequest mid],
      exec c s = .next (s.withDev (s.dev.access 0x806 mid R.PWR_DEV_REQ)))) ∧
  (∀ s : State, s.dev.on = true → s.dev.plat.trans = 1 → s.dev.hubd.shuttles.any (fun x => x.2.item.isSome) = false →
    s.dev.plat.devOwed = [] → (∀ ph < 128, (s.dev.lane ph).txq = []) → Answers .lowEntryDone s (fun e =>
      e.fld F.PWR_STATUS_DEV = 1 ∧ e.fld F.PWR_STATUS_TRANS = 0 ∧ e.plat.trans = 0 ∧
      (∀ ph < 128, e.lanePwr ph = 3 ∧ (e.lane ph).pwrSaved = s.dev.lanePwr ph + 1) ∧
      e.fld F.HBM_STATUS_SELFREF = e.fld F.HBM_STATUS_TRAINED ∧ e.cap.quiet = true)) ∧
  (∀ (s : State) (ph : Nat), s.dev.on = true → s.dev.plat.trans = 1 → s.dev.hubd.shuttles.any (fun x => x.2.item.isSome) = false →
    ph < 128 → (s.dev.lane ph).txq ≠ [] → Answers .lowEntryDone s (fun e => e.plat.trans = 3 ∧
      e.fld F.PWR_STATUS_DEV = s.dev.fld F.PWR_STATUS_DEV ∧ (e.lane ph).pwrPend = 4 ∧ (e.lane ph).txq = (s.dev.lane ph).txq ∧
      e.fld F.HBM_STATUS_SELFREF = s.dev.fld F.HBM_STATUS_SELFREF)) ∧
  (∀ s : State, s.dev.on = true → s.dev.plat.trans = 3 → s.dev.plat.devOwed = [] → s.dev.lanesBusy = false →
    Answers .lowEntryDone s (fun e => e.fld F.PWR_STATUS_DEV = 1 ∧ e.fld F.PWR_STATUS_TRANS = 0 ∧ e.plat.trans = 0 ∧
      e.fld F.HBM_STATUS_SELFREF = e.fld F.HBM_STATUS_TRAINED ∧ e.warp = s.dev.warp ∧ e.mem = s.dev.mem ∧ e.loom = s.dev.loom ∧
      s.dev.sameRegs e [R.PWR_STATUS, R.HBM_STATUS, R.LOG_LOST])) ∧
  (∀ s : State, s.dev.on = true → s.dev.plat.trans = 2 → s.dev.plat.waking = 0 → s.dev.plat.devOwed = [] →
    Answers .lowExitDone s (fun e => e.fld F.PWR_STATUS_DEV = 0 ∧ e.fld F.PWR_STATUS_TRANS = 0 ∧ e.plat.trans = 0 ∧
      e.fld F.HBM_STATUS_SELFREF = 0 ∧ e.mem = s.dev.mem ∧ e.loom = s.dev.loom ∧
      (∀ ph < 128, 0 < (s.dev.lane ph).pwrSaved → (s.dev.lane ph).pwrSaved ≤ 4 →
        e.lanePwr ph = ((s.dev.lane ph).pwrSaved - 1) ||| s.dev.lanePwr ph))) ∧
  (∀ s : State, s.dev.on = true → (s.dev.plat.trans ≠ 1 → (s.dev.plat.trans ≠ 3 ∨ s.dev.lanesBusy = true) →
      exec .lowEntryDone s = .next s) ∧
    ((s.dev.plat.trans ≠ 2 ∨ s.dev.plat.waking ≠ 0) → exec .lowExitDone s = .next s))) ∧
  (
  (∀ (s : State) (mid p : Nat), s.dev.ringsOn = true → s.dev.mayWrite mid R.PWR_PANEL_REQ → s.dev.rwlOk (s.dev.who mid) = true →
    p = s.dev.fld F.PWR_PANEL_SEL_PANEL →
    (s.dev.sleepOk p false = true → s.dev.panel p < 2 → Answers (.panelSleepRequest mid) s (fun e => e.plat.sleeping.testBit p = true ∧
      e.fld (F.PWR_PANEL_REQ_REQ.at p) = 2 ∧ e.panel p = s.dev.panel p ∧ e.mem = s.dev.mem ∧ e.loom = s.dev.loom ∧
      e.log = s.dev.log ∧ s.dev.sameRegs e [instKey R.PWR_PANEL_REQ p])) ∧
    (s.dev.sleepOk p false = false → exec (.panelSleepRequest mid) s = .next (s.withDev
      (s.dev.access 0x806 mid R.PWR_PANEL_REQ))) ∧
    (s.dev.sleepOk p true = true → s.dev.panel p ≠ 3 → Answers (.panelOffRequest mid) s (fun e => e.panel p = 3 ∧
      e.fld (F.PWR_PANEL_V_CODE.at p) = 0 ∧ e.fld (F.PWR_PANEL_REQ_REQ.at p) = 2 + 1 ∧ e.plat.sleeping.testBit p = false ∧
      e.plat.waking.testBit p = false)) ∧
    (∀ idle : Bool, s.dev.panelUp p = false → Answers (.panelActiveRequest mid idle) s (fun e => e.plat.waking.testBit p = true ∧
      e.fld (F.PWR_PANEL_REQ_REQ.at p) = b2n idle ∧ e.panel p = s.dev.panel p ∧
      e.fld (F.PWR_PANEL_V_CODE.at p) = (if s.dev.panel p = 3 then 30 else s.dev.fld (F.PWR_PANEL_V_CODE.at p)) ∧ e.mem = s.dev.mem ∧
      e.loom = s.dev.loom ∧ e.log = s.dev.log ∧ s.dev.sameRegs e [instKey R.PWR_PANEL_REQ p, instKey R.PWR_PANEL_V p]))) ∧
  (∀ (s : State) (p : Nat), s.dev.on = true → p < 4 →
    (s.dev.ringsOn = true → s.dev.plat.sleeping.testBit p = true → Answers (.panelSleepEntered p) s (fun e => e.panel p = 2 ∧
      e.plat.sleeping.testBit p = false ∧ e.fld (F.PWR_PANEL_V_CODE.at p) = e.vmin p ∧
      ∀ gb < 128, s.dev.panelOf gb = p → ∀ a, beamMemAddr gb 0 ≤ a → a < beamMemAddr gb 0 + 0x100000 → e.byte a = 0)) ∧
    (s.dev.plat.sleeping.testBit p = false → exec (.panelSleepEntered p) s = .next s) ∧
    (∀ cacheBad : Bool, s.dev.ringsOn = true → s.dev.plat.sleeping.testBit p = false → s.dev.plat.waking.testBit p = true → s.dev.panel p = 3 →
      s.dev.trd.startOwed = none → Answers (.panelWakeDone p cacheBad) s (fun e => e.panel p = 1 ∧
        e.plat.waking.testBit p = false ∧ e.mem = s.dev.mem ∧ e.loom = s.dev.loom ∧
        s.dev.sameRegs e [R.PWR_STATUS, R.LOG_LOST])) ∧
    (s.dev.plat.waking.testBit p = true → s.dev.panel p ≠ 3 → s.dev.ldr.bay = none → s.dev.trd.startOwed = none →
      exec (.panelWakeTimeout p) s = .next (s.withDev { s.dev with plat := { s.dev.plat with
        waking := offBit s.dev.plat.waking p, panelBad := orBit s.dev.plat.panelBad p } })) ∧
    (∀ tp : Nat, s.dev.panel p < 2 → s.dev.codeHeld = true → Answers (.adaptTick p tp) s (fun e =>
        e.fld (F.PWR_PANEL_V_CODE.at p) = s.dev.fld (F.PWR_PANEL_V_CODE.at p) ∧ s.dev.sameUnits e ∧ e.log = s.dev.log ∧
        s.dev.sameRegs e [instKey R.PWR_PANEL_V p])) ∧
    (∀ tp : Nat, s.dev.panel p < 2 → s.dev.codeHeld = false → s.dev.tooHot = false → s.dev.fld (F.PWR_PANEL_CFG_ADAPT.at p) = 1 →
      Answers (.adaptTick p tp) s (fun e => e.fld (F.PWR_PANEL_V_TP.at p) = min tp 4095 ∧
        e.fld (F.PWR_PANEL_V_CODE.at p) = min (min (s.dev.vmax p) s.dev.vcap) (max (s.dev.vmin p)
          (if tp + 40 < s.dev.fld (F.PWR_PANEL_CFG_TP_TARGET.at p) then s.dev.fld (F.PWR_PANEL_V_CODE.at p) - 1
          else if s.dev.fld (F.PWR_PANEL_CFG_TP_TARGET.at p) < tp then s.dev.fld (F.PWR_PANEL_V_CODE.at p) + 1
          else s.dev.fld (F.PWR_PANEL_V_CODE.at p))) ∧
        s.dev.sameUnits e ∧ e.log = s.dev.log ∧ s.dev.sameRegs e [instKey R.PWR_PANEL_V p]))))

/-- The watch unit (15 R459 to R461, R472). A sample puts what SRC 0 to 63 and 64 to 99 measure into WCH_SRC_VAL; with no sensor above 105 °C, no
filter on and no rule but one ALERT rule of one sample's persistence on a sensor above its threshold, that rule fires: FIRED, event 0xA02, ALERT_N. UNPARK by OWNER
authority ends a PARK. A write of WCH_RULE_HI puts both words in force, and an ALERT rule that had fired is cleared first.

Trace (15 R463, R465, R467). The packet of the oldest event goes into its cluster's FIFO of 256, or is dropped and counted when that is full
and the packet may not stall it. A packet taken to the HBM sink, where the gatekeepers pass its line and no bit is wrong, stands at the
write pointer with the sink's SEQ, the pointer moves on by 16, and no other byte changes. -/
def Obligations.WatchUnitAndTrace : Prop :=
  (
  (∀ (s : State) (xs : List Nat) (r i : Nat), s.dev.aonOn = true → s.dev.fld F.PWR_STATUS_DEV = 0 → xs.length = 100 →
    (∀ x ∈ xs, x < 65536) → (∀ j < 64, sgn 16 (xs.getD j 0) ≤ t105) → (∀ f < 32, s.dev.fld (F.WCH_FILT_EN.at f) = 0) →
    r < 32 → i < 64 → (∀ j < 32, j ≠ r → Rule.en (s.dev.rule j) = false) → s.dev.fld F.WCH_STATUS_FIRED = 0 →
    Rule.en (s.dev.rule r) = true → Rule.action (s.dev.rule r) = acALERT → Rule.insrc (s.dev.rule r) = true →
    Rule.input (s.dev.rule r) = i → Rule.below (s.dev.rule r) = false → Rule.persist (s.dev.rule r) = 0 →
    Rule.thresh (s.dev.rule r) < sgn 16 (xs.getD i 0) → s.dev.log.queue.length < 64 →
    Answers (.watchSample xs) s (fun e => (∀ j < 100, e.fld (F.WCH_SRC_VAL_VALUE.at j) = srcCode j (xs.getD j 0)) ∧
      e.fld F.WCH_STATUS_FIRED = 2 ^ r ∧ e.alerts.testBit (alRule r) = true ∧
      e.log.queue = s.dev.log.queue ++ [logEntry s.dev.tick bWCH 0 0xA02 (r + xs.getD i 0 * 32)] ∧ e.mem = s.dev.mem ∧
      e.loom = s.dev.loom ∧ e.trd = s.dev.trd)) ∧
  (∀ (s : State) (mid : Nat), s.dev.ringsOn = true → s.dev.ownerMay mid R.WCH_CMD → s.dev.plat.parked = true → s.dev.ts ≠ tsWaiting →
    Answers (.unpark mid) s (fun e => e.plat.parked = false ∧ e.trd.parkLow = false ∧ e.fld F.PWR_STATUS_PARKED = 0 ∧
      e.alerts.testBit alPark = false ∧ e.mem = s.dev.mem ∧ e.loom = s.dev.loom ∧ e.log = s.dev.log ∧
      s.dev.sameRegs e [R.PWR_STATUS])) ∧
  (∀ (s : State) (mid : Nat), s.dev.ringsOn = true → s.dev.mayWrite mid R.WCH_CMD → (s.dev.who mid).owner = false →
    exec (.unpark mid) s = .next (s.withDev (s.dev.access 0x806 mid R.WCH_CMD))) ∧
  (∀ (s : State) (mid r : Nat) (v : Word), s.dev.ringsOn = true → s.dev.mayWrite mid R.WCH_RULE_HI →
    s.dev.rwlOk (s.dev.who mid) = true → r = s.dev.fld F.WCH_SEL_INDEX →
    (s.dev.fired r = false ∨ Rule.action (s.dev.rule r) = acALERT) → Answers (.wchRuleHiWrite mid v) s (fun e =>
      e.rule r = v ++ s.dev.reg (instKey R.WCH_RULE_LO r) ∧ SMap.get 0 e.plat.watch.runs r = 0 ∧ e.fired r = false ∧
      (s.dev.fired r = true → e.alerts.testBit (alRule r) = false) ∧ (∀ j, j ≠ r → e.rule j = s.dev.rule j) ∧
      e.mem = s.dev.mem ∧ e.loom = s.dev.loom ∧ e.log = s.dev.log ∧
      s.dev.sameRegs e [instKey R.WCH_RULE_HI r, R.WCH_STATUS]))) ∧
  (
  (∀ (s : State) (c : Nat) (main : Bool) (p : BitVec 128) (t : List (Nat × Bool × BitVec 128)), s.dev.on = true →
    s.dev.hubd.trc.owed = (c, main, p) :: t →
    ((SMap.get [] s.dev.hubd.trc.fifo c).length < 256 → Answers .tracePacket s (fun e => e.hubd.trc.owed = t ∧
      SMap.get [] e.hubd.trc.fifo c = SMap.get [] s.dev.hubd.trc.fifo c ++ [p] ∧
      (∀ j, j ≠ c → SMap.get [] e.hubd.trc.fifo j = SMap.get [] s.dev.hubd.trc.fifo j) ∧ e.regs = s.dev.regs ∧
      e.mem = s.dev.mem ∧ e.loom = s.dev.loom ∧ e.log = s.dev.log)) ∧
    (256 ≤ (SMap.get [] s.dev.hubd.trc.fifo c).length → (main = false ∨ s.dev.fld F.TRC_CTL_STALL = 0) →
      Answers .tracePacket s (fun e => e.hubd.trc.owed = t ∧ e.hubd.trc.fifo = s.dev.hubd.trc.fifo ∧
        SMap.get 0 e.hubd.trc.lost c = satAdd 32 (SMap.get 0 s.dev.hubd.trc.lost c) 1 ∧
        e.fld F.TRC_LOST_COUNT = satAdd 32 (s.dev.fld F.TRC_LOST_COUNT) 1 ∧ e.mem = s.dev.mem ∧ e.loom = s.dev.loom ∧
        s.dev.sameRegs e [R.TRC_LOST]))) ∧
  (∀ (s : State) (c a : Nat) (p : BitVec 128) (t : List (BitVec 128)), s.dev.ringsOn = true → s.dev.fld F.TRC_CTL_SINK = 0 →
    SMap.get [] s.dev.hubd.trc.fifo c = p :: t → SMap.get 0 s.dev.hubd.trc.lost c = 0 →
    a = s.dev.fld F.TRC_BUF_BASE_BASE * 256 / 2 ^ s.dev.fld F.TRC_CTL_SIZE * 2 ^ s.dev.fld F.TRC_CTL_SIZE +
      s.dev.fld F.TRC_WPTR_BYTES % 2 ^ s.dev.fld F.TRC_CTL_SIZE →
    a % 16 = 0 → a < hbmEnd → s.dev.plat.hbmReady = true → s.dev.chk = [] → s.dev.bad = [] → s.dev.passes midTRC gkWRITE a →
    Answers (.traceSinkWrite [c]) s (fun e => SMap.get [] e.hubd.trc.fifo c = t ∧
      e.bytes a 16 = leBytes 16 (withSeq p s.dev.hubd.trc.seqHbm).toNat ∧ (∀ x, x < a ∨ a + 16 ≤ x → e.byte x = s.dev.byte x) ∧
      e.reg R.TRC_WPTR = s.dev.reg R.TRC_WPTR + 16 ∧ e.hubd.trc.seqHbm = (s.dev.hubd.trc.seqHbm + 1) % 65536 ∧
      e.loom = { s.dev.loom with occ := e.loom.occ } ∧ e.log = s.dev.log ∧ s.dev.sameRegs e [R.TRC_WPTR])))

/-- The shed rule (02 R30): at pick p an operand address i below 0x800 reads this attempt's entry i of the current bank where i < p, and
else the entry of the other bank, at once; the pick's result goes to its own entry of the current bank; so a read of entry p at pick p
returns the previous beat's own result, and a pick that copies operand A, with A naming its own entry, delivers that entry's value. -/
def Obligations.ShedRule : Prop :=
  (∀ (d : Dev) (hn k p i : Nat), i < 0x800 → d.readOp hn k p i = ⟨0, SMap.get false d.loom.shed
    (shedKey (hkOf hn k) (if i < p then d.fld F.LOM_STATUS_BANK else 1 - d.fld F.LOM_STATUS_BANK) i)⟩) ∧
  (∀ (d : Dev) (hn k p : Nat) (w : PickWord) (v : Bool),
    SMap.get false (d.deliverNow hn k p w v).loom.shed (shedKey (hkOf hn k) (d.fld F.LOM_STATUS_BANK) p) = v ∧
    ∀ x, x ≠ shedKey (hkOf hn k) (d.fld F.LOM_STATUS_BANK) p →
      SMap.get false (d.deliverNow hn k p w v).loom.shed x = SMap.get false d.loom.shed x) ∧
  (∀ (s : State) (gb h k p idx : Nat), s.dev.on = true → s.dev.hazard = false → s.dev.readyAt gb h k p idx →
    s.dev.kindAt (hnOf gb h) k p = .plain → Answers (.plainPick gb h k) s (fun e =>
      SMap.get false e.loom.shed (shedKey (hkOf (hnOf gb h) k) (s.dev.fld F.LOM_STATUS_BANK) p) =
        (PickW.tt (s.dev.loom.pick (hnOf gb h) k p)).testBit idx ∧
      (PickW.fieldOf (s.dev.loom.pick (hnOf gb h) k p) 0 = p → p < 0x800 →
        PickW.inv (s.dev.loom.pick (hnOf gb h) k p) 0 = false →
        (∀ j < 16, (PickW.tt (s.dev.loom.pick (hnOf gb h) k p)).testBit j = j.testBit 0) →
        SMap.get false e.loom.shed (shedKey (hkOf (hnOf gb h) k) (s.dev.fld F.LOM_STATUS_BANK) p) =
          SMap.get false s.dev.loom.shed (shedKey (hkOf (hnOf gb h) k) (1 - s.dev.fld F.LOM_STATUS_BANK) p))))

/-- The harness window at a release (03 R98): whatever the state, the release of a beat, of a SOLO beat and of a rerun leaves 0 in every
slot of every harness window, so that no value of an earlier beat or attempt is left. -/
def Obligations.HarnessWindowStartsAtZero : Prop :=
  (∀ (d : Dev) (ts x : Nat), SMap.get false (d.releaseBeat ts).loom.win x = false) ∧
  (∀ s : State, s.dev.on = true → s.dev.inBeat = true → s.dev.loom.phase = .rerun → Answers .beatRelease s (fun e =>
    e.loom.phase = .released ∧ ∀ x, SMap.get false e.loom.win x = false)) ∧
  (∀ s : State, s.dev.on = true → (s.dev.ts = tsWaiting ∨ s.dev.ts = tsStarting) → s.dev.unmet = 0 →
    Answers .beatRelease s (fun e => e.loom.phase = .released ∧ ∀ x, SMap.get false e.loom.win x = false))

/-- STATUS of the management port (10 R318), served by the always-on domain whether or not the hub answers: 16 bytes, LDR_STATUS,
TRD_STATUS, LOM_STATUS and MGT_STATUS, whose bit 0 is 1 while a cause holds ALERT_N low and whose [27:16] is the error log's write index; the
device's registers, memory and units stay. -/
def Obligations.StatusNeedsNoHub : Prop :=
  ∀ (s : State) (f : MgtFrame), s.dev.mgtServes = true → s.dev.mgtMine f = true → f.intact = true → f.running = false →
    Answers (.mgtStatus ⟨f, 0, 0⟩) s (fun e => e = s.dev.mgReply f.via mgOK (s.dev.reg4 R.LDR_STATUS ++ s.dev.reg4 R.TRD_STATUS ++ s.dev.reg4 R.LOM_STATUS ++
      leBytes 4 (s.dev.fld F.LOG_STATUS_IDX * 2 ^ 16 + (if s.dev.alerts = 0 then 0 else 1))) ∧
    s.dev.sameBytes e ∧ s.dev.sameRegs e [] ∧ e.loom = s.dev.loom ∧ e.trd = s.dev.trd)

/-- Filters (15 R460), as WATCH_SAMPLE steps each of them: with EN = 0 the value is 0 and the next sample with EN = 1 is the first; the first
sample is taken as it is; each later one moves y by the difference, in signed 17 bits, shifted right by K,
arithmetically; a write that leaves EN = 0 leaves y = 0 and makes the next sample with EN = 1 the first. Nothing but the filter's value and its mark changes. -/
def Obligations.FiltersFollowTheirSource : Prop :=
  ∀ (d : Dev) (f : Nat) (x : Int), x = d.srcInt (d.fld (F.WCH_FILT_SRC.at f)) →
    d.sameRegs (d.filterStep f) [instKey R.WCH_VALUE f] ∧
    (d.fld (F.WCH_FILT_EN.at f) = 0 → (d.filterStep f).fld (F.WCH_VALUE_Y.at f) = 0 ∧
      (d.filterStep f).plat.watch.primed.testBit f = false) ∧
    (d.fld (F.WCH_FILT_EN.at f) = 1 → d.plat.watch.primed.testBit f = false →
      (d.filterStep f).fld (F.WCH_VALUE_Y.at f) = unsgn 16 x ∧ (d.filterStep f).plat.watch.primed.testBit f = true) ∧
    (d.fld (F.WCH_FILT_EN.at f) = 1 → d.plat.watch.primed.testBit f = true →
      (d.filterStep f).fld (F.WCH_VALUE_Y.at f) = unsgn 16 (sgn 16 (d.fld (F.WCH_VALUE_Y.at f)) +
        sgn 17 (unsgn 17 (x - sgn 16 (d.fld (F.WCH_VALUE_Y.at f)))) / 2 ^ d.fld (F.WCH_FILT_K.at f)) ∧
      (d.filterStep f).plat.watch.primed.testBit f = true) ∧
    (∀ (w : Who) (v : Word), f = d.fld F.WCH_SEL_INDEX → (d.writeFilt w v).fld (F.WCH_FILT_EN.at f) = 0 →
      (d.writeFilt w v).fld (F.WCH_VALUE_Y.at f) = 0 ∧ (d.writeFilt w v).plat.watch.primed.testBit f = false)

/-- Every shuttle instruction completes (12 R352 to R364, R370). A shuttle that executes and whose instruction cache holds its word runs
it: the next state is that of the instruction's own effect, with the pc where the rule puts it. The instructions that touch registers
alone need no more; a load, a store, MACD and MACP in its own tablet memory need an aligned address, the gatekeepers' pass and stored bits
that are right; FENCE, CLEAN, INVAL and DONE need nothing that waits to be written; POST needs its descriptor readable; a control word
other than OVF is written, and UNTRAP returns, in FIRMWARE; WAIT ends with its event; TRAP and a word that is no instruction trap. No other
shuttle changes but by DONE's notice. -/
def Obligations.CachedInstructionsComplete : Prop :=
  ∀ (st : State) (s : Nat) (w : Word) (x : Shuttle), st.dev.on = true → st.dev.hasWord s w → x = st.dev.sh s →
    (∀ (rd ra rb k acc wd shift : Nat) (sat : Bool) (a b p : BitVec 64), a = x.reg ra → b = x.reg rb → p = x.pc + 4 →
      ∀ c ∈ [(ShOp.sum rd ra rb, Instr.sum s, p), (.dif rd ra rb, .dif s, p), (.conj rd ra rb, .conj s, p), (.disj rd ra rb, .disj s, p),
          (.excl rd ra rb, .excl s, p), (.shl rd ra rb, .shl s, p), (.shr rd ra rb, .shr s, p), (.sha rd ra rb, .sha s, p),
          (.less rd ra rb, .less s, p), (.lessu rd ra rb, .lessu s, p), (.prod rd ra rb, .prod s, p), (.prodhs rd ra rb, .prodhs s, p),
          (.prodhu rd ra rb, .prodhu s, p), (.sumk rd ra k, .sumk s, p), (.conjk rd ra k, .conjk s, p), (.disjk rd ra k, .disjk s, p),
          (.exclk rd ra k, .exclk s, p), (.lessk rd ra k, .lessk s, p), (.topk rd k, .topk s, p)] ++
        [(.ifeq ra rb k, .ifeq s, if a = b then x.pc + sext 16 (4 * k) else p), (.ifne ra rb k, .ifne s, if a = b then p else x.pc + sext 16 (4 * k)),
          (.iflt ra rb k, .iflt s, if a.toInt < b.toInt then x.pc + sext 16 (4 * k) else p),
          (.ifge ra rb k, .ifge s, if a.toInt < b.toInt then p else x.pc + sext 16 (4 * k)),
          (.iflo ra rb k, .iflo s, if a.toNat < b.toNat then x.pc + sext 16 (4 * k) else p),
          (.ifhs ra rb k, .ifhs s, if a.toNat < b.toNat then p else x.pc + sext 16 (4 * k)),
          (.leap rd k, .leap s, x.pc + sext 24 (4 * k)), (.via rd ra k, .via s, (a + sext 17 k) &&& ~~~3#64)] ++
        [(.ext rd sat wd acc shift, .ext s, p), (.clra acc, .clra s, p), (.mva rd acc, .mva s, p), (.mvta acc ra, .mvta s, p),
          (.ldo acc ra, .ldo s, p), (.rdcw rd 8, .rdcw s, p), (.wrcw ra 9, .wrcw s, p), (.iinv ra rb, .iinv s, p)],
        shDecode w = some c.1 → Answers c.2.1 st (fun e => (e.sh s).pc = c.2.2 ∧ (e.sh s).item = x.item ∧
          (∀ j, j ≠ s → e.sh j = st.dev.sh j) ∧ e.mem = st.dev.mem ∧ e.regs = st.dev.regs)) ∧
    (∀ rd cw : Nat, cw < 12 → shDecode w = some (.rdcw rd cw) → Answers (.rdcw s) st (fun e => (e.sh s).pc = x.pc + 4 ∧
      (∀ j, j ≠ s → e.sh j = st.dev.sh j) ∧ e.mem = st.dev.mem ∧ e.regs = st.dev.regs)) ∧
    (∀ ra cw : Nat, cw < 12 → x.priv = true → shDecode w = some (.wrcw ra cw) → Answers (.wrcw s) st (fun e =>
      (e.sh s).pc = x.pc + 4 ∧ (∀ j, j ≠ s → e.sh j = st.dev.sh j) ∧ e.mem = st.dev.mem ∧ e.regs = st.dev.regs)) ∧
    (st.dev.chk = [] → st.dev.bad = [] → x.wbuf = [] →
      (∀ (rt ra sz disp a : Nat), a = (x.reg ra + sext 14 disp).toNat → a % szBytes sz = 0 → regionOf a = .tablet →
        buffered s a = false → st.dev.shBlocked s a = false →
        (st.dev.passes s gkREAD a → shDecode w = some (.get rt ra sz disp) → Answers (.get s) st (fun e =>
          (e.sh s).pc = x.pc + 4 ∧ (∀ j, j ≠ s → e.sh j = st.dev.sh j) ∧ e.mem = st.dev.mem ∧ e.regs = st.dev.regs)) ∧
        (st.dev.passes s gkWRITE a → shDecode w = some (.sto rt ra sz disp) → Answers (.sto s) st (fun e =>
          (e.sh s).pc = x.pc + 4 ∧ (∀ j, j ≠ s → e.sh j = st.dev.sh j) ∧ e.regs = st.dev.regs))) ∧
      (∀ (sat : Bool) (acc xo yo xp yp : Nat), (x.reg xp).toNat % 4 = 0 → (x.reg yp).toNat % 4 = 0 →
        ∀ c ∈ [(ShOp.macd sat acc xo yo xp yp, Instr.macd s), (.macp sat acc xo yo xp yp, .macp s)], shDecode w = some c.1 →
          Answers c.2 st (fun e => (e.sh s).pc = x.pc + 4 ∧ (∀ j, j ≠ s → e.sh j = st.dev.sh j) ∧ e.mem = st.dev.mem ∧
            e.regs = st.dev.regs)) ∧
      (x.dcache = [] → ∀ ra rb : Nat, ∀ c ∈ [(ShOp.fence, Instr.fence s), (.clean ra rb, .clean s), (.inval ra rb, .inval s)],
        shDecode w = some c.1 → Answers c.2 st (fun e => (e.sh s).pc = x.pc + 4 ∧ (∀ j, j ≠ s → e.sh j = st.dev.sh j) ∧
          e.mem = st.dev.mem ∧ e.regs = st.dev.regs)) ∧
      (x.dcache = [] → ∀ i : Item, x.item = some i → Desc.chain i.desc = 0xFFFF → st.dev.shStalled s = false → shDecode w = some .done →
        Answers (.done s) st (fun e => (e.sh s).item = none ∧ (∀ j, j ≠ s → (e.sh j).item = (st.dev.sh j).item) ∧
          e.mem = st.dev.mem))) ∧
    (∀ (rd ra : Nat) (bs : List Byte), (st.dev.shLoad32 s (x.reg ra)).2 = .ok bs →
      (Desc.priv (BitVec.ofNat 256 (leNat bs)) = false ∨ x.priv = true) → shDecode w = some (.post rd ra) → Answers (.post s) st (fun e =>
        (e.sh s).pc = x.pc + 4 ∧ (∀ j, j ≠ s → (e.sh j).pc = (st.dev.sh j).pc))) ∧
    (∀ ra : Nat, x.evt = true → shDecode w = some (.wait ra) → Answers (.wait s) st (fun e => (e.sh s).pc = x.pc + 4 ∧
      (e.sh s).evt = false ∧ (∀ j, j ≠ s → e.sh j = st.dev.sh j) ∧ e.mem = st.dev.mem ∧ e.regs = st.dev.regs)) ∧
    (st.dev.shStalled s = false →
      (shDecode w = some .untrap → x.priv = true → Answers (.untrap s) st (fun e => (e.sh s).pc = x.epc ∧ (e.sh s).inTrap = false ∧
        (e.sh s).priv = x.prior ∧ (∀ j, j ≠ s → e.sh j = st.dev.sh j) ∧ e.mem = st.dev.mem ∧ e.regs = st.dev.regs)) ∧
      (x.tvec ≠ 0 → x.fresh = false →
        (∀ rb : Nat, shDecode w = some (.trap rb) → Answers (.trap s) st (fun e => st.dev.shTook e s cTRAP (BitVec.ofNat 64 rb))) ∧
        (shDecode w = none → Answers (.illegalInstruction s) st (fun e => st.dev.shTook e s cILLEGAL (w.setWidth 64)))))

/-- OFF ends only through PORST_N or the AON supply (15 R452): a step of a device that is OFF leaves it OFF, and leaves memory as it is,
whatever command stands in front of the queue, or none, but PORST_N's fall and the AON supply's; so that no write of PWR_DEV_REQ, no rise or
fall of WRST_N, no rule of the watch unit, no lock of a PLL and no request of the management port brings it back or puts it into LOW. -/
def Obligations.OffIsKept : Prop :=
  ∀ (s t : State), s.dev.isOff → s.pending.head? ≠ some .porstNFall → s.pending.head? ≠ some .vddAonDown → step s = .next t →
    t.dev.isOff ∧ t.dev.mem = s.dev.mem
end

