-- ==== Sys2Proof/Laws/Coding.lean ====
section
/-!
SUPPORT. The line coding of the lanes (09 R252): the receiver's descrambler undoes the scrambler.
-/

namespace Sys2Proof.Machine

/-- A scrambled run of bits descrambles to itself, and both sides hold the same last 58 bits of the wire. -/
theorem descramble_scramble (s : Nat) (bs : List Bool) :
    descrambleBits s (scrambleBits s bs).2 = ((scrambleBits s bs).1, bs) := by
  induction bs generalizing s with
  | nil => rfl
  | cons b t ih => simp [scrambleBits, descrambleBits, ih]

/-- A valid sync header while the lane is locked, after fewer than sixteen invalid ones of the last 63, keeps the lock. -/
theorem blockLock_valid (past : List Bool) (h : (past.take 63).count false < 16) :
    blockLock true past [syncFrame] = true := by
  simp [blockLock, lockAfter, syncValid, syncFrame, List.take_take, h]

end Sys2Proof.Machine
end

