-- ==== Sys2Proof/Laws/State.lean ====
section
/-!
SUPPORT. What each named update of the device leaves: one lemma per field per update, each by taking the record apart.
-/

namespace Sys2Proof.Machine

variable (d : Dev)

/-! ### setReg changes regs only -/

@[simp] theorem Dev.setReg_mem (k : Nat) (v : Word) : (d.setReg k v).mem = d.mem := by cases d; rfl
@[simp] theorem Dev.setReg_chk (k : Nat) (v : Word) : (d.setReg k v).chk = d.chk := by cases d; rfl
@[simp] theorem Dev.setReg_bad (k : Nat) (v : Word) : (d.setReg k v).bad = d.bad := by cases d; rfl
@[simp] theorem Dev.setReg_loom (k : Nat) (v : Word) : (d.setReg k v).loom = d.loom := by cases d; rfl
@[simp] theorem Dev.setReg_trd (k : Nat) (v : Word) : (d.setReg k v).trd = d.trd := by cases d; rfl
@[simp] theorem Dev.setReg_tb (k : Nat) (v : Word) : (d.setReg k v).tb = d.tb := by cases d; rfl
@[simp] theorem Dev.setReg_log (k : Nat) (v : Word) : (d.setReg k v).log = d.log := by cases d; rfl
@[simp] theorem Dev.setReg_warp (k : Nat) (v : Word) : (d.setReg k v).warp = d.warp := by cases d; rfl
@[simp] theorem Dev.setReg_cap (k : Nat) (v : Word) : (d.setReg k v).cap = d.cap := by cases d; rfl
@[simp] theorem Dev.setReg_weft (k : Nat) (v : Word) : (d.setReg k v).weft = d.weft := by cases d; rfl
@[simp] theorem Dev.setReg_rel (k : Nat) (v : Word) : (d.setReg k v).rel = d.rel := by cases d; rfl
@[simp] theorem Dev.setReg_plat (k : Nat) (v : Word) : (d.setReg k v).plat = d.plat := by cases d; rfl
@[simp] theorem Dev.setReg_hubd (k : Nat) (v : Word) : (d.setReg k v).hubd = d.hubd := by cases d; rfl
@[simp] theorem Dev.setReg_charter (k : Nat) (v : Word) : (d.setReg k v).charter = d.charter := by cases d; rfl
@[simp] theorem Dev.setReg_ldr (k : Nat) (v : Word) : (d.setReg k v).ldr = d.ldr := by cases d; rfl
@[simp] theorem Dev.setReg_eth (k : Nat) (v : Word) : (d.setReg k v).eth = d.eth := by cases d; rfl
@[simp] theorem Dev.setReg_flash (k : Nat) (v : Word) : (d.setReg k v).flash = d.flash := by cases d; rfl
@[simp] theorem Dev.setReg_tick (k : Nat) (v : Word) : (d.setReg k v).tick = d.tick := by cases d; rfl
@[simp] theorem Dev.setReg_tickNs (k : Nat) (v : Word) : (d.setReg k v).tickNs = d.tickNs := by cases d; rfl
@[simp] theorem Dev.setReg_alerts (k : Nat) (v : Word) : (d.setReg k v).alerts = d.alerts := by cases d; rfl
@[simp] theorem Dev.setReg_freeCtr (k : Nat) (v : Word) : (d.setReg k v).freeCtr = d.freeCtr := by cases d; rfl

/-! ### setFld changes regs only -/

@[simp] theorem Dev.setFld_mem (x : Fld) (v : Nat) : (d.setFld x v).mem = d.mem := by cases d; rfl
@[simp] theorem Dev.setFld_chk (x : Fld) (v : Nat) : (d.setFld x v).chk = d.chk := by cases d; rfl
@[simp] theorem Dev.setFld_bad (x : Fld) (v : Nat) : (d.setFld x v).bad = d.bad := by cases d; rfl
@[simp] theorem Dev.setFld_loom (x : Fld) (v : Nat) : (d.setFld x v).loom = d.loom := by cases d; rfl
@[simp] theorem Dev.setFld_trd (x : Fld) (v : Nat) : (d.setFld x v).trd = d.trd := by cases d; rfl
@[simp] theorem Dev.setFld_tb (x : Fld) (v : Nat) : (d.setFld x v).tb = d.tb := by cases d; rfl
@[simp] theorem Dev.setFld_log (x : Fld) (v : Nat) : (d.setFld x v).log = d.log := by cases d; rfl
@[simp] theorem Dev.setFld_warp (x : Fld) (v : Nat) : (d.setFld x v).warp = d.warp := by cases d; rfl
@[simp] theorem Dev.setFld_cap (x : Fld) (v : Nat) : (d.setFld x v).cap = d.cap := by cases d; rfl
@[simp] theorem Dev.setFld_weft (x : Fld) (v : Nat) : (d.setFld x v).weft = d.weft := by cases d; rfl
@[simp] theorem Dev.setFld_rel (x : Fld) (v : Nat) : (d.setFld x v).rel = d.rel := by cases d; rfl
@[simp] theorem Dev.setFld_plat (x : Fld) (v : Nat) : (d.setFld x v).plat = d.plat := by cases d; rfl
@[simp] theorem Dev.setFld_hubd (x : Fld) (v : Nat) : (d.setFld x v).hubd = d.hubd := by cases d; rfl
@[simp] theorem Dev.setFld_charter (x : Fld) (v : Nat) : (d.setFld x v).charter = d.charter := by cases d; rfl
@[simp] theorem Dev.setFld_ldr (x : Fld) (v : Nat) : (d.setFld x v).ldr = d.ldr := by cases d; rfl
@[simp] theorem Dev.setFld_eth (x : Fld) (v : Nat) : (d.setFld x v).eth = d.eth := by cases d; rfl
@[simp] theorem Dev.setFld_flash (x : Fld) (v : Nat) : (d.setFld x v).flash = d.flash := by cases d; rfl
@[simp] theorem Dev.setFld_tick (x : Fld) (v : Nat) : (d.setFld x v).tick = d.tick := by cases d; rfl
@[simp] theorem Dev.setFld_tickNs (x : Fld) (v : Nat) : (d.setFld x v).tickNs = d.tickNs := by cases d; rfl
@[simp] theorem Dev.setFld_alerts (x : Fld) (v : Nat) : (d.setFld x v).alerts = d.alerts := by cases d; rfl
@[simp] theorem Dev.setFld_freeCtr (x : Fld) (v : Nat) : (d.setFld x v).freeCtr = d.freeCtr := by cases d; rfl

/-! ### addFld changes regs only -/

@[simp] theorem Dev.addFld_mem (x : Fld) (n : Nat) : (d.addFld x n).mem = d.mem := by cases d; rfl
@[simp] theorem Dev.addFld_chk (x : Fld) (n : Nat) : (d.addFld x n).chk = d.chk := by cases d; rfl
@[simp] theorem Dev.addFld_bad (x : Fld) (n : Nat) : (d.addFld x n).bad = d.bad := by cases d; rfl
@[simp] theorem Dev.addFld_loom (x : Fld) (n : Nat) : (d.addFld x n).loom = d.loom := by cases d; rfl
@[simp] theorem Dev.addFld_trd (x : Fld) (n : Nat) : (d.addFld x n).trd = d.trd := by cases d; rfl
@[simp] theorem Dev.addFld_tb (x : Fld) (n : Nat) : (d.addFld x n).tb = d.tb := by cases d; rfl
@[simp] theorem Dev.addFld_log (x : Fld) (n : Nat) : (d.addFld x n).log = d.log := by cases d; rfl
@[simp] theorem Dev.addFld_warp (x : Fld) (n : Nat) : (d.addFld x n).warp = d.warp := by cases d; rfl
@[simp] theorem Dev.addFld_cap (x : Fld) (n : Nat) : (d.addFld x n).cap = d.cap := by cases d; rfl
@[simp] theorem Dev.addFld_weft (x : Fld) (n : Nat) : (d.addFld x n).weft = d.weft := by cases d; rfl
@[simp] theorem Dev.addFld_rel (x : Fld) (n : Nat) : (d.addFld x n).rel = d.rel := by cases d; rfl
@[simp] theorem Dev.addFld_plat (x : Fld) (n : Nat) : (d.addFld x n).plat = d.plat := by cases d; rfl
@[simp] theorem Dev.addFld_hubd (x : Fld) (n : Nat) : (d.addFld x n).hubd = d.hubd := by cases d; rfl
@[simp] theorem Dev.addFld_charter (x : Fld) (n : Nat) : (d.addFld x n).charter = d.charter := by cases d; rfl
@[simp] theorem Dev.addFld_ldr (x : Fld) (n : Nat) : (d.addFld x n).ldr = d.ldr := by cases d; rfl
@[simp] theorem Dev.addFld_eth (x : Fld) (n : Nat) : (d.addFld x n).eth = d.eth := by cases d; rfl
@[simp] theorem Dev.addFld_flash (x : Fld) (n : Nat) : (d.addFld x n).flash = d.flash := by cases d; rfl
@[simp] theorem Dev.addFld_tick (x : Fld) (n : Nat) : (d.addFld x n).tick = d.tick := by cases d; rfl
@[simp] theorem Dev.addFld_tickNs (x : Fld) (n : Nat) : (d.addFld x n).tickNs = d.tickNs := by cases d; rfl
@[simp] theorem Dev.addFld_alerts (x : Fld) (n : Nat) : (d.addFld x n).alerts = d.alerts := by cases d; rfl
@[simp] theorem Dev.addFld_freeCtr (x : Fld) (n : Nat) : (d.addFld x n).freeCtr = d.freeCtr := by cases d; rfl

/-! ### setTs changes regs only -/

@[simp] theorem Dev.setTs_mem (s : Nat) : (d.setTs s).mem = d.mem := by cases d; rfl
@[simp] theorem Dev.setTs_chk (s : Nat) : (d.setTs s).chk = d.chk := by cases d; rfl
@[simp] theorem Dev.setTs_bad (s : Nat) : (d.setTs s).bad = d.bad := by cases d; rfl
@[simp] theorem Dev.setTs_loom (s : Nat) : (d.setTs s).loom = d.loom := by cases d; rfl
@[simp] theorem Dev.setTs_trd (s : Nat) : (d.setTs s).trd = d.trd := by cases d; rfl
@[simp] theorem Dev.setTs_tb (s : Nat) : (d.setTs s).tb = d.tb := by cases d; rfl
@[simp] theorem Dev.setTs_log (s : Nat) : (d.setTs s).log = d.log := by cases d; rfl
@[simp] theorem Dev.setTs_warp (s : Nat) : (d.setTs s).warp = d.warp := by cases d; rfl
@[simp] theorem Dev.setTs_cap (s : Nat) : (d.setTs s).cap = d.cap := by cases d; rfl
@[simp] theorem Dev.setTs_weft (s : Nat) : (d.setTs s).weft = d.weft := by cases d; rfl
@[simp] theorem Dev.setTs_rel (s : Nat) : (d.setTs s).rel = d.rel := by cases d; rfl
@[simp] theorem Dev.setTs_plat (s : Nat) : (d.setTs s).plat = d.plat := by cases d; rfl
@[simp] theorem Dev.setTs_hubd (s : Nat) : (d.setTs s).hubd = d.hubd := by cases d; rfl
@[simp] theorem Dev.setTs_charter (s : Nat) : (d.setTs s).charter = d.charter := by cases d; rfl
@[simp] theorem Dev.setTs_ldr (s : Nat) : (d.setTs s).ldr = d.ldr := by cases d; rfl
@[simp] theorem Dev.setTs_eth (s : Nat) : (d.setTs s).eth = d.eth := by cases d; rfl
@[simp] theorem Dev.setTs_flash (s : Nat) : (d.setTs s).flash = d.flash := by cases d; rfl
@[simp] theorem Dev.setTs_tick (s : Nat) : (d.setTs s).tick = d.tick := by cases d; rfl
@[simp] theorem Dev.setTs_tickNs (s : Nat) : (d.setTs s).tickNs = d.tickNs := by cases d; rfl
@[simp] theorem Dev.setTs_alerts (s : Nat) : (d.setTs s).alerts = d.alerts := by cases d; rfl
@[simp] theorem Dev.setTs_freeCtr (s : Nat) : (d.setTs s).freeCtr = d.freeCtr := by cases d; rfl

/-! ### cmdStatus changes regs only -/

@[simp] theorem Dev.cmdStatus_mem (c st r : Nat) : (d.cmdStatus c st r).mem = d.mem := by cases d; rfl
@[simp] theorem Dev.cmdStatus_chk (c st r : Nat) : (d.cmdStatus c st r).chk = d.chk := by cases d; rfl
@[simp] theorem Dev.cmdStatus_bad (c st r : Nat) : (d.cmdStatus c st r).bad = d.bad := by cases d; rfl
@[simp] theorem Dev.cmdStatus_loom (c st r : Nat) : (d.cmdStatus c st r).loom = d.loom := by cases d; rfl
@[simp] theorem Dev.cmdStatus_trd (c st r : Nat) : (d.cmdStatus c st r).trd = d.trd := by cases d; rfl
@[simp] theorem Dev.cmdStatus_tb (c st r : Nat) : (d.cmdStatus c st r).tb = d.tb := by cases d; rfl
@[simp] theorem Dev.cmdStatus_log (c st r : Nat) : (d.cmdStatus c st r).log = d.log := by cases d; rfl
@[simp] theorem Dev.cmdStatus_warp (c st r : Nat) : (d.cmdStatus c st r).warp = d.warp := by cases d; rfl
@[simp] theorem Dev.cmdStatus_cap (c st r : Nat) : (d.cmdStatus c st r).cap = d.cap := by cases d; rfl
@[simp] theorem Dev.cmdStatus_weft (c st r : Nat) : (d.cmdStatus c st r).weft = d.weft := by cases d; rfl
@[simp] theorem Dev.cmdStatus_rel (c st r : Nat) : (d.cmdStatus c st r).rel = d.rel := by cases d; rfl
@[simp] theorem Dev.cmdStatus_plat (c st r : Nat) : (d.cmdStatus c st r).plat = d.plat := by cases d; rfl
@[simp] theorem Dev.cmdStatus_hubd (c st r : Nat) : (d.cmdStatus c st r).hubd = d.hubd := by cases d; rfl
@[simp] theorem Dev.cmdStatus_charter (c st r : Nat) : (d.cmdStatus c st r).charter = d.charter := by cases d; rfl
@[simp] theorem Dev.cmdStatus_ldr (c st r : Nat) : (d.cmdStatus c st r).ldr = d.ldr := by cases d; rfl
@[simp] theorem Dev.cmdStatus_eth (c st r : Nat) : (d.cmdStatus c st r).eth = d.eth := by cases d; rfl
@[simp] theorem Dev.cmdStatus_flash (c st r : Nat) : (d.cmdStatus c st r).flash = d.flash := by cases d; rfl
@[simp] theorem Dev.cmdStatus_tick (c st r : Nat) : (d.cmdStatus c st r).tick = d.tick := by cases d; rfl
@[simp] theorem Dev.cmdStatus_tickNs (c st r : Nat) : (d.cmdStatus c st r).tickNs = d.tickNs := by cases d; rfl
@[simp] theorem Dev.cmdStatus_alerts (c st r : Nat) : (d.cmdStatus c st r).alerts = d.alerts := by cases d; rfl
@[simp] theorem Dev.cmdStatus_freeCtr (c st r : Nat) : (d.cmdStatus c st r).freeCtr = d.freeCtr := by cases d; rfl

/-! ### setByte changes mem only -/

@[simp] theorem Dev.setByte_regs (a : Nat) (b : Byte) : (d.setByte a b).regs = d.regs := by cases d; rfl
@[simp] theorem Dev.setByte_chk (a : Nat) (b : Byte) : (d.setByte a b).chk = d.chk := by cases d; rfl
@[simp] theorem Dev.setByte_bad (a : Nat) (b : Byte) : (d.setByte a b).bad = d.bad := by cases d; rfl
@[simp] theorem Dev.setByte_loom (a : Nat) (b : Byte) : (d.setByte a b).loom = d.loom := by cases d; rfl
@[simp] theorem Dev.setByte_trd (a : Nat) (b : Byte) : (d.setByte a b).trd = d.trd := by cases d; rfl
@[simp] theorem Dev.setByte_tb (a : Nat) (b : Byte) : (d.setByte a b).tb = d.tb := by cases d; rfl
@[simp] theorem Dev.setByte_log (a : Nat) (b : Byte) : (d.setByte a b).log = d.log := by cases d; rfl
@[simp] theorem Dev.setByte_warp (a : Nat) (b : Byte) : (d.setByte a b).warp = d.warp := by cases d; rfl
@[simp] theorem Dev.setByte_cap (a : Nat) (b : Byte) : (d.setByte a b).cap = d.cap := by cases d; rfl
@[simp] theorem Dev.setByte_weft (a : Nat) (b : Byte) : (d.setByte a b).weft = d.weft := by cases d; rfl
@[simp] theorem Dev.setByte_rel (a : Nat) (b : Byte) : (d.setByte a b).rel = d.rel := by cases d; rfl
@[simp] theorem Dev.setByte_plat (a : Nat) (b : Byte) : (d.setByte a b).plat = d.plat := by cases d; rfl
@[simp] theorem Dev.setByte_hubd (a : Nat) (b : Byte) : (d.setByte a b).hubd = d.hubd := by cases d; rfl
@[simp] theorem Dev.setByte_charter (a : Nat) (b : Byte) : (d.setByte a b).charter = d.charter := by cases d; rfl
@[simp] theorem Dev.setByte_ldr (a : Nat) (b : Byte) : (d.setByte a b).ldr = d.ldr := by cases d; rfl
@[simp] theorem Dev.setByte_eth (a : Nat) (b : Byte) : (d.setByte a b).eth = d.eth := by cases d; rfl
@[simp] theorem Dev.setByte_flash (a : Nat) (b : Byte) : (d.setByte a b).flash = d.flash := by cases d; rfl
@[simp] theorem Dev.setByte_tick (a : Nat) (b : Byte) : (d.setByte a b).tick = d.tick := by cases d; rfl
@[simp] theorem Dev.setByte_tickNs (a : Nat) (b : Byte) : (d.setByte a b).tickNs = d.tickNs := by cases d; rfl
@[simp] theorem Dev.setByte_alerts (a : Nat) (b : Byte) : (d.setByte a b).alerts = d.alerts := by cases d; rfl
@[simp] theorem Dev.setByte_freeCtr (a : Nat) (b : Byte) : (d.setByte a b).freeCtr = d.freeCtr := by cases d; rfl
@[simp] theorem Dev.setByte_reg (a : Nat) (b : Byte) (j : Nat) : (d.setByte a b).reg j = d.reg j := by cases d; rfl
@[simp] theorem Dev.setByte_fld (a : Nat) (b : Byte) (y : Fld) : (d.setByte a b).fld y = d.fld y := by cases d; rfl
@[simp] theorem Dev.setByte_ts (a : Nat) (b : Byte) : (d.setByte a b).ts = d.ts := by simp only [Dev.ts, Dev.setByte_fld]

/-! ### clearMem changes mem only -/

@[simp] theorem Dev.clearMem_regs (a b : Nat) : (d.clearMem a b).regs = d.regs := by cases d; rfl
@[simp] theorem Dev.clearMem_chk (a b : Nat) : (d.clearMem a b).chk = d.chk := by cases d; rfl
@[simp] theorem Dev.clearMem_bad (a b : Nat) : (d.clearMem a b).bad = d.bad := by cases d; rfl
@[simp] theorem Dev.clearMem_loom (a b : Nat) : (d.clearMem a b).loom = d.loom := by cases d; rfl
@[simp] theorem Dev.clearMem_trd (a b : Nat) : (d.clearMem a b).trd = d.trd := by cases d; rfl
@[simp] theorem Dev.clearMem_tb (a b : Nat) : (d.clearMem a b).tb = d.tb := by cases d; rfl
@[simp] theorem Dev.clearMem_log (a b : Nat) : (d.clearMem a b).log = d.log := by cases d; rfl
@[simp] theorem Dev.clearMem_warp (a b : Nat) : (d.clearMem a b).warp = d.warp := by cases d; rfl
@[simp] theorem Dev.clearMem_cap (a b : Nat) : (d.clearMem a b).cap = d.cap := by cases d; rfl
@[simp] theorem Dev.clearMem_weft (a b : Nat) : (d.clearMem a b).weft = d.weft := by cases d; rfl
@[simp] theorem Dev.clearMem_rel (a b : Nat) : (d.clearMem a b).rel = d.rel := by cases d; rfl
@[simp] theorem Dev.clearMem_plat (a b : Nat) : (d.clearMem a b).plat = d.plat := by cases d; rfl
@[simp] theorem Dev.clearMem_hubd (a b : Nat) : (d.clearMem a b).hubd = d.hubd := by cases d; rfl
@[simp] theorem Dev.clearMem_charter (a b : Nat) : (d.clearMem a b).charter = d.charter := by cases d; rfl
@[simp] theorem Dev.clearMem_ldr (a b : Nat) : (d.clearMem a b).ldr = d.ldr := by cases d; rfl
@[simp] theorem Dev.clearMem_eth (a b : Nat) : (d.clearMem a b).eth = d.eth := by cases d; rfl
@[simp] theorem Dev.clearMem_flash (a b : Nat) : (d.clearMem a b).flash = d.flash := by cases d; rfl
@[simp] theorem Dev.clearMem_tick (a b : Nat) : (d.clearMem a b).tick = d.tick := by cases d; rfl
@[simp] theorem Dev.clearMem_tickNs (a b : Nat) : (d.clearMem a b).tickNs = d.tickNs := by cases d; rfl
@[simp] theorem Dev.clearMem_alerts (a b : Nat) : (d.clearMem a b).alerts = d.alerts := by cases d; rfl
@[simp] theorem Dev.clearMem_freeCtr (a b : Nat) : (d.clearMem a b).freeCtr = d.freeCtr := by cases d; rfl
@[simp] theorem Dev.clearMem_reg (a b : Nat) (j : Nat) : (d.clearMem a b).reg j = d.reg j := by cases d; rfl
@[simp] theorem Dev.clearMem_fld (a b : Nat) (y : Fld) : (d.clearMem a b).fld y = d.fld y := by cases d; rfl
@[simp] theorem Dev.clearMem_ts (a b : Nat) : (d.clearMem a b).ts = d.ts := by simp only [Dev.ts, Dev.clearMem_fld]

/-! ### alert changes alerts only -/

@[simp] theorem Dev.alert_regs (c : Nat) : (d.alert c).regs = d.regs := by cases d; rfl
@[simp] theorem Dev.alert_mem (c : Nat) : (d.alert c).mem = d.mem := by cases d; rfl
@[simp] theorem Dev.alert_chk (c : Nat) : (d.alert c).chk = d.chk := by cases d; rfl
@[simp] theorem Dev.alert_bad (c : Nat) : (d.alert c).bad = d.bad := by cases d; rfl
@[simp] theorem Dev.alert_loom (c : Nat) : (d.alert c).loom = d.loom := by cases d; rfl
@[simp] theorem Dev.alert_trd (c : Nat) : (d.alert c).trd = d.trd := by cases d; rfl
@[simp] theorem Dev.alert_tb (c : Nat) : (d.alert c).tb = d.tb := by cases d; rfl
@[simp] theorem Dev.alert_log (c : Nat) : (d.alert c).log = d.log := by cases d; rfl
@[simp] theorem Dev.alert_warp (c : Nat) : (d.alert c).warp = d.warp := by cases d; rfl
@[simp] theorem Dev.alert_cap (c : Nat) : (d.alert c).cap = d.cap := by cases d; rfl
@[simp] theorem Dev.alert_weft (c : Nat) : (d.alert c).weft = d.weft := by cases d; rfl
@[simp] theorem Dev.alert_rel (c : Nat) : (d.alert c).rel = d.rel := by cases d; rfl
@[simp] theorem Dev.alert_plat (c : Nat) : (d.alert c).plat = d.plat := by cases d; rfl
@[simp] theorem Dev.alert_hubd (c : Nat) : (d.alert c).hubd = d.hubd := by cases d; rfl
@[simp] theorem Dev.alert_charter (c : Nat) : (d.alert c).charter = d.charter := by cases d; rfl
@[simp] theorem Dev.alert_ldr (c : Nat) : (d.alert c).ldr = d.ldr := by cases d; rfl
@[simp] theorem Dev.alert_eth (c : Nat) : (d.alert c).eth = d.eth := by cases d; rfl
@[simp] theorem Dev.alert_flash (c : Nat) : (d.alert c).flash = d.flash := by cases d; rfl
@[simp] theorem Dev.alert_tick (c : Nat) : (d.alert c).tick = d.tick := by cases d; rfl
@[simp] theorem Dev.alert_tickNs (c : Nat) : (d.alert c).tickNs = d.tickNs := by cases d; rfl
@[simp] theorem Dev.alert_freeCtr (c : Nat) : (d.alert c).freeCtr = d.freeCtr := by cases d; rfl
@[simp] theorem Dev.alert_reg (c : Nat) (j : Nat) : (d.alert c).reg j = d.reg j := by cases d; rfl
@[simp] theorem Dev.alert_fld (c : Nat) (y : Fld) : (d.alert c).fld y = d.fld y := by cases d; rfl
@[simp] theorem Dev.alert_ts (c : Nat) : (d.alert c).ts = d.ts := by simp only [Dev.ts, Dev.alert_fld]

/-! ### unalert changes alerts only -/

@[simp] theorem Dev.unalert_regs (c : Nat) : (d.unalert c).regs = d.regs := by cases d; rfl
@[simp] theorem Dev.unalert_mem (c : Nat) : (d.unalert c).mem = d.mem := by cases d; rfl
@[simp] theorem Dev.unalert_chk (c : Nat) : (d.unalert c).chk = d.chk := by cases d; rfl
@[simp] theorem Dev.unalert_bad (c : Nat) : (d.unalert c).bad = d.bad := by cases d; rfl
@[simp] theorem Dev.unalert_loom (c : Nat) : (d.unalert c).loom = d.loom := by cases d; rfl
@[simp] theorem Dev.unalert_trd (c : Nat) : (d.unalert c).trd = d.trd := by cases d; rfl
@[simp] theorem Dev.unalert_tb (c : Nat) : (d.unalert c).tb = d.tb := by cases d; rfl
@[simp] theorem Dev.unalert_log (c : Nat) : (d.unalert c).log = d.log := by cases d; rfl
@[simp] theorem Dev.unalert_warp (c : Nat) : (d.unalert c).warp = d.warp := by cases d; rfl
@[simp] theorem Dev.unalert_cap (c : Nat) : (d.unalert c).cap = d.cap := by cases d; rfl
@[simp] theorem Dev.unalert_weft (c : Nat) : (d.unalert c).weft = d.weft := by cases d; rfl
@[simp] theorem Dev.unalert_rel (c : Nat) : (d.unalert c).rel = d.rel := by cases d; rfl
@[simp] theorem Dev.unalert_plat (c : Nat) : (d.unalert c).plat = d.plat := by cases d; rfl
@[simp] theorem Dev.unalert_hubd (c : Nat) : (d.unalert c).hubd = d.hubd := by cases d; rfl
@[simp] theorem Dev.unalert_charter (c : Nat) : (d.unalert c).charter = d.charter := by cases d; rfl
@[simp] theorem Dev.unalert_ldr (c : Nat) : (d.unalert c).ldr = d.ldr := by cases d; rfl
@[simp] theorem Dev.unalert_eth (c : Nat) : (d.unalert c).eth = d.eth := by cases d; rfl
@[simp] theorem Dev.unalert_flash (c : Nat) : (d.unalert c).flash = d.flash := by cases d; rfl
@[simp] theorem Dev.unalert_tick (c : Nat) : (d.unalert c).tick = d.tick := by cases d; rfl
@[simp] theorem Dev.unalert_tickNs (c : Nat) : (d.unalert c).tickNs = d.tickNs := by cases d; rfl
@[simp] theorem Dev.unalert_freeCtr (c : Nat) : (d.unalert c).freeCtr = d.freeCtr := by cases d; rfl
@[simp] theorem Dev.unalert_reg (c : Nat) (j : Nat) : (d.unalert c).reg j = d.reg j := by cases d; rfl
@[simp] theorem Dev.unalert_fld (c : Nat) (y : Fld) : (d.unalert c).fld y = d.fld y := by cases d; rfl
@[simp] theorem Dev.unalert_ts (c : Nat) : (d.unalert c).ts = d.ts := by simp only [Dev.ts, Dev.unalert_fld]

/-! ### onLoom changes loom only -/

@[simp] theorem Dev.onLoom_regs (f : Loom → Loom) : (d.onLoom f).regs = d.regs := by cases d; rfl
@[simp] theorem Dev.onLoom_mem (f : Loom → Loom) : (d.onLoom f).mem = d.mem := by cases d; rfl
@[simp] theorem Dev.onLoom_chk (f : Loom → Loom) : (d.onLoom f).chk = d.chk := by cases d; rfl
@[simp] theorem Dev.onLoom_bad (f : Loom → Loom) : (d.onLoom f).bad = d.bad := by cases d; rfl
@[simp] theorem Dev.onLoom_trd (f : Loom → Loom) : (d.onLoom f).trd = d.trd := by cases d; rfl
@[simp] theorem Dev.onLoom_tb (f : Loom → Loom) : (d.onLoom f).tb = d.tb := by cases d; rfl
@[simp] theorem Dev.onLoom_log (f : Loom → Loom) : (d.onLoom f).log = d.log := by cases d; rfl
@[simp] theorem Dev.onLoom_warp (f : Loom → Loom) : (d.onLoom f).warp = d.warp := by cases d; rfl
@[simp] theorem Dev.onLoom_cap (f : Loom → Loom) : (d.onLoom f).cap = d.cap := by cases d; rfl
@[simp] theorem Dev.onLoom_weft (f : Loom → Loom) : (d.onLoom f).weft = d.weft := by cases d; rfl
@[simp] theorem Dev.onLoom_rel (f : Loom → Loom) : (d.onLoom f).rel = d.rel := by cases d; rfl
@[simp] theorem Dev.onLoom_plat (f : Loom → Loom) : (d.onLoom f).plat = d.plat := by cases d; rfl
@[simp] theorem Dev.onLoom_hubd (f : Loom → Loom) : (d.onLoom f).hubd = d.hubd := by cases d; rfl
@[simp] theorem Dev.onLoom_charter (f : Loom → Loom) : (d.onLoom f).charter = d.charter := by cases d; rfl
@[simp] theorem Dev.onLoom_ldr (f : Loom → Loom) : (d.onLoom f).ldr = d.ldr := by cases d; rfl
@[simp] theorem Dev.onLoom_eth (f : Loom → Loom) : (d.onLoom f).eth = d.eth := by cases d; rfl
@[simp] theorem Dev.onLoom_flash (f : Loom → Loom) : (d.onLoom f).flash = d.flash := by cases d; rfl
@[simp] theorem Dev.onLoom_tick (f : Loom → Loom) : (d.onLoom f).tick = d.tick := by cases d; rfl
@[simp] theorem Dev.onLoom_tickNs (f : Loom → Loom) : (d.onLoom f).tickNs = d.tickNs := by cases d; rfl
@[simp] theorem Dev.onLoom_alerts (f : Loom → Loom) : (d.onLoom f).alerts = d.alerts := by cases d; rfl
@[simp] theorem Dev.onLoom_freeCtr (f : Loom → Loom) : (d.onLoom f).freeCtr = d.freeCtr := by cases d; rfl
@[simp] theorem Dev.onLoom_reg (f : Loom → Loom) (j : Nat) : (d.onLoom f).reg j = d.reg j := by cases d; rfl
@[simp] theorem Dev.onLoom_fld (f : Loom → Loom) (y : Fld) : (d.onLoom f).fld y = d.fld y := by cases d; rfl
@[simp] theorem Dev.onLoom_ts (f : Loom → Loom) : (d.onLoom f).ts = d.ts := by simp only [Dev.ts, Dev.onLoom_fld]
@[simp] theorem Dev.onLoom_byte (f : Loom → Loom) (j : Nat) : (d.onLoom f).byte j = d.byte j := by cases d; rfl
@[simp] theorem Dev.onLoom_self (f : Loom → Loom) : (d.onLoom f).loom = f d.loom := by cases d; rfl

/-! ### onTrd changes trd only -/

@[simp] theorem Dev.onTrd_regs (f : Treadle → Treadle) : (d.onTrd f).regs = d.regs := by cases d; rfl
@[simp] theorem Dev.onTrd_mem (f : Treadle → Treadle) : (d.onTrd f).mem = d.mem := by cases d; rfl
@[simp] theorem Dev.onTrd_chk (f : Treadle → Treadle) : (d.onTrd f).chk = d.chk := by cases d; rfl
@[simp] theorem Dev.onTrd_bad (f : Treadle → Treadle) : (d.onTrd f).bad = d.bad := by cases d; rfl
@[simp] theorem Dev.onTrd_loom (f : Treadle → Treadle) : (d.onTrd f).loom = d.loom := by cases d; rfl
@[simp] theorem Dev.onTrd_tb (f : Treadle → Treadle) : (d.onTrd f).tb = d.tb := by cases d; rfl
@[simp] theorem Dev.onTrd_log (f : Treadle → Treadle) : (d.onTrd f).log = d.log := by cases d; rfl
@[simp] theorem Dev.onTrd_warp (f : Treadle → Treadle) : (d.onTrd f).warp = d.warp := by cases d; rfl
@[simp] theorem Dev.onTrd_cap (f : Treadle → Treadle) : (d.onTrd f).cap = d.cap := by cases d; rfl
@[simp] theorem Dev.onTrd_weft (f : Treadle → Treadle) : (d.onTrd f).weft = d.weft := by cases d; rfl
@[simp] theorem Dev.onTrd_rel (f : Treadle → Treadle) : (d.onTrd f).rel = d.rel := by cases d; rfl
@[simp] theorem Dev.onTrd_plat (f : Treadle → Treadle) : (d.onTrd f).plat = d.plat := by cases d; rfl
@[simp] theorem Dev.onTrd_hubd (f : Treadle → Treadle) : (d.onTrd f).hubd = d.hubd := by cases d; rfl
@[simp] theorem Dev.onTrd_charter (f : Treadle → Treadle) : (d.onTrd f).charter = d.charter := by cases d; rfl
@[simp] theorem Dev.onTrd_ldr (f : Treadle → Treadle) : (d.onTrd f).ldr = d.ldr := by cases d; rfl
@[simp] theorem Dev.onTrd_eth (f : Treadle → Treadle) : (d.onTrd f).eth = d.eth := by cases d; rfl
@[simp] theorem Dev.onTrd_flash (f : Treadle → Treadle) : (d.onTrd f).flash = d.flash := by cases d; rfl
@[simp] theorem Dev.onTrd_tick (f : Treadle → Treadle) : (d.onTrd f).tick = d.tick := by cases d; rfl
@[simp] theorem Dev.onTrd_tickNs (f : Treadle → Treadle) : (d.onTrd f).tickNs = d.tickNs := by cases d; rfl
@[simp] theorem Dev.onTrd_alerts (f : Treadle → Treadle) : (d.onTrd f).alerts = d.alerts := by cases d; rfl
@[simp] theorem Dev.onTrd_freeCtr (f : Treadle → Treadle) : (d.onTrd f).freeCtr = d.freeCtr := by cases d; rfl
@[simp] theorem Dev.onTrd_reg (f : Treadle → Treadle) (j : Nat) : (d.onTrd f).reg j = d.reg j := by cases d; rfl
@[simp] theorem Dev.onTrd_fld (f : Treadle → Treadle) (y : Fld) : (d.onTrd f).fld y = d.fld y := by cases d; rfl
@[simp] theorem Dev.onTrd_ts (f : Treadle → Treadle) : (d.onTrd f).ts = d.ts := by simp only [Dev.ts, Dev.onTrd_fld]
@[simp] theorem Dev.onTrd_byte (f : Treadle → Treadle) (j : Nat) : (d.onTrd f).byte j = d.byte j := by cases d; rfl
@[simp] theorem Dev.onTrd_self (f : Treadle → Treadle) : (d.onTrd f).trd = f d.trd := by cases d; rfl

/-! ### onTb changes tb only -/

@[simp] theorem Dev.onTb_regs (f : TimeBase → TimeBase) : (d.onTb f).regs = d.regs := by cases d; rfl
@[simp] theorem Dev.onTb_mem (f : TimeBase → TimeBase) : (d.onTb f).mem = d.mem := by cases d; rfl
@[simp] theorem Dev.onTb_chk (f : TimeBase → TimeBase) : (d.onTb f).chk = d.chk := by cases d; rfl
@[simp] theorem Dev.onTb_bad (f : TimeBase → TimeBase) : (d.onTb f).bad = d.bad := by cases d; rfl
@[simp] theorem Dev.onTb_loom (f : TimeBase → TimeBase) : (d.onTb f).loom = d.loom := by cases d; rfl
@[simp] theorem Dev.onTb_trd (f : TimeBase → TimeBase) : (d.onTb f).trd = d.trd := by cases d; rfl
@[simp] theorem Dev.onTb_log (f : TimeBase → TimeBase) : (d.onTb f).log = d.log := by cases d; rfl
@[simp] theorem Dev.onTb_warp (f : TimeBase → TimeBase) : (d.onTb f).warp = d.warp := by cases d; rfl
@[simp] theorem Dev.onTb_cap (f : TimeBase → TimeBase) : (d.onTb f).cap = d.cap := by cases d; rfl
@[simp] theorem Dev.onTb_weft (f : TimeBase → TimeBase) : (d.onTb f).weft = d.weft := by cases d; rfl
@[simp] theorem Dev.onTb_rel (f : TimeBase → TimeBase) : (d.onTb f).rel = d.rel := by cases d; rfl
@[simp] theorem Dev.onTb_plat (f : TimeBase → TimeBase) : (d.onTb f).plat = d.plat := by cases d; rfl
@[simp] theorem Dev.onTb_hubd (f : TimeBase → TimeBase) : (d.onTb f).hubd = d.hubd := by cases d; rfl
@[simp] theorem Dev.onTb_charter (f : TimeBase → TimeBase) : (d.onTb f).charter = d.charter := by cases d; rfl
@[simp] theorem Dev.onTb_ldr (f : TimeBase → TimeBase) : (d.onTb f).ldr = d.ldr := by cases d; rfl
@[simp] theorem Dev.onTb_eth (f : TimeBase → TimeBase) : (d.onTb f).eth = d.eth := by cases d; rfl
@[simp] theorem Dev.onTb_flash (f : TimeBase → TimeBase) : (d.onTb f).flash = d.flash := by cases d; rfl
@[simp] theorem Dev.onTb_tick (f : TimeBase → TimeBase) : (d.onTb f).tick = d.tick := by cases d; rfl
@[simp] theorem Dev.onTb_tickNs (f : TimeBase → TimeBase) : (d.onTb f).tickNs = d.tickNs := by cases d; rfl
@[simp] theorem Dev.onTb_alerts (f : TimeBase → TimeBase) : (d.onTb f).alerts = d.alerts := by cases d; rfl
@[simp] theorem Dev.onTb_freeCtr (f : TimeBase → TimeBase) : (d.onTb f).freeCtr = d.freeCtr := by cases d; rfl
@[simp] theorem Dev.onTb_reg (f : TimeBase → TimeBase) (j : Nat) : (d.onTb f).reg j = d.reg j := by cases d; rfl
@[simp] theorem Dev.onTb_fld (f : TimeBase → TimeBase) (y : Fld) : (d.onTb f).fld y = d.fld y := by cases d; rfl
@[simp] theorem Dev.onTb_ts (f : TimeBase → TimeBase) : (d.onTb f).ts = d.ts := by simp only [Dev.ts, Dev.onTb_fld]
@[simp] theorem Dev.onTb_byte (f : TimeBase → TimeBase) (j : Nat) : (d.onTb f).byte j = d.byte j := by cases d; rfl
@[simp] theorem Dev.onTb_self (f : TimeBase → TimeBase) : (d.onTb f).tb = f d.tb := by cases d; rfl

/-! ### onLdr changes ldr only -/

@[simp] theorem Dev.onLdr_regs (f : Loader → Loader) : (d.onLdr f).regs = d.regs := by cases d; rfl
@[simp] theorem Dev.onLdr_mem (f : Loader → Loader) : (d.onLdr f).mem = d.mem := by cases d; rfl
@[simp] theorem Dev.onLdr_chk (f : Loader → Loader) : (d.onLdr f).chk = d.chk := by cases d; rfl
@[simp] theorem Dev.onLdr_bad (f : Loader → Loader) : (d.onLdr f).bad = d.bad := by cases d; rfl
@[simp] theorem Dev.onLdr_loom (f : Loader → Loader) : (d.onLdr f).loom = d.loom := by cases d; rfl
@[simp] theorem Dev.onLdr_trd (f : Loader → Loader) : (d.onLdr f).trd = d.trd := by cases d; rfl
@[simp] theorem Dev.onLdr_tb (f : Loader → Loader) : (d.onLdr f).tb = d.tb := by cases d; rfl
@[simp] theorem Dev.onLdr_log (f : Loader → Loader) : (d.onLdr f).log = d.log := by cases d; rfl
@[simp] theorem Dev.onLdr_warp (f : Loader → Loader) : (d.onLdr f).warp = d.warp := by cases d; rfl
@[simp] theorem Dev.onLdr_cap (f : Loader → Loader) : (d.onLdr f).cap = d.cap := by cases d; rfl
@[simp] theorem Dev.onLdr_weft (f : Loader → Loader) : (d.onLdr f).weft = d.weft := by cases d; rfl
@[simp] theorem Dev.onLdr_rel (f : Loader → Loader) : (d.onLdr f).rel = d.rel := by cases d; rfl
@[simp] theorem Dev.onLdr_plat (f : Loader → Loader) : (d.onLdr f).plat = d.plat := by cases d; rfl
@[simp] theorem Dev.onLdr_hubd (f : Loader → Loader) : (d.onLdr f).hubd = d.hubd := by cases d; rfl
@[simp] theorem Dev.onLdr_charter (f : Loader → Loader) : (d.onLdr f).charter = d.charter := by cases d; rfl
@[simp] theorem Dev.onLdr_eth (f : Loader → Loader) : (d.onLdr f).eth = d.eth := by cases d; rfl
@[simp] theorem Dev.onLdr_flash (f : Loader → Loader) : (d.onLdr f).flash = d.flash := by cases d; rfl
@[simp] theorem Dev.onLdr_tick (f : Loader → Loader) : (d.onLdr f).tick = d.tick := by cases d; rfl
@[simp] theorem Dev.onLdr_tickNs (f : Loader → Loader) : (d.onLdr f).tickNs = d.tickNs := by cases d; rfl
@[simp] theorem Dev.onLdr_alerts (f : Loader → Loader) : (d.onLdr f).alerts = d.alerts := by cases d; rfl
@[simp] theorem Dev.onLdr_freeCtr (f : Loader → Loader) : (d.onLdr f).freeCtr = d.freeCtr := by cases d; rfl
@[simp] theorem Dev.onLdr_reg (f : Loader → Loader) (j : Nat) : (d.onLdr f).reg j = d.reg j := by cases d; rfl
@[simp] theorem Dev.onLdr_fld (f : Loader → Loader) (y : Fld) : (d.onLdr f).fld y = d.fld y := by cases d; rfl
@[simp] theorem Dev.onLdr_ts (f : Loader → Loader) : (d.onLdr f).ts = d.ts := by simp only [Dev.ts, Dev.onLdr_fld]
@[simp] theorem Dev.onLdr_byte (f : Loader → Loader) (j : Nat) : (d.onLdr f).byte j = d.byte j := by cases d; rfl
@[simp] theorem Dev.onLdr_self (f : Loader → Loader) : (d.onLdr f).ldr = f d.ldr := by cases d; rfl

/-! ### onRel changes rel only -/

@[simp] theorem Dev.onRel_regs (f : Rel → Rel) : (d.onRel f).regs = d.regs := by cases d; rfl
@[simp] theorem Dev.onRel_mem (f : Rel → Rel) : (d.onRel f).mem = d.mem := by cases d; rfl
@[simp] theorem Dev.onRel_chk (f : Rel → Rel) : (d.onRel f).chk = d.chk := by cases d; rfl
@[simp] theorem Dev.onRel_bad (f : Rel → Rel) : (d.onRel f).bad = d.bad := by cases d; rfl
@[simp] theorem Dev.onRel_loom (f : Rel → Rel) : (d.onRel f).loom = d.loom := by cases d; rfl
@[simp] theorem Dev.onRel_trd (f : Rel → Rel) : (d.onRel f).trd = d.trd := by cases d; rfl
@[simp] theorem Dev.onRel_tb (f : Rel → Rel) : (d.onRel f).tb = d.tb := by cases d; rfl
@[simp] theorem Dev.onRel_log (f : Rel → Rel) : (d.onRel f).log = d.log := by cases d; rfl
@[simp] theorem Dev.onRel_warp (f : Rel → Rel) : (d.onRel f).warp = d.warp := by cases d; rfl
@[simp] theorem Dev.onRel_cap (f : Rel → Rel) : (d.onRel f).cap = d.cap := by cases d; rfl
@[simp] theorem Dev.onRel_weft (f : Rel → Rel) : (d.onRel f).weft = d.weft := by cases d; rfl
@[simp] theorem Dev.onRel_plat (f : Rel → Rel) : (d.onRel f).plat = d.plat := by cases d; rfl
@[simp] theorem Dev.onRel_hubd (f : Rel → Rel) : (d.onRel f).hubd = d.hubd := by cases d; rfl
@[simp] theorem Dev.onRel_charter (f : Rel → Rel) : (d.onRel f).charter = d.charter := by cases d; rfl
@[simp] theorem Dev.onRel_ldr (f : Rel → Rel) : (d.onRel f).ldr = d.ldr := by cases d; rfl
@[simp] theorem Dev.onRel_eth (f : Rel → Rel) : (d.onRel f).eth = d.eth := by cases d; rfl
@[simp] theorem Dev.onRel_flash (f : Rel → Rel) : (d.onRel f).flash = d.flash := by cases d; rfl
@[simp] theorem Dev.onRel_tick (f : Rel → Rel) : (d.onRel f).tick = d.tick := by cases d; rfl
@[simp] theorem Dev.onRel_tickNs (f : Rel → Rel) : (d.onRel f).tickNs = d.tickNs := by cases d; rfl
@[simp] theorem Dev.onRel_alerts (f : Rel → Rel) : (d.onRel f).alerts = d.alerts := by cases d; rfl
@[simp] theorem Dev.onRel_freeCtr (f : Rel → Rel) : (d.onRel f).freeCtr = d.freeCtr := by cases d; rfl
@[simp] theorem Dev.onRel_reg (f : Rel → Rel) (j : Nat) : (d.onRel f).reg j = d.reg j := by cases d; rfl
@[simp] theorem Dev.onRel_fld (f : Rel → Rel) (y : Fld) : (d.onRel f).fld y = d.fld y := by cases d; rfl
@[simp] theorem Dev.onRel_ts (f : Rel → Rel) : (d.onRel f).ts = d.ts := by simp only [Dev.ts, Dev.onRel_fld]
@[simp] theorem Dev.onRel_byte (f : Rel → Rel) (j : Nat) : (d.onRel f).byte j = d.byte j := by cases d; rfl
@[simp] theorem Dev.onRel_self (f : Rel → Rel) : (d.onRel f).rel = f d.rel := by cases d; rfl

/-! ### onPlat changes plat only -/

@[simp] theorem Dev.onPlat_regs (f : Plat → Plat) : (d.onPlat f).regs = d.regs := by cases d; rfl
@[simp] theorem Dev.onPlat_mem (f : Plat → Plat) : (d.onPlat f).mem = d.mem := by cases d; rfl
@[simp] theorem Dev.onPlat_chk (f : Plat → Plat) : (d.onPlat f).chk = d.chk := by cases d; rfl
@[simp] theorem Dev.onPlat_bad (f : Plat → Plat) : (d.onPlat f).bad = d.bad := by cases d; rfl
@[simp] theorem Dev.onPlat_loom (f : Plat → Plat) : (d.onPlat f).loom = d.loom := by cases d; rfl
@[simp] theorem Dev.onPlat_trd (f : Plat → Plat) : (d.onPlat f).trd = d.trd := by cases d; rfl
@[simp] theorem Dev.onPlat_tb (f : Plat → Plat) : (d.onPlat f).tb = d.tb := by cases d; rfl
@[simp] theorem Dev.onPlat_log (f : Plat → Plat) : (d.onPlat f).log = d.log := by cases d; rfl
@[simp] theorem Dev.onPlat_warp (f : Plat → Plat) : (d.onPlat f).warp = d.warp := by cases d; rfl
@[simp] theorem Dev.onPlat_cap (f : Plat → Plat) : (d.onPlat f).cap = d.cap := by cases d; rfl
@[simp] theorem Dev.onPlat_weft (f : Plat → Plat) : (d.onPlat f).weft = d.weft := by cases d; rfl
@[simp] theorem Dev.onPlat_rel (f : Plat → Plat) : (d.onPlat f).rel = d.rel := by cases d; rfl
@[simp] theorem Dev.onPlat_hubd (f : Plat → Plat) : (d.onPlat f).hubd = d.hubd := by cases d; rfl
@[simp] theorem Dev.onPlat_charter (f : Plat → Plat) : (d.onPlat f).charter = d.charter := by cases d; rfl
@[simp] theorem Dev.onPlat_ldr (f : Plat → Plat) : (d.onPlat f).ldr = d.ldr := by cases d; rfl
@[simp] theorem Dev.onPlat_eth (f : Plat → Plat) : (d.onPlat f).eth = d.eth := by cases d; rfl
@[simp] theorem Dev.onPlat_flash (f : Plat → Plat) : (d.onPlat f).flash = d.flash := by cases d; rfl
@[simp] theorem Dev.onPlat_tick (f : Plat → Plat) : (d.onPlat f).tick = d.tick := by cases d; rfl
@[simp] theorem Dev.onPlat_tickNs (f : Plat → Plat) : (d.onPlat f).tickNs = d.tickNs := by cases d; rfl
@[simp] theorem Dev.onPlat_alerts (f : Plat → Plat) : (d.onPlat f).alerts = d.alerts := by cases d; rfl
@[simp] theorem Dev.onPlat_freeCtr (f : Plat → Plat) : (d.onPlat f).freeCtr = d.freeCtr := by cases d; rfl
@[simp] theorem Dev.onPlat_reg (f : Plat → Plat) (j : Nat) : (d.onPlat f).reg j = d.reg j := by cases d; rfl
@[simp] theorem Dev.onPlat_fld (f : Plat → Plat) (y : Fld) : (d.onPlat f).fld y = d.fld y := by cases d; rfl
@[simp] theorem Dev.onPlat_ts (f : Plat → Plat) : (d.onPlat f).ts = d.ts := by simp only [Dev.ts, Dev.onPlat_fld]
@[simp] theorem Dev.onPlat_byte (f : Plat → Plat) (j : Nat) : (d.onPlat f).byte j = d.byte j := by cases d; rfl
@[simp] theorem Dev.onPlat_self (f : Plat → Plat) : (d.onPlat f).plat = f d.plat := by cases d; rfl

/-! ### onEth changes eth only -/

@[simp] theorem Dev.onEth_regs (f : Eth → Eth) : (d.onEth f).regs = d.regs := by cases d; rfl
@[simp] theorem Dev.onEth_mem (f : Eth → Eth) : (d.onEth f).mem = d.mem := by cases d; rfl
@[simp] theorem Dev.onEth_chk (f : Eth → Eth) : (d.onEth f).chk = d.chk := by cases d; rfl
@[simp] theorem Dev.onEth_bad (f : Eth → Eth) : (d.onEth f).bad = d.bad := by cases d; rfl
@[simp] theorem Dev.onEth_loom (f : Eth → Eth) : (d.onEth f).loom = d.loom := by cases d; rfl
@[simp] theorem Dev.onEth_trd (f : Eth → Eth) : (d.onEth f).trd = d.trd := by cases d; rfl
@[simp] theorem Dev.onEth_tb (f : Eth → Eth) : (d.onEth f).tb = d.tb := by cases d; rfl
@[simp] theorem Dev.onEth_log (f : Eth → Eth) : (d.onEth f).log = d.log := by cases d; rfl
@[simp] theorem Dev.onEth_warp (f : Eth → Eth) : (d.onEth f).warp = d.warp := by cases d; rfl
@[simp] theorem Dev.onEth_cap (f : Eth → Eth) : (d.onEth f).cap = d.cap := by cases d; rfl
@[simp] theorem Dev.onEth_weft (f : Eth → Eth) : (d.onEth f).weft = d.weft := by cases d; rfl
@[simp] theorem Dev.onEth_rel (f : Eth → Eth) : (d.onEth f).rel = d.rel := by cases d; rfl
@[simp] theorem Dev.onEth_plat (f : Eth → Eth) : (d.onEth f).plat = d.plat := by cases d; rfl
@[simp] theorem Dev.onEth_hubd (f : Eth → Eth) : (d.onEth f).hubd = d.hubd := by cases d; rfl
@[simp] theorem Dev.onEth_charter (f : Eth → Eth) : (d.onEth f).charter = d.charter := by cases d; rfl
@[simp] theorem Dev.onEth_ldr (f : Eth → Eth) : (d.onEth f).ldr = d.ldr := by cases d; rfl
@[simp] theorem Dev.onEth_flash (f : Eth → Eth) : (d.onEth f).flash = d.flash := by cases d; rfl
@[simp] theorem Dev.onEth_tick (f : Eth → Eth) : (d.onEth f).tick = d.tick := by cases d; rfl
@[simp] theorem Dev.onEth_tickNs (f : Eth → Eth) : (d.onEth f).tickNs = d.tickNs := by cases d; rfl
@[simp] theorem Dev.onEth_alerts (f : Eth → Eth) : (d.onEth f).alerts = d.alerts := by cases d; rfl
@[simp] theorem Dev.onEth_freeCtr (f : Eth → Eth) : (d.onEth f).freeCtr = d.freeCtr := by cases d; rfl
@[simp] theorem Dev.onEth_reg (f : Eth → Eth) (j : Nat) : (d.onEth f).reg j = d.reg j := by cases d; rfl
@[simp] theorem Dev.onEth_fld (f : Eth → Eth) (y : Fld) : (d.onEth f).fld y = d.fld y := by cases d; rfl
@[simp] theorem Dev.onEth_ts (f : Eth → Eth) : (d.onEth f).ts = d.ts := by simp only [Dev.ts, Dev.onEth_fld]
@[simp] theorem Dev.onEth_byte (f : Eth → Eth) (j : Nat) : (d.onEth f).byte j = d.byte j := by cases d; rfl
@[simp] theorem Dev.onEth_self (f : Eth → Eth) : (d.onEth f).eth = f d.eth := by cases d; rfl

/-! ### onHubd changes hubd only -/

@[simp] theorem Dev.onHubd_regs (f : HubDie → HubDie) : (d.onHubd f).regs = d.regs := by cases d; rfl
@[simp] theorem Dev.onHubd_mem (f : HubDie → HubDie) : (d.onHubd f).mem = d.mem := by cases d; rfl
@[simp] theorem Dev.onHubd_chk (f : HubDie → HubDie) : (d.onHubd f).chk = d.chk := by cases d; rfl
@[simp] theorem Dev.onHubd_bad (f : HubDie → HubDie) : (d.onHubd f).bad = d.bad := by cases d; rfl
@[simp] theorem Dev.onHubd_loom (f : HubDie → HubDie) : (d.onHubd f).loom = d.loom := by cases d; rfl
@[simp] theorem Dev.onHubd_trd (f : HubDie → HubDie) : (d.onHubd f).trd = d.trd := by cases d; rfl
@[simp] theorem Dev.onHubd_tb (f : HubDie → HubDie) : (d.onHubd f).tb = d.tb := by cases d; rfl
@[simp] theorem Dev.onHubd_log (f : HubDie → HubDie) : (d.onHubd f).log = d.log := by cases d; rfl
@[simp] theorem Dev.onHubd_warp (f : HubDie → HubDie) : (d.onHubd f).warp = d.warp := by cases d; rfl
@[simp] theorem Dev.onHubd_cap (f : HubDie → HubDie) : (d.onHubd f).cap = d.cap := by cases d; rfl
@[simp] theorem Dev.onHubd_weft (f : HubDie → HubDie) : (d.onHubd f).weft = d.weft := by cases d; rfl
@[simp] theorem Dev.onHubd_rel (f : HubDie → HubDie) : (d.onHubd f).rel = d.rel := by cases d; rfl
@[simp] theorem Dev.onHubd_plat (f : HubDie → HubDie) : (d.onHubd f).plat = d.plat := by cases d; rfl
@[simp] theorem Dev.onHubd_charter (f : HubDie → HubDie) : (d.onHubd f).charter = d.charter := by cases d; rfl
@[simp] theorem Dev.onHubd_ldr (f : HubDie → HubDie) : (d.onHubd f).ldr = d.ldr := by cases d; rfl
@[simp] theorem Dev.onHubd_eth (f : HubDie → HubDie) : (d.onHubd f).eth = d.eth := by cases d; rfl
@[simp] theorem Dev.onHubd_flash (f : HubDie → HubDie) : (d.onHubd f).flash = d.flash := by cases d; rfl
@[simp] theorem Dev.onHubd_tick (f : HubDie → HubDie) : (d.onHubd f).tick = d.tick := by cases d; rfl
@[simp] theorem Dev.onHubd_tickNs (f : HubDie → HubDie) : (d.onHubd f).tickNs = d.tickNs := by cases d; rfl
@[simp] theorem Dev.onHubd_alerts (f : HubDie → HubDie) : (d.onHubd f).alerts = d.alerts := by cases d; rfl
@[simp] theorem Dev.onHubd_freeCtr (f : HubDie → HubDie) : (d.onHubd f).freeCtr = d.freeCtr := by cases d; rfl
@[simp] theorem Dev.onHubd_reg (f : HubDie → HubDie) (j : Nat) : (d.onHubd f).reg j = d.reg j := by cases d; rfl
@[simp] theorem Dev.onHubd_fld (f : HubDie → HubDie) (y : Fld) : (d.onHubd f).fld y = d.fld y := by cases d; rfl
@[simp] theorem Dev.onHubd_ts (f : HubDie → HubDie) : (d.onHubd f).ts = d.ts := by simp only [Dev.ts, Dev.onHubd_fld]
@[simp] theorem Dev.onHubd_byte (f : HubDie → HubDie) (j : Nat) : (d.onHubd f).byte j = d.byte j := by cases d; rfl
@[simp] theorem Dev.onHubd_self (f : HubDie → HubDie) : (d.onHubd f).hubd = f d.hubd := by cases d; rfl

/-! ### onSh changes hubd only -/

@[simp] theorem Dev.onSh_regs (s : Nat) (f : Shuttle → Shuttle) : (d.onSh s f).regs = d.regs := by cases d; rfl
@[simp] theorem Dev.onSh_mem (s : Nat) (f : Shuttle → Shuttle) : (d.onSh s f).mem = d.mem := by cases d; rfl
@[simp] theorem Dev.onSh_chk (s : Nat) (f : Shuttle → Shuttle) : (d.onSh s f).chk = d.chk := by cases d; rfl
@[simp] theorem Dev.onSh_bad (s : Nat) (f : Shuttle → Shuttle) : (d.onSh s f).bad = d.bad := by cases d; rfl
@[simp] theorem Dev.onSh_loom (s : Nat) (f : Shuttle → Shuttle) : (d.onSh s f).loom = d.loom := by cases d; rfl
@[simp] theorem Dev.onSh_trd (s : Nat) (f : Shuttle → Shuttle) : (d.onSh s f).trd = d.trd := by cases d; rfl
@[simp] theorem Dev.onSh_tb (s : Nat) (f : Shuttle → Shuttle) : (d.onSh s f).tb = d.tb := by cases d; rfl
@[simp] theorem Dev.onSh_log (s : Nat) (f : Shuttle → Shuttle) : (d.onSh s f).log = d.log := by cases d; rfl
@[simp] theorem Dev.onSh_warp (s : Nat) (f : Shuttle → Shuttle) : (d.onSh s f).warp = d.warp := by cases d; rfl
@[simp] theorem Dev.onSh_cap (s : Nat) (f : Shuttle → Shuttle) : (d.onSh s f).cap = d.cap := by cases d; rfl
@[simp] theorem Dev.onSh_weft (s : Nat) (f : Shuttle → Shuttle) : (d.onSh s f).weft = d.weft := by cases d; rfl
@[simp] theorem Dev.onSh_rel (s : Nat) (f : Shuttle → Shuttle) : (d.onSh s f).rel = d.rel := by cases d; rfl
@[simp] theorem Dev.onSh_plat (s : Nat) (f : Shuttle → Shuttle) : (d.onSh s f).plat = d.plat := by cases d; rfl
@[simp] theorem Dev.onSh_charter (s : Nat) (f : Shuttle → Shuttle) : (d.onSh s f).charter = d.charter := by cases d; rfl
@[simp] theorem Dev.onSh_ldr (s : Nat) (f : Shuttle → Shuttle) : (d.onSh s f).ldr = d.ldr := by cases d; rfl
@[simp] theorem Dev.onSh_eth (s : Nat) (f : Shuttle → Shuttle) : (d.onSh s f).eth = d.eth := by cases d; rfl
@[simp] theorem Dev.onSh_flash (s : Nat) (f : Shuttle → Shuttle) : (d.onSh s f).flash = d.flash := by cases d; rfl
@[simp] theorem Dev.onSh_tick (s : Nat) (f : Shuttle → Shuttle) : (d.onSh s f).tick = d.tick := by cases d; rfl
@[simp] theorem Dev.onSh_tickNs (s : Nat) (f : Shuttle → Shuttle) : (d.onSh s f).tickNs = d.tickNs := by cases d; rfl
@[simp] theorem Dev.onSh_alerts (s : Nat) (f : Shuttle → Shuttle) : (d.onSh s f).alerts = d.alerts := by cases d; rfl
@[simp] theorem Dev.onSh_freeCtr (s : Nat) (f : Shuttle → Shuttle) : (d.onSh s f).freeCtr = d.freeCtr := by cases d; rfl
@[simp] theorem Dev.onSh_reg (s : Nat) (f : Shuttle → Shuttle) (j : Nat) : (d.onSh s f).reg j = d.reg j := by cases d; rfl
@[simp] theorem Dev.onSh_fld (s : Nat) (f : Shuttle → Shuttle) (y : Fld) : (d.onSh s f).fld y = d.fld y := by cases d; rfl
@[simp] theorem Dev.onSh_ts (s : Nat) (f : Shuttle → Shuttle) : (d.onSh s f).ts = d.ts := by simp only [Dev.ts, Dev.onSh_fld]
@[simp] theorem Dev.onSh_byte (s : Nat) (f : Shuttle → Shuttle) (j : Nat) : (d.onSh s f).byte j = d.byte j := by cases d; rfl

/-! ### onLane changes warp only -/

@[simp] theorem Dev.onLane_regs (p : Nat) (f : Lane → Lane) : (d.onLane p f).regs = d.regs := by cases d; rfl
@[simp] theorem Dev.onLane_mem (p : Nat) (f : Lane → Lane) : (d.onLane p f).mem = d.mem := by cases d; rfl
@[simp] theorem Dev.onLane_chk (p : Nat) (f : Lane → Lane) : (d.onLane p f).chk = d.chk := by cases d; rfl
@[simp] theorem Dev.onLane_bad (p : Nat) (f : Lane → Lane) : (d.onLane p f).bad = d.bad := by cases d; rfl
@[simp] theorem Dev.onLane_loom (p : Nat) (f : Lane → Lane) : (d.onLane p f).loom = d.loom := by cases d; rfl
@[simp] theorem Dev.onLane_trd (p : Nat) (f : Lane → Lane) : (d.onLane p f).trd = d.trd := by cases d; rfl
@[simp] theorem Dev.onLane_tb (p : Nat) (f : Lane → Lane) : (d.onLane p f).tb = d.tb := by cases d; rfl
@[simp] theorem Dev.onLane_log (p : Nat) (f : Lane → Lane) : (d.onLane p f).log = d.log := by cases d; rfl
@[simp] theorem Dev.onLane_cap (p : Nat) (f : Lane → Lane) : (d.onLane p f).cap = d.cap := by cases d; rfl
@[simp] theorem Dev.onLane_weft (p : Nat) (f : Lane → Lane) : (d.onLane p f).weft = d.weft := by cases d; rfl
@[simp] theorem Dev.onLane_rel (p : Nat) (f : Lane → Lane) : (d.onLane p f).rel = d.rel := by cases d; rfl
@[simp] theorem Dev.onLane_plat (p : Nat) (f : Lane → Lane) : (d.onLane p f).plat = d.plat := by cases d; rfl
@[simp] theorem Dev.onLane_hubd (p : Nat) (f : Lane → Lane) : (d.onLane p f).hubd = d.hubd := by cases d; rfl
@[simp] theorem Dev.onLane_charter (p : Nat) (f : Lane → Lane) : (d.onLane p f).charter = d.charter := by cases d; rfl
@[simp] theorem Dev.onLane_ldr (p : Nat) (f : Lane → Lane) : (d.onLane p f).ldr = d.ldr := by cases d; rfl
@[simp] theorem Dev.onLane_eth (p : Nat) (f : Lane → Lane) : (d.onLane p f).eth = d.eth := by cases d; rfl
@[simp] theorem Dev.onLane_flash (p : Nat) (f : Lane → Lane) : (d.onLane p f).flash = d.flash := by cases d; rfl
@[simp] theorem Dev.onLane_tick (p : Nat) (f : Lane → Lane) : (d.onLane p f).tick = d.tick := by cases d; rfl
@[simp] theorem Dev.onLane_tickNs (p : Nat) (f : Lane → Lane) : (d.onLane p f).tickNs = d.tickNs := by cases d; rfl
@[simp] theorem Dev.onLane_alerts (p : Nat) (f : Lane → Lane) : (d.onLane p f).alerts = d.alerts := by cases d; rfl
@[simp] theorem Dev.onLane_freeCtr (p : Nat) (f : Lane → Lane) : (d.onLane p f).freeCtr = d.freeCtr := by cases d; rfl
@[simp] theorem Dev.onLane_reg (p : Nat) (f : Lane → Lane) (j : Nat) : (d.onLane p f).reg j = d.reg j := by cases d; rfl
@[simp] theorem Dev.onLane_fld (p : Nat) (f : Lane → Lane) (y : Fld) : (d.onLane p f).fld y = d.fld y := by cases d; rfl
@[simp] theorem Dev.onLane_ts (p : Nat) (f : Lane → Lane) : (d.onLane p f).ts = d.ts := by simp only [Dev.ts, Dev.onLane_fld]
@[simp] theorem Dev.onLane_byte (p : Nat) (f : Lane → Lane) (j : Nat) : (d.onLane p f).byte j = d.byte j := by cases d; rfl

/-! ### onMsg changes warp only -/

@[simp] theorem Dev.onMsg_regs (e : Nat) (f : MsgEntry → MsgEntry) : (d.onMsg e f).regs = d.regs := by cases d; rfl
@[simp] theorem Dev.onMsg_mem (e : Nat) (f : MsgEntry → MsgEntry) : (d.onMsg e f).mem = d.mem := by cases d; rfl
@[simp] theorem Dev.onMsg_chk (e : Nat) (f : MsgEntry → MsgEntry) : (d.onMsg e f).chk = d.chk := by cases d; rfl
@[simp] theorem Dev.onMsg_bad (e : Nat) (f : MsgEntry → MsgEntry) : (d.onMsg e f).bad = d.bad := by cases d; rfl
@[simp] theorem Dev.onMsg_loom (e : Nat) (f : MsgEntry → MsgEntry) : (d.onMsg e f).loom = d.loom := by cases d; rfl
@[simp] theorem Dev.onMsg_trd (e : Nat) (f : MsgEntry → MsgEntry) : (d.onMsg e f).trd = d.trd := by cases d; rfl
@[simp] theorem Dev.onMsg_tb (e : Nat) (f : MsgEntry → MsgEntry) : (d.onMsg e f).tb = d.tb := by cases d; rfl
@[simp] theorem Dev.onMsg_log (e : Nat) (f : MsgEntry → MsgEntry) : (d.onMsg e f).log = d.log := by cases d; rfl
@[simp] theorem Dev.onMsg_cap (e : Nat) (f : MsgEntry → MsgEntry) : (d.onMsg e f).cap = d.cap := by cases d; rfl
@[simp] theorem Dev.onMsg_weft (e : Nat) (f : MsgEntry → MsgEntry) : (d.onMsg e f).weft = d.weft := by cases d; rfl
@[simp] theorem Dev.onMsg_rel (e : Nat) (f : MsgEntry → MsgEntry) : (d.onMsg e f).rel = d.rel := by cases d; rfl
@[simp] theorem Dev.onMsg_plat (e : Nat) (f : MsgEntry → MsgEntry) : (d.onMsg e f).plat = d.plat := by cases d; rfl
@[simp] theorem Dev.onMsg_hubd (e : Nat) (f : MsgEntry → MsgEntry) : (d.onMsg e f).hubd = d.hubd := by cases d; rfl
@[simp] theorem Dev.onMsg_charter (e : Nat) (f : MsgEntry → MsgEntry) : (d.onMsg e f).charter = d.charter := by cases d; rfl
@[simp] theorem Dev.onMsg_ldr (e : Nat) (f : MsgEntry → MsgEntry) : (d.onMsg e f).ldr = d.ldr := by cases d; rfl
@[simp] theorem Dev.onMsg_eth (e : Nat) (f : MsgEntry → MsgEntry) : (d.onMsg e f).eth = d.eth := by cases d; rfl
@[simp] theorem Dev.onMsg_flash (e : Nat) (f : MsgEntry → MsgEntry) : (d.onMsg e f).flash = d.flash := by cases d; rfl
@[simp] theorem Dev.onMsg_tick (e : Nat) (f : MsgEntry → MsgEntry) : (d.onMsg e f).tick = d.tick := by cases d; rfl
@[simp] theorem Dev.onMsg_tickNs (e : Nat) (f : MsgEntry → MsgEntry) : (d.onMsg e f).tickNs = d.tickNs := by cases d; rfl
@[simp] theorem Dev.onMsg_alerts (e : Nat) (f : MsgEntry → MsgEntry) : (d.onMsg e f).alerts = d.alerts := by cases d; rfl
@[simp] theorem Dev.onMsg_freeCtr (e : Nat) (f : MsgEntry → MsgEntry) : (d.onMsg e f).freeCtr = d.freeCtr := by cases d; rfl
@[simp] theorem Dev.onMsg_reg (e : Nat) (f : MsgEntry → MsgEntry) (j : Nat) : (d.onMsg e f).reg j = d.reg j := by cases d; rfl
@[simp] theorem Dev.onMsg_fld (e : Nat) (f : MsgEntry → MsgEntry) (y : Fld) : (d.onMsg e f).fld y = d.fld y := by cases d; rfl
@[simp] theorem Dev.onMsg_ts (e : Nat) (f : MsgEntry → MsgEntry) : (d.onMsg e f).ts = d.ts := by simp only [Dev.ts, Dev.onMsg_fld]
@[simp] theorem Dev.onMsg_byte (e : Nat) (f : MsgEntry → MsgEntry) (j : Nat) : (d.onMsg e f).byte j = d.byte j := by cases d; rfl

/-! ### onUnit changes cap only -/

@[simp] theorem Dev.onUnit_regs (u : Nat) (f : CapUnit → CapUnit) : (d.onUnit u f).regs = d.regs := by cases d; rfl
@[simp] theorem Dev.onUnit_mem (u : Nat) (f : CapUnit → CapUnit) : (d.onUnit u f).mem = d.mem := by cases d; rfl
@[simp] theorem Dev.onUnit_chk (u : Nat) (f : CapUnit → CapUnit) : (d.onUnit u f).chk = d.chk := by cases d; rfl
@[simp] theorem Dev.onUnit_bad (u : Nat) (f : CapUnit → CapUnit) : (d.onUnit u f).bad = d.bad := by cases d; rfl
@[simp] theorem Dev.onUnit_loom (u : Nat) (f : CapUnit → CapUnit) : (d.onUnit u f).loom = d.loom := by cases d; rfl
@[simp] theorem Dev.onUnit_trd (u : Nat) (f : CapUnit → CapUnit) : (d.onUnit u f).trd = d.trd := by cases d; rfl
@[simp] theorem Dev.onUnit_tb (u : Nat) (f : CapUnit → CapUnit) : (d.onUnit u f).tb = d.tb := by cases d; rfl
@[simp] theorem Dev.onUnit_log (u : Nat) (f : CapUnit → CapUnit) : (d.onUnit u f).log = d.log := by cases d; rfl
@[simp] theorem Dev.onUnit_warp (u : Nat) (f : CapUnit → CapUnit) : (d.onUnit u f).warp = d.warp := by cases d; rfl
@[simp] theorem Dev.onUnit_weft (u : Nat) (f : CapUnit → CapUnit) : (d.onUnit u f).weft = d.weft := by cases d; rfl
@[simp] theorem Dev.onUnit_rel (u : Nat) (f : CapUnit → CapUnit) : (d.onUnit u f).rel = d.rel := by cases d; rfl
@[simp] theorem Dev.onUnit_plat (u : Nat) (f : CapUnit → CapUnit) : (d.onUnit u f).plat = d.plat := by cases d; rfl
@[simp] theorem Dev.onUnit_hubd (u : Nat) (f : CapUnit → CapUnit) : (d.onUnit u f).hubd = d.hubd := by cases d; rfl
@[simp] theorem Dev.onUnit_charter (u : Nat) (f : CapUnit → CapUnit) : (d.onUnit u f).charter = d.charter := by cases d; rfl
@[simp] theorem Dev.onUnit_ldr (u : Nat) (f : CapUnit → CapUnit) : (d.onUnit u f).ldr = d.ldr := by cases d; rfl
@[simp] theorem Dev.onUnit_eth (u : Nat) (f : CapUnit → CapUnit) : (d.onUnit u f).eth = d.eth := by cases d; rfl
@[simp] theorem Dev.onUnit_flash (u : Nat) (f : CapUnit → CapUnit) : (d.onUnit u f).flash = d.flash := by cases d; rfl
@[simp] theorem Dev.onUnit_tick (u : Nat) (f : CapUnit → CapUnit) : (d.onUnit u f).tick = d.tick := by cases d; rfl
@[simp] theorem Dev.onUnit_tickNs (u : Nat) (f : CapUnit → CapUnit) : (d.onUnit u f).tickNs = d.tickNs := by cases d; rfl
@[simp] theorem Dev.onUnit_alerts (u : Nat) (f : CapUnit → CapUnit) : (d.onUnit u f).alerts = d.alerts := by cases d; rfl
@[simp] theorem Dev.onUnit_freeCtr (u : Nat) (f : CapUnit → CapUnit) : (d.onUnit u f).freeCtr = d.freeCtr := by cases d; rfl
@[simp] theorem Dev.onUnit_reg (u : Nat) (f : CapUnit → CapUnit) (j : Nat) : (d.onUnit u f).reg j = d.reg j := by cases d; rfl
@[simp] theorem Dev.onUnit_fld (u : Nat) (f : CapUnit → CapUnit) (y : Fld) : (d.onUnit u f).fld y = d.fld y := by cases d; rfl
@[simp] theorem Dev.onUnit_ts (u : Nat) (f : CapUnit → CapUnit) : (d.onUnit u f).ts = d.ts := by simp only [Dev.ts, Dev.onUnit_fld]
@[simp] theorem Dev.onUnit_byte (u : Nat) (f : CapUnit → CapUnit) (j : Nat) : (d.onUnit u f).byte j = d.byte j := by cases d; rfl

/-! ### onLink changes weft only -/

@[simp] theorem Dev.onLink_regs (p : Nat) (f : WLink → WLink) : (d.onLink p f).regs = d.regs := by cases d; rfl
@[simp] theorem Dev.onLink_mem (p : Nat) (f : WLink → WLink) : (d.onLink p f).mem = d.mem := by cases d; rfl
@[simp] theorem Dev.onLink_chk (p : Nat) (f : WLink → WLink) : (d.onLink p f).chk = d.chk := by cases d; rfl
@[simp] theorem Dev.onLink_bad (p : Nat) (f : WLink → WLink) : (d.onLink p f).bad = d.bad := by cases d; rfl
@[simp] theorem Dev.onLink_loom (p : Nat) (f : WLink → WLink) : (d.onLink p f).loom = d.loom := by cases d; rfl
@[simp] theorem Dev.onLink_trd (p : Nat) (f : WLink → WLink) : (d.onLink p f).trd = d.trd := by cases d; rfl
@[simp] theorem Dev.onLink_tb (p : Nat) (f : WLink → WLink) : (d.onLink p f).tb = d.tb := by cases d; rfl
@[simp] theorem Dev.onLink_log (p : Nat) (f : WLink → WLink) : (d.onLink p f).log = d.log := by cases d; rfl
@[simp] theorem Dev.onLink_warp (p : Nat) (f : WLink → WLink) : (d.onLink p f).warp = d.warp := by cases d; rfl
@[simp] theorem Dev.onLink_cap (p : Nat) (f : WLink → WLink) : (d.onLink p f).cap = d.cap := by cases d; rfl
@[simp] theorem Dev.onLink_rel (p : Nat) (f : WLink → WLink) : (d.onLink p f).rel = d.rel := by cases d; rfl
@[simp] theorem Dev.onLink_plat (p : Nat) (f : WLink → WLink) : (d.onLink p f).plat = d.plat := by cases d; rfl
@[simp] theorem Dev.onLink_hubd (p : Nat) (f : WLink → WLink) : (d.onLink p f).hubd = d.hubd := by cases d; rfl
@[simp] theorem Dev.onLink_charter (p : Nat) (f : WLink → WLink) : (d.onLink p f).charter = d.charter := by cases d; rfl
@[simp] theorem Dev.onLink_ldr (p : Nat) (f : WLink → WLink) : (d.onLink p f).ldr = d.ldr := by cases d; rfl
@[simp] theorem Dev.onLink_eth (p : Nat) (f : WLink → WLink) : (d.onLink p f).eth = d.eth := by cases d; rfl
@[simp] theorem Dev.onLink_flash (p : Nat) (f : WLink → WLink) : (d.onLink p f).flash = d.flash := by cases d; rfl
@[simp] theorem Dev.onLink_tick (p : Nat) (f : WLink → WLink) : (d.onLink p f).tick = d.tick := by cases d; rfl
@[simp] theorem Dev.onLink_tickNs (p : Nat) (f : WLink → WLink) : (d.onLink p f).tickNs = d.tickNs := by cases d; rfl
@[simp] theorem Dev.onLink_alerts (p : Nat) (f : WLink → WLink) : (d.onLink p f).alerts = d.alerts := by cases d; rfl
@[simp] theorem Dev.onLink_freeCtr (p : Nat) (f : WLink → WLink) : (d.onLink p f).freeCtr = d.freeCtr := by cases d; rfl
@[simp] theorem Dev.onLink_reg (p : Nat) (f : WLink → WLink) (j : Nat) : (d.onLink p f).reg j = d.reg j := by cases d; rfl
@[simp] theorem Dev.onLink_fld (p : Nat) (f : WLink → WLink) (y : Fld) : (d.onLink p f).fld y = d.fld y := by cases d; rfl
@[simp] theorem Dev.onLink_ts (p : Nat) (f : WLink → WLink) : (d.onLink p f).ts = d.ts := by simp only [Dev.ts, Dev.onLink_fld]
@[simp] theorem Dev.onLink_byte (p : Nat) (f : WLink → WLink) (j : Nat) : (d.onLink p f).byte j = d.byte j := by cases d; rfl

/-! ### onHub changes hubd only -/

@[simp] theorem Dev.onHub_regs (f : Hub → Hub) : (d.onHub f).regs = d.regs := by cases d; rfl
@[simp] theorem Dev.onHub_mem (f : Hub → Hub) : (d.onHub f).mem = d.mem := by cases d; rfl
@[simp] theorem Dev.onHub_chk (f : Hub → Hub) : (d.onHub f).chk = d.chk := by cases d; rfl
@[simp] theorem Dev.onHub_bad (f : Hub → Hub) : (d.onHub f).bad = d.bad := by cases d; rfl
@[simp] theorem Dev.onHub_loom (f : Hub → Hub) : (d.onHub f).loom = d.loom := by cases d; rfl
@[simp] theorem Dev.onHub_trd (f : Hub → Hub) : (d.onHub f).trd = d.trd := by cases d; rfl
@[simp] theorem Dev.onHub_tb (f : Hub → Hub) : (d.onHub f).tb = d.tb := by cases d; rfl
@[simp] theorem Dev.onHub_log (f : Hub → Hub) : (d.onHub f).log = d.log := by cases d; rfl
@[simp] theorem Dev.onHub_warp (f : Hub → Hub) : (d.onHub f).warp = d.warp := by cases d; rfl
@[simp] theorem Dev.onHub_cap (f : Hub → Hub) : (d.onHub f).cap = d.cap := by cases d; rfl
@[simp] theorem Dev.onHub_weft (f : Hub → Hub) : (d.onHub f).weft = d.weft := by cases d; rfl
@[simp] theorem Dev.onHub_rel (f : Hub → Hub) : (d.onHub f).rel = d.rel := by cases d; rfl
@[simp] theorem Dev.onHub_plat (f : Hub → Hub) : (d.onHub f).plat = d.plat := by cases d; rfl
@[simp] theorem Dev.onHub_charter (f : Hub → Hub) : (d.onHub f).charter = d.charter := by cases d; rfl
@[simp] theorem Dev.onHub_ldr (f : Hub → Hub) : (d.onHub f).ldr = d.ldr := by cases d; rfl
@[simp] theorem Dev.onHub_eth (f : Hub → Hub) : (d.onHub f).eth = d.eth := by cases d; rfl
@[simp] theorem Dev.onHub_flash (f : Hub → Hub) : (d.onHub f).flash = d.flash := by cases d; rfl
@[simp] theorem Dev.onHub_tick (f : Hub → Hub) : (d.onHub f).tick = d.tick := by cases d; rfl
@[simp] theorem Dev.onHub_tickNs (f : Hub → Hub) : (d.onHub f).tickNs = d.tickNs := by cases d; rfl
@[simp] theorem Dev.onHub_alerts (f : Hub → Hub) : (d.onHub f).alerts = d.alerts := by cases d; rfl
@[simp] theorem Dev.onHub_freeCtr (f : Hub → Hub) : (d.onHub f).freeCtr = d.freeCtr := by cases d; rfl
@[simp] theorem Dev.onHub_reg (f : Hub → Hub) (j : Nat) : (d.onHub f).reg j = d.reg j := by cases d; rfl
@[simp] theorem Dev.onHub_fld (f : Hub → Hub) (y : Fld) : (d.onHub f).fld y = d.fld y := by cases d; rfl
@[simp] theorem Dev.onHub_ts (f : Hub → Hub) : (d.onHub f).ts = d.ts := by simp only [Dev.ts, Dev.onHub_fld]
@[simp] theorem Dev.onHub_byte (f : Hub → Hub) (j : Nat) : (d.onHub f).byte j = d.byte j := by cases d; rfl
@[simp] theorem Dev.onHub_self (f : Hub → Hub) : (d.onHub f).hubd.hub = f d.hubd.hub := by cases d; rfl

/-! ### onSched changes hubd only -/

@[simp] theorem Dev.onSched_regs (f : Sched → Sched) : (d.onSched f).regs = d.regs := by cases d; rfl
@[simp] theorem Dev.onSched_mem (f : Sched → Sched) : (d.onSched f).mem = d.mem := by cases d; rfl
@[simp] theorem Dev.onSched_chk (f : Sched → Sched) : (d.onSched f).chk = d.chk := by cases d; rfl
@[simp] theorem Dev.onSched_bad (f : Sched → Sched) : (d.onSched f).bad = d.bad := by cases d; rfl
@[simp] theorem Dev.onSched_loom (f : Sched → Sched) : (d.onSched f).loom = d.loom := by cases d; rfl
@[simp] theorem Dev.onSched_trd (f : Sched → Sched) : (d.onSched f).trd = d.trd := by cases d; rfl
@[simp] theorem Dev.onSched_tb (f : Sched → Sched) : (d.onSched f).tb = d.tb := by cases d; rfl
@[simp] theorem Dev.onSched_log (f : Sched → Sched) : (d.onSched f).log = d.log := by cases d; rfl
@[simp] theorem Dev.onSched_warp (f : Sched → Sched) : (d.onSched f).warp = d.warp := by cases d; rfl
@[simp] theorem Dev.onSched_cap (f : Sched → Sched) : (d.onSched f).cap = d.cap := by cases d; rfl
@[simp] theorem Dev.onSched_weft (f : Sched → Sched) : (d.onSched f).weft = d.weft := by cases d; rfl
@[simp] theorem Dev.onSched_rel (f : Sched → Sched) : (d.onSched f).rel = d.rel := by cases d; rfl
@[simp] theorem Dev.onSched_plat (f : Sched → Sched) : (d.onSched f).plat = d.plat := by cases d; rfl
@[simp] theorem Dev.onSched_charter (f : Sched → Sched) : (d.onSched f).charter = d.charter := by cases d; rfl
@[simp] theorem Dev.onSched_ldr (f : Sched → Sched) : (d.onSched f).ldr = d.ldr := by cases d; rfl
@[simp] theorem Dev.onSched_eth (f : Sched → Sched) : (d.onSched f).eth = d.eth := by cases d; rfl
@[simp] theorem Dev.onSched_flash (f : Sched → Sched) : (d.onSched f).flash = d.flash := by cases d; rfl
@[simp] theorem Dev.onSched_tick (f : Sched → Sched) : (d.onSched f).tick = d.tick := by cases d; rfl
@[simp] theorem Dev.onSched_tickNs (f : Sched → Sched) : (d.onSched f).tickNs = d.tickNs := by cases d; rfl
@[simp] theorem Dev.onSched_alerts (f : Sched → Sched) : (d.onSched f).alerts = d.alerts := by cases d; rfl
@[simp] theorem Dev.onSched_freeCtr (f : Sched → Sched) : (d.onSched f).freeCtr = d.freeCtr := by cases d; rfl
@[simp] theorem Dev.onSched_reg (f : Sched → Sched) (j : Nat) : (d.onSched f).reg j = d.reg j := by cases d; rfl
@[simp] theorem Dev.onSched_fld (f : Sched → Sched) (y : Fld) : (d.onSched f).fld y = d.fld y := by cases d; rfl
@[simp] theorem Dev.onSched_ts (f : Sched → Sched) : (d.onSched f).ts = d.ts := by simp only [Dev.ts, Dev.onSched_fld]
@[simp] theorem Dev.onSched_byte (f : Sched → Sched) (j : Nat) : (d.onSched f).byte j = d.byte j := by cases d; rfl
@[simp] theorem Dev.onSched_self (f : Sched → Sched) : (d.onSched f).hubd.sched = f d.hubd.sched := by cases d; rfl

/-! ### onTrc changes hubd only -/

@[simp] theorem Dev.onTrc_regs (f : Trc → Trc) : (d.onTrc f).regs = d.regs := by cases d; rfl
@[simp] theorem Dev.onTrc_mem (f : Trc → Trc) : (d.onTrc f).mem = d.mem := by cases d; rfl
@[simp] theorem Dev.onTrc_chk (f : Trc → Trc) : (d.onTrc f).chk = d.chk := by cases d; rfl
@[simp] theorem Dev.onTrc_bad (f : Trc → Trc) : (d.onTrc f).bad = d.bad := by cases d; rfl
@[simp] theorem Dev.onTrc_loom (f : Trc → Trc) : (d.onTrc f).loom = d.loom := by cases d; rfl
@[simp] theorem Dev.onTrc_trd (f : Trc → Trc) : (d.onTrc f).trd = d.trd := by cases d; rfl
@[simp] theorem Dev.onTrc_tb (f : Trc → Trc) : (d.onTrc f).tb = d.tb := by cases d; rfl
@[simp] theorem Dev.onTrc_log (f : Trc → Trc) : (d.onTrc f).log = d.log := by cases d; rfl
@[simp] theorem Dev.onTrc_warp (f : Trc → Trc) : (d.onTrc f).warp = d.warp := by cases d; rfl
@[simp] theorem Dev.onTrc_cap (f : Trc → Trc) : (d.onTrc f).cap = d.cap := by cases d; rfl
@[simp] theorem Dev.onTrc_weft (f : Trc → Trc) : (d.onTrc f).weft = d.weft := by cases d; rfl
@[simp] theorem Dev.onTrc_rel (f : Trc → Trc) : (d.onTrc f).rel = d.rel := by cases d; rfl
@[simp] theorem Dev.onTrc_plat (f : Trc → Trc) : (d.onTrc f).plat = d.plat := by cases d; rfl
@[simp] theorem Dev.onTrc_charter (f : Trc → Trc) : (d.onTrc f).charter = d.charter := by cases d; rfl
@[simp] theorem Dev.onTrc_ldr (f : Trc → Trc) : (d.onTrc f).ldr = d.ldr := by cases d; rfl
@[simp] theorem Dev.onTrc_eth (f : Trc → Trc) : (d.onTrc f).eth = d.eth := by cases d; rfl
@[simp] theorem Dev.onTrc_flash (f : Trc → Trc) : (d.onTrc f).flash = d.flash := by cases d; rfl
@[simp] theorem Dev.onTrc_tick (f : Trc → Trc) : (d.onTrc f).tick = d.tick := by cases d; rfl
@[simp] theorem Dev.onTrc_tickNs (f : Trc → Trc) : (d.onTrc f).tickNs = d.tickNs := by cases d; rfl
@[simp] theorem Dev.onTrc_alerts (f : Trc → Trc) : (d.onTrc f).alerts = d.alerts := by cases d; rfl
@[simp] theorem Dev.onTrc_freeCtr (f : Trc → Trc) : (d.onTrc f).freeCtr = d.freeCtr := by cases d; rfl
@[simp] theorem Dev.onTrc_reg (f : Trc → Trc) (j : Nat) : (d.onTrc f).reg j = d.reg j := by cases d; rfl
@[simp] theorem Dev.onTrc_fld (f : Trc → Trc) (y : Fld) : (d.onTrc f).fld y = d.fld y := by cases d; rfl
@[simp] theorem Dev.onTrc_ts (f : Trc → Trc) : (d.onTrc f).ts = d.ts := by simp only [Dev.ts, Dev.onTrc_fld]
@[simp] theorem Dev.onTrc_byte (f : Trc → Trc) (j : Nat) : (d.onTrc f).byte j = d.byte j := by cases d; rfl
@[simp] theorem Dev.onTrc_self (f : Trc → Trc) : (d.onTrc f).hubd.trc = f d.hubd.trc := by cases d; rfl

/-! ### onBob changes hubd only -/

@[simp] theorem Dev.onBob_regs (c : Nat) (f : Bob → Bob) : (d.onBob c f).regs = d.regs := by cases d; rfl
@[simp] theorem Dev.onBob_mem (c : Nat) (f : Bob → Bob) : (d.onBob c f).mem = d.mem := by cases d; rfl
@[simp] theorem Dev.onBob_chk (c : Nat) (f : Bob → Bob) : (d.onBob c f).chk = d.chk := by cases d; rfl
@[simp] theorem Dev.onBob_bad (c : Nat) (f : Bob → Bob) : (d.onBob c f).bad = d.bad := by cases d; rfl
@[simp] theorem Dev.onBob_loom (c : Nat) (f : Bob → Bob) : (d.onBob c f).loom = d.loom := by cases d; rfl
@[simp] theorem Dev.onBob_trd (c : Nat) (f : Bob → Bob) : (d.onBob c f).trd = d.trd := by cases d; rfl
@[simp] theorem Dev.onBob_tb (c : Nat) (f : Bob → Bob) : (d.onBob c f).tb = d.tb := by cases d; rfl
@[simp] theorem Dev.onBob_log (c : Nat) (f : Bob → Bob) : (d.onBob c f).log = d.log := by cases d; rfl
@[simp] theorem Dev.onBob_warp (c : Nat) (f : Bob → Bob) : (d.onBob c f).warp = d.warp := by cases d; rfl
@[simp] theorem Dev.onBob_cap (c : Nat) (f : Bob → Bob) : (d.onBob c f).cap = d.cap := by cases d; rfl
@[simp] theorem Dev.onBob_weft (c : Nat) (f : Bob → Bob) : (d.onBob c f).weft = d.weft := by cases d; rfl
@[simp] theorem Dev.onBob_rel (c : Nat) (f : Bob → Bob) : (d.onBob c f).rel = d.rel := by cases d; rfl
@[simp] theorem Dev.onBob_plat (c : Nat) (f : Bob → Bob) : (d.onBob c f).plat = d.plat := by cases d; rfl
@[simp] theorem Dev.onBob_charter (c : Nat) (f : Bob → Bob) : (d.onBob c f).charter = d.charter := by cases d; rfl
@[simp] theorem Dev.onBob_ldr (c : Nat) (f : Bob → Bob) : (d.onBob c f).ldr = d.ldr := by cases d; rfl
@[simp] theorem Dev.onBob_eth (c : Nat) (f : Bob → Bob) : (d.onBob c f).eth = d.eth := by cases d; rfl
@[simp] theorem Dev.onBob_flash (c : Nat) (f : Bob → Bob) : (d.onBob c f).flash = d.flash := by cases d; rfl
@[simp] theorem Dev.onBob_tick (c : Nat) (f : Bob → Bob) : (d.onBob c f).tick = d.tick := by cases d; rfl
@[simp] theorem Dev.onBob_tickNs (c : Nat) (f : Bob → Bob) : (d.onBob c f).tickNs = d.tickNs := by cases d; rfl
@[simp] theorem Dev.onBob_alerts (c : Nat) (f : Bob → Bob) : (d.onBob c f).alerts = d.alerts := by cases d; rfl
@[simp] theorem Dev.onBob_freeCtr (c : Nat) (f : Bob → Bob) : (d.onBob c f).freeCtr = d.freeCtr := by cases d; rfl
@[simp] theorem Dev.onBob_reg (c : Nat) (f : Bob → Bob) (j : Nat) : (d.onBob c f).reg j = d.reg j := by cases d; rfl
@[simp] theorem Dev.onBob_fld (c : Nat) (f : Bob → Bob) (y : Fld) : (d.onBob c f).fld y = d.fld y := by cases d; rfl
@[simp] theorem Dev.onBob_ts (c : Nat) (f : Bob → Bob) : (d.onBob c f).ts = d.ts := by simp only [Dev.ts, Dev.onBob_fld]
@[simp] theorem Dev.onBob_byte (c : Nat) (f : Bob → Bob) (j : Nat) : (d.onBob c f).byte j = d.byte j := by cases d; rfl

/-! ### onWatch changes plat only -/

@[simp] theorem Dev.onWatch_regs (f : Watch → Watch) : (d.onWatch f).regs = d.regs := by cases d; rfl
@[simp] theorem Dev.onWatch_mem (f : Watch → Watch) : (d.onWatch f).mem = d.mem := by cases d; rfl
@[simp] theorem Dev.onWatch_chk (f : Watch → Watch) : (d.onWatch f).chk = d.chk := by cases d; rfl
@[simp] theorem Dev.onWatch_bad (f : Watch → Watch) : (d.onWatch f).bad = d.bad := by cases d; rfl
@[simp] theorem Dev.onWatch_loom (f : Watch → Watch) : (d.onWatch f).loom = d.loom := by cases d; rfl
@[simp] theorem Dev.onWatch_trd (f : Watch → Watch) : (d.onWatch f).trd = d.trd := by cases d; rfl
@[simp] theorem Dev.onWatch_tb (f : Watch → Watch) : (d.onWatch f).tb = d.tb := by cases d; rfl
@[simp] theorem Dev.onWatch_log (f : Watch → Watch) : (d.onWatch f).log = d.log := by cases d; rfl
@[simp] theorem Dev.onWatch_warp (f : Watch → Watch) : (d.onWatch f).warp = d.warp := by cases d; rfl
@[simp] theorem Dev.onWatch_cap (f : Watch → Watch) : (d.onWatch f).cap = d.cap := by cases d; rfl
@[simp] theorem Dev.onWatch_weft (f : Watch → Watch) : (d.onWatch f).weft = d.weft := by cases d; rfl
@[simp] theorem Dev.onWatch_rel (f : Watch → Watch) : (d.onWatch f).rel = d.rel := by cases d; rfl
@[simp] theorem Dev.onWatch_hubd (f : Watch → Watch) : (d.onWatch f).hubd = d.hubd := by cases d; rfl
@[simp] theorem Dev.onWatch_charter (f : Watch → Watch) : (d.onWatch f).charter = d.charter := by cases d; rfl
@[simp] theorem Dev.onWatch_ldr (f : Watch → Watch) : (d.onWatch f).ldr = d.ldr := by cases d; rfl
@[simp] theorem Dev.onWatch_eth (f : Watch → Watch) : (d.onWatch f).eth = d.eth := by cases d; rfl
@[simp] theorem Dev.onWatch_flash (f : Watch → Watch) : (d.onWatch f).flash = d.flash := by cases d; rfl
@[simp] theorem Dev.onWatch_tick (f : Watch → Watch) : (d.onWatch f).tick = d.tick := by cases d; rfl
@[simp] theorem Dev.onWatch_tickNs (f : Watch → Watch) : (d.onWatch f).tickNs = d.tickNs := by cases d; rfl
@[simp] theorem Dev.onWatch_alerts (f : Watch → Watch) : (d.onWatch f).alerts = d.alerts := by cases d; rfl
@[simp] theorem Dev.onWatch_freeCtr (f : Watch → Watch) : (d.onWatch f).freeCtr = d.freeCtr := by cases d; rfl
@[simp] theorem Dev.onWatch_reg (f : Watch → Watch) (j : Nat) : (d.onWatch f).reg j = d.reg j := by cases d; rfl
@[simp] theorem Dev.onWatch_fld (f : Watch → Watch) (y : Fld) : (d.onWatch f).fld y = d.fld y := by cases d; rfl
@[simp] theorem Dev.onWatch_ts (f : Watch → Watch) : (d.onWatch f).ts = d.ts := by simp only [Dev.ts, Dev.onWatch_fld]
@[simp] theorem Dev.onWatch_byte (f : Watch → Watch) (j : Nat) : (d.onWatch f).byte j = d.byte j := by cases d; rfl
@[simp] theorem Dev.onWatch_self (f : Watch → Watch) : (d.onWatch f).plat.watch = f d.plat.watch := by cases d; rfl

/-! ### event changes the log's input queue, or LOG_LOST when the queue is full -/

@[simp] theorem Dev.event_mem (b i c x : Nat) : (d.event b i c x).mem = d.mem := by unfold Dev.event; split <;> rfl
@[simp] theorem Dev.access_mem (c m k : Nat) : (d.access c m k).mem = d.mem := by simp [Dev.access]
@[simp] theorem Dev.loadEvent_mem (c x : Nat) : (d.loadEvent c x).mem = d.mem := by simp [Dev.loadEvent]
@[simp] theorem Dev.event_chk (b i c x : Nat) : (d.event b i c x).chk = d.chk := by unfold Dev.event; split <;> rfl
@[simp] theorem Dev.access_chk (c m k : Nat) : (d.access c m k).chk = d.chk := by simp [Dev.access]
@[simp] theorem Dev.loadEvent_chk (c x : Nat) : (d.loadEvent c x).chk = d.chk := by simp [Dev.loadEvent]
@[simp] theorem Dev.event_bad (b i c x : Nat) : (d.event b i c x).bad = d.bad := by unfold Dev.event; split <;> rfl
@[simp] theorem Dev.access_bad (c m k : Nat) : (d.access c m k).bad = d.bad := by simp [Dev.access]
@[simp] theorem Dev.loadEvent_bad (c x : Nat) : (d.loadEvent c x).bad = d.bad := by simp [Dev.loadEvent]
@[simp] theorem Dev.event_loom (b i c x : Nat) : (d.event b i c x).loom = d.loom := by unfold Dev.event; split <;> rfl
@[simp] theorem Dev.access_loom (c m k : Nat) : (d.access c m k).loom = d.loom := by simp [Dev.access]
@[simp] theorem Dev.loadEvent_loom (c x : Nat) : (d.loadEvent c x).loom = d.loom := by simp [Dev.loadEvent]
@[simp] theorem Dev.event_trd (b i c x : Nat) : (d.event b i c x).trd = d.trd := by unfold Dev.event; split <;> rfl
@[simp] theorem Dev.access_trd (c m k : Nat) : (d.access c m k).trd = d.trd := by simp [Dev.access]
@[simp] theorem Dev.loadEvent_trd (c x : Nat) : (d.loadEvent c x).trd = d.trd := by simp [Dev.loadEvent]
@[simp] theorem Dev.event_tb (b i c x : Nat) : (d.event b i c x).tb = d.tb := by unfold Dev.event; split <;> rfl
@[simp] theorem Dev.access_tb (c m k : Nat) : (d.access c m k).tb = d.tb := by simp [Dev.access]
@[simp] theorem Dev.loadEvent_tb (c x : Nat) : (d.loadEvent c x).tb = d.tb := by simp [Dev.loadEvent]
@[simp] theorem Dev.event_warp (b i c x : Nat) : (d.event b i c x).warp = d.warp := by unfold Dev.event; split <;> rfl
@[simp] theorem Dev.access_warp (c m k : Nat) : (d.access c m k).warp = d.warp := by simp [Dev.access]
@[simp] theorem Dev.loadEvent_warp (c x : Nat) : (d.loadEvent c x).warp = d.warp := by simp [Dev.loadEvent]
@[simp] theorem Dev.event_cap (b i c x : Nat) : (d.event b i c x).cap = d.cap := by unfold Dev.event; split <;> rfl
@[simp] theorem Dev.access_cap (c m k : Nat) : (d.access c m k).cap = d.cap := by simp [Dev.access]
@[simp] theorem Dev.loadEvent_cap (c x : Nat) : (d.loadEvent c x).cap = d.cap := by simp [Dev.loadEvent]
@[simp] theorem Dev.event_weft (b i c x : Nat) : (d.event b i c x).weft = d.weft := by unfold Dev.event; split <;> rfl
@[simp] theorem Dev.access_weft (c m k : Nat) : (d.access c m k).weft = d.weft := by simp [Dev.access]
@[simp] theorem Dev.loadEvent_weft (c x : Nat) : (d.loadEvent c x).weft = d.weft := by simp [Dev.loadEvent]
@[simp] theorem Dev.event_rel (b i c x : Nat) : (d.event b i c x).rel = d.rel := by unfold Dev.event; split <;> rfl
@[simp] theorem Dev.access_rel (c m k : Nat) : (d.access c m k).rel = d.rel := by simp [Dev.access]
@[simp] theorem Dev.loadEvent_rel (c x : Nat) : (d.loadEvent c x).rel = d.rel := by simp [Dev.loadEvent]
@[simp] theorem Dev.event_plat (b i c x : Nat) : (d.event b i c x).plat = d.plat := by unfold Dev.event; split <;> rfl
@[simp] theorem Dev.access_plat (c m k : Nat) : (d.access c m k).plat = d.plat := by simp [Dev.access]
@[simp] theorem Dev.loadEvent_plat (c x : Nat) : (d.loadEvent c x).plat = d.plat := by simp [Dev.loadEvent]
@[simp] theorem Dev.event_hubd (b i c x : Nat) : (d.event b i c x).hubd = d.hubd := by unfold Dev.event; split <;> rfl
@[simp] theorem Dev.access_hubd (c m k : Nat) : (d.access c m k).hubd = d.hubd := by simp [Dev.access]
@[simp] theorem Dev.loadEvent_hubd (c x : Nat) : (d.loadEvent c x).hubd = d.hubd := by simp [Dev.loadEvent]
@[simp] theorem Dev.event_charter (b i c x : Nat) : (d.event b i c x).charter = d.charter := by unfold Dev.event; split <;> rfl
@[simp] theorem Dev.access_charter (c m k : Nat) : (d.access c m k).charter = d.charter := by simp [Dev.access]
@[simp] theorem Dev.loadEvent_charter (c x : Nat) : (d.loadEvent c x).charter = d.charter := by simp [Dev.loadEvent]
@[simp] theorem Dev.event_ldr (b i c x : Nat) : (d.event b i c x).ldr = d.ldr := by unfold Dev.event; split <;> rfl
@[simp] theorem Dev.access_ldr (c m k : Nat) : (d.access c m k).ldr = d.ldr := by simp [Dev.access]
@[simp] theorem Dev.loadEvent_ldr (c x : Nat) : (d.loadEvent c x).ldr = d.ldr := by simp [Dev.loadEvent]
@[simp] theorem Dev.event_eth (b i c x : Nat) : (d.event b i c x).eth = d.eth := by unfold Dev.event; split <;> rfl
@[simp] theorem Dev.access_eth (c m k : Nat) : (d.access c m k).eth = d.eth := by simp [Dev.access]
@[simp] theorem Dev.loadEvent_eth (c x : Nat) : (d.loadEvent c x).eth = d.eth := by simp [Dev.loadEvent]
@[simp] theorem Dev.event_flash (b i c x : Nat) : (d.event b i c x).flash = d.flash := by unfold Dev.event; split <;> rfl
@[simp] theorem Dev.access_flash (c m k : Nat) : (d.access c m k).flash = d.flash := by simp [Dev.access]
@[simp] theorem Dev.loadEvent_flash (c x : Nat) : (d.loadEvent c x).flash = d.flash := by simp [Dev.loadEvent]
@[simp] theorem Dev.event_tick (b i c x : Nat) : (d.event b i c x).tick = d.tick := by unfold Dev.event; split <;> rfl
@[simp] theorem Dev.access_tick (c m k : Nat) : (d.access c m k).tick = d.tick := by simp [Dev.access]
@[simp] theorem Dev.loadEvent_tick (c x : Nat) : (d.loadEvent c x).tick = d.tick := by simp [Dev.loadEvent]
@[simp] theorem Dev.event_tickNs (b i c x : Nat) : (d.event b i c x).tickNs = d.tickNs := by unfold Dev.event; split <;> rfl
@[simp] theorem Dev.access_tickNs (c m k : Nat) : (d.access c m k).tickNs = d.tickNs := by simp [Dev.access]
@[simp] theorem Dev.loadEvent_tickNs (c x : Nat) : (d.loadEvent c x).tickNs = d.tickNs := by simp [Dev.loadEvent]
@[simp] theorem Dev.event_alerts (b i c x : Nat) : (d.event b i c x).alerts = d.alerts := by unfold Dev.event; split <;> rfl
@[simp] theorem Dev.access_alerts (c m k : Nat) : (d.access c m k).alerts = d.alerts := by simp [Dev.access]
@[simp] theorem Dev.loadEvent_alerts (c x : Nat) : (d.loadEvent c x).alerts = d.alerts := by simp [Dev.loadEvent]
@[simp] theorem Dev.event_freeCtr (b i c x : Nat) : (d.event b i c x).freeCtr = d.freeCtr := by unfold Dev.event; split <;> rfl
@[simp] theorem Dev.access_freeCtr (c m k : Nat) : (d.access c m k).freeCtr = d.freeCtr := by simp [Dev.access]
@[simp] theorem Dev.loadEvent_freeCtr (c x : Nat) : (d.loadEvent c x).freeCtr = d.freeCtr := by simp [Dev.loadEvent]

/-- Memory read through an event. -/
@[simp] theorem Dev.event_byte (b i c x a : Nat) : (d.event b i c x).byte a = d.byte a := by simp [Dev.byte]

end Sys2Proof.Machine
end

