-- ==== Sys2Proof/Laws/Commands.lean ====
section
/-!
SUPPORT. What every command does to the machine as a whole: it answers a next state and leaves the queue of waiting commands.
-/

namespace Sys2Proof.Machine

/-- A state with another device. -/
@[simp] theorem State.actPin_eq (s : State) (f : Dev → Dev) : s.actPin f = .next { s with dev := f s.dev } := rfl

/-- A command of the powered device acts. -/
theorem State.act_on (s : State) (f : Dev → Dev) (h : s.dev.on = true) : s.act f = .next { s with dev := f s.dev } := by
  simp [State.act, h]

/-- A command of the powered device does nothing while the device is off or in reset. -/
theorem State.act_off (s : State) (f : Dev → Dev) (h : s.dev.on = false) : s.act f = .next s := by
  simp [State.act, h]

/-- A command that travels on the hub rings acts. -/
theorem State.actHub_on (s : State) (f : Dev → Dev) (h : s.dev.ringsOn = true) : s.actHub f = .next { s with dev := f s.dev } := by
  simp [State.actHub, h]

/-- A command that travels on the hub rings does nothing once a ring link has failed, or while the device is off or in reset. -/
theorem State.actHub_off (s : State) (f : Dev → Dev) (h : s.dev.ringsOn = false) : s.actHub f = .next s := by
  simp [State.actHub, h]

/-- The hub rings run on a device that is powered and out of reset, and while no ring link has failed. -/
theorem Dev.ringsOn_iff (d : Dev) : d.ringsOn = true ↔ d.on = true ∧ d.hubd.hub.stopped = false := by
  simp [Dev.ringsOn]

/-- A command of the AON domain acts. -/
theorem State.actAon_on (s : State) (f : Dev → Dev) (h : s.dev.aonOn = true) : s.actAon f = .next { s with dev := f s.dev } := by
  simp [State.actAon, h]

/-- A command of the AON domain does nothing while that domain does not run. -/
theorem State.actAon_off (s : State) (f : Dev → Dev) (h : s.dev.aonOn = false) : s.actAon f = .next s := by
  simp [State.actAon, h]

/-- Whatever a command of the powered device does, the queue stays. -/
theorem State.act_next (s : State) (f : Dev → Dev) : ∃ t, s.act f = .next t ∧ t.pending = s.pending := by
  by_cases h : s.dev.on = true
  · exact ⟨_, State.act_on s f h, rfl⟩
  · exact ⟨s, State.act_off s f (by simpa using h), rfl⟩

/-- Whatever a command that travels on the hub rings does, the queue stays. -/
theorem State.actHub_next (s : State) (f : Dev → Dev) : ∃ t, s.actHub f = .next t ∧ t.pending = s.pending := by
  by_cases h : s.dev.ringsOn = true
  · exact ⟨_, State.actHub_on s f h, rfl⟩
  · exact ⟨s, State.actHub_off s f (by simpa using h), rfl⟩

/-- Whatever a command of the AON domain does, the queue stays. -/
theorem State.actAon_next (s : State) (f : Dev → Dev) : ∃ t, s.actAon f = .next t ∧ t.pending = s.pending := by
  by_cases h : s.dev.aonOn = true
  · exact ⟨_, State.actAon_on s f h, rfl⟩
  · exact ⟨s, State.actAon_off s f (by simpa using h), rfl⟩

/-- Whatever a command of a pin does, the queue stays. -/
theorem State.actPin_next (s : State) (f : Dev → Dev) : ∃ t, s.actPin f = .next t ∧ t.pending = s.pending :=
  ⟨_, rfl, rfl⟩

/-- How to show what a command of the powered device does. -/
theorem answers_act {c : Instr} {s : State} {f : Dev → Dev} {P : Dev → Prop} (e : exec c s = s.act f) (h : s.dev.on = true)
    (hp : P (f s.dev)) : Answers c s P :=
  ⟨{ s with dev := f s.dev }, by rw [e, State.act_on s f h], rfl, hp⟩

/-- How to show what a command that travels on the hub rings does. -/
theorem answers_actHub {c : Instr} {s : State} {f : Dev → Dev} {P : Dev → Prop} (e : exec c s = s.actHub f)
    (h : s.dev.ringsOn = true) (hp : P (f s.dev)) : Answers c s P :=
  ⟨{ s with dev := f s.dev }, by rw [e, State.actHub_on s f h], rfl, hp⟩

/-- How to show what a command of the AON domain does. -/
theorem answers_actAon {c : Instr} {s : State} {f : Dev → Dev} {P : Dev → Prop} (e : exec c s = s.actAon f)
    (h : s.dev.aonOn = true) (hp : P (f s.dev)) : Answers c s P :=
  ⟨{ s with dev := f s.dev }, by rw [e, State.actAon_on s f h], rfl, hp⟩

/-- How to show what a command of a pin, a supply or the management port does. -/
theorem answers_actPin {c : Instr} {s : State} {f : Dev → Dev} {P : Dev → Prop} (e : exec c s = s.actPin f)
    (hp : P (f s.dev)) : Answers c s P :=
  ⟨{ s with dev := f s.dev }, e, rfl, hp⟩

end Sys2Proof.Machine
end

