-- ==== Sys2Proof/Laws/Dispatch.lean ====
section
/-!
SUPPORT. What exec runs for each command: one lemma per command, all by definition.
-/

namespace Sys2Proof.Machine

@[simp] theorem exec_beatRelease (s : State) : exec (.beatRelease) s =
    s.act (fun d => d.beatRelease) := rfl
@[simp] theorem exec_releaseReachesHeddles (gpio : Nat) (s : State) : exec (.releaseReachesHeddles gpio) s =
    s.act (fun d => d.releaseAt gpio) := rfl
@[simp] theorem exec_plainPick (gb h k : Nat) (s : State) : exec (.plainPick gb h k) s =
    s.act (fun d => d.singlePick (fun x => x == .plain) gb h k) := rfl
@[simp] theorem exec_mrd (gb h : Nat) (s : State) : exec (.mrd gb h) s =
    s.act (fun d => d.mrd gb h) := rfl
@[simp] theorem exec_mwr (gb h : Nat) (s : State) : exec (.mwr gb h) s =
    s.act (fun d => d.mwr gb h) := rfl
@[simp] theorem exec_drd (gb h : Nat) (s : State) : exec (.drd gb h) s =
    s.act (fun d => d.drd gb h) := rfl
@[simp] theorem exec_dwr (gb h : Nat) (s : State) : exec (.dwr gb h) s =
    s.act (fun d => d.dwr gb h) := rfl
@[simp] theorem exec_put (gb h k : Nat) (s : State) : exec (.put gb h k) s =
    s.act (fun d => d.singlePick (fun x => x == .put) gb h k) := rfl
@[simp] theorem exec_edge (gb h k : Nat) (s : State) : exec (.edge gb h k) s =
    s.act (fun d => d.singlePick (fun x => x == .edge) gb h k) := rfl
@[simp] theorem exec_fail (gb h : Nat) (s : State) : exec (.fail gb h) s =
    s.act (fun d => d.fail gb h) := rfl
@[simp] theorem exec_brk (gb h k : Nat) (s : State) : exec (.brk gb h k) s =
    s.act (fun d => d.singlePick (fun x => x == .brk) gb h k) := rfl
@[simp] theorem exec_reservedEncoding (gb h k : Nat) (s : State) : exec (.reservedEncoding gb h k) s =
    s.act (fun d => d.singlePick PickKind.isReserved gb h k) := rfl
@[simp] theorem exec_harnessHandshakeClose (gb h : Nat) (s : State) : exec (.harnessHandshakeClose gb h) s =
    s.act (fun d => d.handshakeClose gb h) := rfl
@[simp] theorem exec_windowDelivery (gb h k : Nat) (s : State) : exec (.windowDelivery gb h k) s =
    s.act (fun d => d.deliverHeld gb h k) := rfl
@[simp] theorem exec_beamOutLaneClose (gb h j pick : Nat) (s : State) : exec (.beamOutLaneClose gb h j pick) s =
    s.act (fun d => d.laneClose gb h j pick) := rfl
@[simp] theorem exec_pull (gb h : Nat) (s : State) : exec (.pull gb h) s =
    s.act (fun d => d.pull gb h) := rfl
@[simp] theorem exec_ringInject (gb entry : Nat) (s : State) : exec (.ringInject gb entry) s =
    s.act (fun d => d.ringInject gb entry) := rfl
@[simp] theorem exec_ringHop (i : Nat) (s : State) : exec (.ringHop i) s =
    s.act (fun d => d.ringHop i) := rfl
@[simp] theorem exec_ringExtract (gb entry : Nat) (s : State) : exec (.ringExtract gb entry) s =
    s.act (fun d => d.ringExtract gb entry) := rfl
@[simp] theorem exec_weftGatewayHandoff (i : Nat) (s : State) : exec (.weftGatewayHandoff i) s =
    s.act (fun d => d.gatewayHandoff i) := rfl
@[simp] theorem exec_tapFifoDrain (gb : Nat) (s : State) : exec (.tapFifoDrain gb) s =
    s.act (fun d => d.tapDrain gb) := rfl
@[simp] theorem exec_failStagingDrain (gb : Nat) (s : State) : exec (.failStagingDrain gb) s =
    s.act (fun d => d.failDrain gb) := rfl
@[simp] theorem exec_reedComplete (s : State) : exec (.reedComplete) s =
    s.act (fun d => d.reedComplete) := rfl
@[simp] theorem exec_commit (s : State) : exec (.commit) s =
    s.act (fun d => d.commit) := rfl
@[simp] theorem exec_faultFlag (f : FaultIn) (s : State) : exec (.faultFlag f) s =
    s.act (fun d => d.faultFlag f.fault f.hits) := rfl
@[simp] theorem exec_attemptAbort (s : State) : exec (.attemptAbort) s =
    s.act (fun d => d.attemptAbort) := rfl
@[simp] theorem exec_fixComplete (s : State) : exec (.fixComplete) s =
    s.act (fun d => d.fixComplete) := rfl
@[simp] theorem exec_repairStepComplete (s : State) : exec (.repairStepComplete) s =
    s.act (fun d => d.repairStep) := rfl
@[simp] theorem exec_stallWatchdogExpiry (s : State) : exec (.stallWatchdogExpiry) s =
    s.act (fun d => d.stallExpiry) := rfl
@[simp] theorem exec_journalSpill (gb h : Nat) (s : State) : exec (.journalSpill gb h) s =
    s.actHub (fun d => d.journalSpill gb h) := rfl
@[simp] theorem exec_spillReadback (gb : Nat) (s : State) : exec (.spillReadback gb) s =
    s.actHub (fun d => d.spillReadback gb) := rfl
@[simp] theorem exec_deepJournalHandoff (s : State) : exec (.deepJournalHandoff) s =
    s.actHub (fun d => d.journalHandoff) := rfl
@[simp] theorem exec_lineInvalidate (gb : Nat) (s : State) : exec (.lineInvalidate gb) s =
    s.act (fun d => d.lineInvalidate gb) := rfl
@[simp] theorem exec_deepReadReturn (gb h pick : Nat) (s : State) : exec (.deepReadReturn gb h pick) s =
    s.actHub (fun d => d.deepReturn gb h pick) := rfl
@[simp] theorem exec_mailboxPortLServe (bank : Nat) (deep : Option (Nat × Nat × Nat)) (rel : MbxRel) (s : State) : exec
      (.mailboxPortLServe bank deep rel) s =
    s.actHub (fun d => d.portLServe bank deep rel) := rfl
@[simp] theorem exec_mailboxPortSAccess (mid bank word : Nat) (wr : Option Word) (rel : MbxRel) (s : State) : exec
      (.mailboxPortSAccess mid bank word wr rel) s =
    s.actHub (fun d => d.portSAccess mid bank word wr rel) := rfl
@[simp] theorem exec_hbmOccIntervalEnd (s : State) : exec (.hbmOccIntervalEnd) s =
    s.act (fun d => d.occIntervalEnd) := rfl
@[simp] theorem exec_start (timed : Bool) (s : State) : exec (.start timed) s =
    s.actHub (fun d => d.start timed) := rfl
@[simp] theorem exec_stop (s : State) : exec (.stop) s =
    s.actHub (fun d => d.stop) := rfl
@[simp] theorem exec_cancel (s : State) : exec (.cancel) s =
    s.actHub (fun d => d.cancel) := rfl
@[simp] theorem exec_haltNLow (s : State) : exec (.haltNLow) s =
    s.actPin (fun d => d.haltFall) := rfl
@[simp] theorem exec_slotStart (s : State) : exec (.slotStart) s =
    s.act (fun d => d.slotStart) := rfl
@[simp] theorem exec_pinResponseTimeout (s : State) : exec (.pinResponseTimeout) s =
    s.act (fun d => d.pinTimeout) := rfl
@[simp] theorem exec_timedLaunch (e : Option Nat) (s : State) : exec (.timedLaunch e) s =
    s.act (fun d => d.timedLaunch e) := rfl
@[simp] theorem exec_ptpOffsetSample (e : Word) (s : State) : exec (.ptpOffsetSample e) s =
    s.act (fun d => d.offsetSample e) := rfl
@[simp] theorem exec_tsyncInputEdge (s : State) : exec (.tsyncInputEdge) s =
    s.act (fun d => d.tsyncIn) := rfl
@[simp] theorem exec_tsyncOutputEdge (s : State) : exec (.tsyncOutputEdge) s =
    s.act (fun d => d.tsyncOut) := rfl
@[simp] theorem exec_jumpAccept (s : State) : exec (.jumpAccept) s =
    s.actHub (fun d => d.jumpAccept) := rfl
@[simp] theorem exec_jumpClear (s : State) : exec (.jumpClear) s =
    s.actHub (fun d => d.jumpClear) := rfl
@[simp] theorem exec_holdoverTimeout (s : State) : exec (.holdoverTimeout) s =
    s.act (fun d => d.holdover) := rfl
@[simp] theorem exec_ptpRxMessage (port : Nat) (event : Bool) (frame : List Byte) (s : State) : exec (.ptpRxMessage port
      event frame) s =
    s.actHub (fun d => d.ptpRx port event frame) := rfl
@[simp] theorem exec_ptpTxDescriptor (port : Nat) (s : State) : exec (.ptpTxDescriptor port) s =
    s.actHub (fun d => d.ptpTx port) := rfl
@[simp] theorem exec_txtsPop (port : Nat) (s : State) : exec (.txtsPop port) s =
    s.actHub (fun d => d.txtsPop port) := rfl
@[simp] theorem exec_query (src tag item : Nat) (s : State) : exec (.query src tag item) s =
    s.act (fun d => d.query src tag item) := rfl
@[simp] theorem exec_peerStart (src tag : Nat) (timed : Bool) (t : Word) (s : State) : exec (.peerStart src tag timed t) s =
    s.act (fun d => d.peerStart src tag timed t) := rfl
@[simp] theorem exec_refuse (reason : Nat) (s : State) : exec (.refuse reason) s =
    s.act (fun d => d.refuse reason) := rfl
@[simp] theorem exec_haltNote (s : State) : exec (.haltNote) s =
    s.act (fun d => d.haltNote) := rfl
@[simp] theorem exec_solo (beat : Nat) (s : State) : exec (.solo beat) s =
    s.act (fun d => d.solo beat) := rfl
@[simp] theorem exec_peerReply (src cmd tag args : Nat) (s : State) : exec (.peerReply src cmd tag args) s =
    s.act (fun d => d.peerAnswer src cmd tag args) := rfl
@[simp] theorem exec_vddAonUp (s : State) : exec (.vddAonUp) s =
    s.actPin (fun d => d.aonRise) := rfl
@[simp] theorem exec_crystalDetectEnd (present : Bool) (s : State) : exec (.crystalDetectEnd present) s =
    s.actPin (fun d => d.crystalEnd present) := rfl
@[simp] theorem exec_pllLock (dom : Nat) (s : State) : exec (.pllLock dom) s =
    s.actPin (fun d => d.pllLock dom) := rfl
@[simp] theorem exec_pllLockTimeout (dom : Nat) (s : State) : exec (.pllLockTimeout dom) s =
    s.actPin (fun d => d.pllTimeout dom) := rfl
@[simp] theorem exec_porstNFall (s : State) : exec (.porstNFall) s =
    s.actPin (fun d => d.porstFall) := rfl
@[simp] theorem exec_porstNRise (straps : Nat) (s : State) : exec (.porstNRise straps) s =
    s.actPin (fun d => d.porstRise straps) := rfl
@[simp] theorem exec_charterRead (s : State) : exec (.charterRead) s =
    s.act (fun d => d.charterRead) := rfl
@[simp] theorem exec_repairApply (s : State) : exec (.repairApply) s =
    s.act (fun d => d.repairApply) := rfl
@[simp] theorem exec_startupBistComplete (found : List Word) (s : State) : exec (.startupBistComplete found) s =
    s.act (fun d => d.startupBist found) := rfl
@[simp] theorem exec_hbmTrained (failed : Nat) (s : State) : exec (.hbmTrained failed) s =
    s.act (fun d => d.hbmTrained failed) := rfl
@[simp] theorem exec_wrstNFall (test : Option (Nat × Nat)) (s : State) : exec (.wrstNFall test) s =
    s.actPin (fun d => d.wrstFall test) := rfl
@[simp] theorem exec_wrstNRise (s : State) : exec (.wrstNRise) s =
    s.actPin (fun d => d.wrstRise) := rfl
@[simp] theorem exec_load (slot : Nat) (s : State) : exec (.load slot) s =
    s.actHub (fun d => d.loadCmd slot) := rfl
@[simp] theorem exec_abort (s : State) : exec (.abort) s =
    s.actHub (fun d => d.loadAbort) := rfl
@[simp] theorem exec_loadEntryAttempt (medium : List Byte) (s : State) : exec (.loadEntryAttempt medium) s =
    s.actHub (fun d => d.entryAttempt medium) := rfl
@[simp] theorem exec_emmcRetry (r : EmmcEnd) (s : State) : exec (.emmcRetry r) s =
    s.act (fun d => d.emmcRetry r.status r.again) := rfl
@[simp] theorem exec_loadComplete (cacheBad : Bool) (s : State) : exec (.loadComplete cacheBad) s =
    s.actHub (fun d => d.loadComplete cacheBad) := rfl
@[simp] theorem exec_doneSeenHigh (s : State) : exec (.doneSeenHigh) s =
    s.act (fun d => d.doneSeen) := rfl
@[simp] theorem exec_autoStart (s : State) : exec (.autoStart) s =
    s.act (fun d => d.autoStart) := rfl
@[simp] theorem exec_doneTimeout (s : State) : exec (.doneTimeout) s =
    s.act (fun d => d.doneTimeout) := rfl
@[simp] theorem exec_doneFall (s : State) : exec (.doneFall) s =
    s.act (fun d => d.doneFall) := rfl
@[simp] theorem exec_reloadBay (bay : Nat) (slot : Option Nat) (s : State) : exec (.reloadBay bay slot) s =
    s.actHub (fun d => d.reloadBay bay slot) := rfl
@[simp] theorem exec_abortBay (s : State) : exec (.abortBay) s =
    s.actHub (fun d => d.abortBay) := rfl
@[simp] theorem exec_bayStaged (medium : List Byte) (s : State) : exec (.bayStaged medium) s =
    s.actHub (fun d => d.bayStaged medium) := rfl
@[simp] theorem exec_bayWriteDone (s : State) : exec (.bayWriteDone) s =
    s.actHub (fun d => d.bayWritten) := rfl
@[simp] theorem exec_flashRead (mid : Nat) (s : State) : exec (.flashRead mid) s =
    s.actHub (fun d => d.regCommand mid R.CHR_FL_CMD 1) := rfl
@[simp] theorem exec_flashProgram (mid : Nat) (s : State) : exec (.flashProgram mid) s =
    s.actHub (fun d => d.regCommand mid R.CHR_FL_CMD 2) := rfl
@[simp] theorem exec_flashErase (mid : Nat) (s : State) : exec (.flashErase mid) s =
    s.actHub (fun d => d.regCommand mid R.CHR_FL_CMD 3) := rfl
@[simp] theorem exec_flashCmdComplete (verified : Bool) (s : State) : exec (.flashCmdComplete verified) s =
    s.actAon (fun d => d.flashEnd verified) := rfl
@[simp] theorem exec_blockLockGained (ph : Nat) (s : State) : exec (.blockLockGained ph) s =
    s.act (fun d => d.lockGained ph) := rfl
@[simp] theorem exec_blockLockLost (ph : Nat) (s : State) : exec (.blockLockLost ph) s =
    s.act (fun d => d.lockLostRx ph) := rfl
@[simp] theorem exec_idleBlockRx (ph ack status : Nat) (nak rxReady : Bool) (s : State) : exec (.idleBlockRx ph ack
      status nak rxReady) s =
    s.act (fun d => d.idleRx ph ack status nak rxReady) := rfl
@[simp] theorem exec_trainBlockRx (ph : Nat) (t : Train) (lane : Nat) (eye : Bool) (ask : Nat) (s : State) :
    exec (.trainBlockRx ph t lane eye ask) s = s.act (fun d => d.trainBlock ph t lane eye ask) := rfl
@[simp] theorem exec_pwrBlockRx (ph code : Nat) (s : State) : exec (.pwrBlockRx ph code) s =
    s.act (fun d => d.pwrBlock ph code) := rfl
@[simp] theorem exec_loopBlockRx (lane : Nat) (enter : Bool) (s : State) : exec (.loopBlockRx lane enter) s =
    s.act (fun d => d.loopBlock lane enter) := rfl
@[simp] theorem exec_reservedCtypeRx (lane : Nat) (s : State) : exec (.reservedCtypeRx lane) s =
    s.act (fun d => d.reservedBlock lane) := rfl
@[simp] theorem exec_laneTrainingTimeout (ph : Nat) (s : State) : exec (.laneTrainingTimeout ph) s =
    s.act (fun d => d.trainingTimeout ph) := rfl
@[simp] theorem exec_trainingRetryTimer (ph : Nat) (s : State) : exec (.trainingRetryTimer ph) s =
    s.act (fun d => d.trainingRetryRx ph) := rfl
@[simp] theorem exec_fastRetrainTimeout (ph : Nat) (s : State) : exec (.fastRetrainTimeout ph) s =
    s.act (fun d => d.retrainTimeout ph) := rfl
@[simp] theorem exec_respRx (lane seq ack status beat bm1 ns : Nat) (nak : Bool) (compare : Nat) (samples : List Word)
      (s : State) : exec (.respRx lane seq ack status beat bm1 ns nak compare samples) s =
    s.act (fun d => d.respIn lane seq ack status beat bm1 ns nak compare samples) := rfl
@[simp] theorem exec_msgRx (lane seq ack status : Nat) (nak : Bool) (ws : List Word) (s : State) : exec (.msgRx lane seq
      ack status nak ws) s =
    s.act (fun d => d.msgRx lane seq ack status nak ws) := rfl
@[simp] theorem exec_frameCrcFail (ph : Nat) (isFrame badCrc : Bool) (s : State) : exec (.frameCrcFail ph isFrame badCrc) s =
    s.act (fun d => d.crcRx ph isFrame badCrc) := rfl
@[simp] theorem exec_resendTimeout (lane : Nat) (s : State) : exec (.resendTimeout lane) s =
    s.act (fun d => d.resend lane) := rfl
@[simp] theorem exec_holdFramePeriod (s : State) : exec (.holdFramePeriod) s =
    s.act (fun d => d.holdPeriod) := rfl
@[simp] theorem exec_lanePowerRequest (lane req : Nat) (s : State) : exec (.lanePowerRequest lane req) s =
    s.actHub (fun d => d.lanePower lane req) := rfl
@[simp] theorem exec_loopbackRequest (lane mode : Nat) (prbs : Bool) (s : State) : exec (.loopbackRequest lane mode prbs) s =
    s.actHub (fun d => d.loopback lane mode prbs) := rfl
@[simp] theorem exec_send (lane len : Nat) (timed : Bool) (s : State) : exec (.send lane len timed) s =
    s.actHub (fun d => d.msgSend lane len timed) := rfl
@[simp] theorem exec_msgAbort (s : State) : exec (.msgAbort) s =
    s.actHub (fun d => d.msgAbort) := rfl
@[simp] theorem exec_msgDataWrite (w : Word) (s : State) : exec (.msgDataWrite w) s =
    s.actHub (fun d => d.msgData w) := rfl
@[simp] theorem exec_pop (s : State) : exec (.pop) s =
    s.actHub (fun d => d.msgPop) := rfl
@[simp] theorem exec_rxmsgDataRead (s : State) : exec (.rxmsgDataRead) s =
    s.actHub (fun d => d.rxData.1) := rfl
@[simp] theorem exec_linkUp (link : Nat) (full : Bool) (s : State) : exec (.linkUp link full) s =
    s.act (fun d => d.linkUpEvent link full) := rfl
@[simp] theorem exec_linkDown (link : Nat) (s : State) : exec (.linkDown link) s =
    s.act (fun d => d.linkDownEvent link) := rfl
@[simp] theorem exec_alignBlockRx (link : Nat) (lost : Bool) (s : State) : exec (.alignBlockRx link lost) s =
    s.act (fun d => d.alignBlock link lost) := rfl
@[simp] theorem exec_bundleFrameRx (link seq ack : Nat) (nak : Bool) (beat flow0 : Nat) (vals : List Nat) (s : State) :
      exec (.bundleFrameRx link seq ack nak beat flow0 vals) s =
    s.act (fun d => d.bundleRx link seq ack nak beat flow0 vals) := rfl
@[simp] theorem exec_markFrameRx (link seq ack : Nat) (nak barrier commitMark token : Bool) (origin beat : Nat) (tb :
      Word) (s : State) : exec (.markFrameRx link seq ack nak barrier commitMark token origin beat tb) s =
    s.act (fun d => d.markRx link seq ack nak barrier commitMark token origin beat tb) := rfl
@[simp] theorem exec_peerFrameRx (link seq ack : Nat) (nak : Bool) (src dst : Nat) (bcast : Bool) (cmd tag args : Nat)
      (s : State) : exec (.peerFrameRx link seq ack nak src dst bcast cmd tag args) s =
    s.act (fun d => d.peerRx link seq ack nak src dst bcast cmd tag args) := rfl
@[simp] theorem exec_statusFrameRx (link seq ack : Nat) (nak : Bool) (sys pos role size topo far : Nat) (s : State) :
      exec (.statusFrameRx link seq ack nak sys pos role size topo far) s =
    s.act (fun d => d.statusRx link seq ack nak sys pos role size topo far) := rfl
@[simp] theorem exec_doneFrameRx (link seq ack : Nat) (nak : Bool) (origin : Nat) (released : Bool) (gen : Nat) (s :
      State) : exec (.doneFrameRx link seq ack nak origin released gen) s =
    s.act (fun d => d.doneRx link seq ack nak origin released gen) := rfl
@[simp] theorem exec_statusSendTimer (s : State) : exec (.statusSendTimer) s =
    s.act (fun d => d.statusTimer) := rfl
@[simp] theorem exec_doneRepeatTimer (s : State) : exec (.doneRepeatTimer) s =
    s.act (fun d => d.doneTimer) := rfl
@[simp] theorem exec_weftResendTimeout (link : Nat) (s : State) : exec (.weftResendTimeout link) s =
    s.act (fun d => d.linkResend link) := rfl
@[simp] theorem exec_linkLostTimeout (link : Nat) (s : State) : exec (.linkLostTimeout link) s =
    s.act (fun d => d.linkLost link) := rfl
@[simp] theorem exec_datagramRx (port ip udp destIp destUdp : Nat) (sumOk : Bool) (data : List Byte) (s : State) : exec
      (.datagramRx port ip udp destIp destUdp sumOk data) s =
    s.act (fun d => d.datagram port ip udp destIp destUdp sumOk data) := rfl
@[simp] theorem exec_info (port : Nat) (s : State) : exec (.info port) s =
    s.act (fun d => d.ethInfo port) := rfl
@[simp] theorem exec_regRead (port : Nat) (s : State) : exec (.regRead port) s =
    s.actHub (fun d => d.ethRegRead port) := rfl
@[simp] theorem exec_regWrite (port : Nat) (s : State) : exec (.regWrite port) s =
    s.actHub (fun d => d.ethRegWrite port) := rfl
@[simp] theorem exec_memRead (port : Nat) (s : State) : exec (.memRead port) s =
    s.actHub (fun d => d.ethMemRead port) := rfl
@[simp] theorem exec_memWrite (port : Nat) (s : State) : exec (.memWrite port) s =
    s.actHub (fun d => d.ethMemWrite port) := rfl
@[simp] theorem exec_logRead (port : Nat) (s : State) : exec (.logRead port) s =
    s.actHub (fun d => d.ethLogRead port) := rfl
@[simp] theorem exec_subscribe (port : Nat) (s : State) : exec (.subscribe port) s =
    s.act (fun d => d.ethSubscribe port) := rfl
@[simp] theorem exec_mgtRead (f : MgtFrame) (addr n : Nat) (s : State) : exec (.mgtRead f addr n) s =
    s.actPin (fun d => d.mgRequest f (fun d via => d.mgRead via addr n)) := rfl
@[simp] theorem exec_mgtWrite (f : MgtFrame) (addr : Nat) (ws : List Word) (s : State) : exec (.mgtWrite f addr ws) s =
    s.actPin (fun d => d.mgRequest f (fun d via => d.mgWrite via addr ws)) := rfl
@[simp] theorem exec_mgtStatus (q : MgtStatusReq) (s : State) : exec (.mgtStatus q) s =
    s.actPin (fun d => d.mgRequest q.frame (fun d via => d.mgStatus via q.n q.addr)) := rfl
@[simp] theorem exec_unlockSet (jtag : Bool) (timeout : Nat) (s : State) : exec (.unlockSet jtag timeout) s =
    s.actHub (fun d => d.unlockSet jtag timeout) := rfl
@[simp] theorem exec_unlockTimeout (s : State) : exec (.unlockTimeout) s =
    s.act (fun d => d.unlockTimeout) := rfl
@[simp] theorem exec_arm (u : Nat) (s : State) : exec (.arm u) s =
    s.actHub (fun d => d.capArm u) := rfl
@[simp] theorem exec_capStop (u : Nat) (s : State) : exec (.capStop u) s =
    s.actHub (fun d => d.capStop u) := rfl
@[simp] theorem exec_trigger (u : Nat) (s : State) : exec (.trigger u) s =
    s.act (fun d => d.capTrigger u) := rfl
@[simp] theorem exec_recordComplete (u : Nat) (s : State) : exec (.recordComplete u) s =
    s.act (fun d => d.recordComplete u) := rfl
@[simp] theorem exec_captureRspTimeout (u : Nat) (s : State) : exec (.captureRspTimeout u) s =
    s.act (fun d => d.captureTimeout u) := rfl
@[simp] theorem exec_recordWritten (u : Nat) (s : State) : exec (.recordWritten u) s =
    s.actHub (fun d => d.recordWritten u) := rfl
@[simp] theorem exec_overflowMark (u : Nat) (s : State) : exec (.overflowMark u) s =
    s.actHub (fun d => d.overflowMark u) := rfl
@[simp] theorem exec_failMapOr (s : State) : exec (.failMapOr) s =
    s.actHub (fun d => d.failMapOr) := rfl
@[simp] theorem exec_clear (mid : Nat) (s : State) : exec (.clear mid) s =
    s.actHub (fun d => d.fmpClear (d.who mid)) := rfl
@[simp] theorem exec_clearComplete (map : Nat) (s : State) : exec (.clearComplete map) s =
    s.actHub (fun d => d.clearComplete map) := rfl
@[simp] theorem exec_appliedRead (s : State) : exec (.appliedRead) s =
    s.actHub (fun d => d.appliedLatch) := rfl
@[simp] theorem exec_beatCountRead (s : State) : exec (.beatCountRead) s =
    s.actHub (fun d => d.beatLatch) := rfl
@[simp] theorem exec_sum (s : Nat) (st : State) : exec (.sum s) st =
    execSum s st := rfl
@[simp] theorem exec_dif (s : Nat) (st : State) : exec (.dif s) st =
    execDif s st := rfl
@[simp] theorem exec_conj (s : Nat) (st : State) : exec (.conj s) st =
    execConj s st := rfl
@[simp] theorem exec_disj (s : Nat) (st : State) : exec (.disj s) st =
    execDisj s st := rfl
@[simp] theorem exec_excl (s : Nat) (st : State) : exec (.excl s) st =
    execExcl s st := rfl
@[simp] theorem exec_shl (s : Nat) (st : State) : exec (.shl s) st =
    execShl s st := rfl
@[simp] theorem exec_shr (s : Nat) (st : State) : exec (.shr s) st =
    execShr s st := rfl
@[simp] theorem exec_sha (s : Nat) (st : State) : exec (.sha s) st =
    execSha s st := rfl
@[simp] theorem exec_less (s : Nat) (st : State) : exec (.less s) st =
    execLess s st := rfl
@[simp] theorem exec_lessu (s : Nat) (st : State) : exec (.lessu s) st =
    execLessu s st := rfl
@[simp] theorem exec_prod (s : Nat) (st : State) : exec (.prod s) st =
    execProd s st := rfl
@[simp] theorem exec_prodhs (s : Nat) (st : State) : exec (.prodhs s) st =
    execProdhs s st := rfl
@[simp] theorem exec_prodhu (s : Nat) (st : State) : exec (.prodhu s) st =
    execProdhu s st := rfl
@[simp] theorem exec_sumk (s : Nat) (st : State) : exec (.sumk s) st =
    execSumk s st := rfl
@[simp] theorem exec_conjk (s : Nat) (st : State) : exec (.conjk s) st =
    execConjk s st := rfl
@[simp] theorem exec_disjk (s : Nat) (st : State) : exec (.disjk s) st =
    execDisjk s st := rfl
@[simp] theorem exec_exclk (s : Nat) (st : State) : exec (.exclk s) st =
    execExclk s st := rfl
@[simp] theorem exec_lessk (s : Nat) (st : State) : exec (.lessk s) st =
    execLessk s st := rfl
@[simp] theorem exec_topk (s : Nat) (st : State) : exec (.topk s) st =
    execTopk s st := rfl
@[simp] theorem exec_get (s : Nat) (st : State) : exec (.get s) st =
    execGet s st := rfl
@[simp] theorem exec_sto (s : Nat) (st : State) : exec (.sto s) st =
    execSto s st := rfl
@[simp] theorem exec_ifeq (s : Nat) (st : State) : exec (.ifeq s) st =
    execIfeq s st := rfl
@[simp] theorem exec_ifne (s : Nat) (st : State) : exec (.ifne s) st =
    execIfne s st := rfl
@[simp] theorem exec_iflt (s : Nat) (st : State) : exec (.iflt s) st =
    execIflt s st := rfl
@[simp] theorem exec_ifge (s : Nat) (st : State) : exec (.ifge s) st =
    execIfge s st := rfl
@[simp] theorem exec_iflo (s : Nat) (st : State) : exec (.iflo s) st =
    execIflo s st := rfl
@[simp] theorem exec_ifhs (s : Nat) (st : State) : exec (.ifhs s) st =
    execIfhs s st := rfl
@[simp] theorem exec_leap (s : Nat) (st : State) : exec (.leap s) st =
    execLeap s st := rfl
@[simp] theorem exec_via (s : Nat) (st : State) : exec (.via s) st =
    execVia s st := rfl
@[simp] theorem exec_macd (s : Nat) (st : State) : exec (.macd s) st =
    execMacd s st := rfl
@[simp] theorem exec_macp (s : Nat) (st : State) : exec (.macp s) st =
    execMacp s st := rfl
@[simp] theorem exec_ext (s : Nat) (st : State) : exec (.ext s) st =
    execExt s st := rfl
@[simp] theorem exec_clra (s : Nat) (st : State) : exec (.clra s) st =
    execClra s st := rfl
@[simp] theorem exec_mva (s : Nat) (st : State) : exec (.mva s) st =
    execMva s st := rfl
@[simp] theorem exec_mvta (s : Nat) (st : State) : exec (.mvta s) st =
    execMvta s st := rfl
@[simp] theorem exec_ldo (s : Nat) (st : State) : exec (.ldo s) st =
    execLdo s st := rfl
@[simp] theorem exec_rdcw (s : Nat) (st : State) : exec (.rdcw s) st =
    execRdcw s st := rfl
@[simp] theorem exec_wrcw (s : Nat) (st : State) : exec (.wrcw s) st =
    execWrcw s st := rfl
@[simp] theorem exec_fence (s : Nat) (st : State) : exec (.fence s) st =
    execFence s st := rfl
@[simp] theorem exec_clean (s : Nat) (st : State) : exec (.clean s) st =
    execClean s st := rfl
@[simp] theorem exec_inval (s : Nat) (st : State) : exec (.inval s) st =
    execInval s st := rfl
@[simp] theorem exec_iinv (s : Nat) (st : State) : exec (.iinv s) st =
    execIinv s st := rfl
@[simp] theorem exec_post (s : Nat) (st : State) : exec (.post s) st =
    execPost s st := rfl
@[simp] theorem exec_done (s : Nat) (st : State) : exec (.done s) st =
    execDone s st := rfl
@[simp] theorem exec_wait (s : Nat) (st : State) : exec (.wait s) st =
    execWait s st := rfl
@[simp] theorem exec_trap (s : Nat) (st : State) : exec (.trap s) st =
    execTrap s st := rfl
@[simp] theorem exec_untrap (s : Nat) (st : State) : exec (.untrap s) st =
    execUntrap s st := rfl
@[simp] theorem exec_waitWake (s : Nat) (st : State) : exec (.waitWake s) st =
    st.act (fun d => d.waitWake s) := rfl
@[simp] theorem exec_itemDispatch (s : State) : exec (.itemDispatch) s =
    s.act (fun d => d.itemDispatch) := rfl
@[simp] theorem exec_affinityAgeExpiry (level : Nat) (s : State) : exec (.affinityAgeExpiry level) s =
    s.act (fun d => d.ageExpiry level) := rfl
@[simp] theorem exec_runLimit (s : Nat) (st : State) : exec (.runLimit s) st =
    st.act (fun d => d.runLimit s) := rfl
@[simp] theorem exec_triggerFiring (s : State) : exec (.triggerFiring) s =
    s.act (fun d => d.triggerFiring) := rfl
@[simp] theorem exec_heldPost (s : State) : exec (.heldPost) s =
    s.act (fun d => d.heldPost) := rfl
@[simp] theorem exec_wscCancel (cls : Nat) (s : State) : exec (.wscCancel cls) s =
    s.actHub (fun d => d.wscCancel cls) := rfl
@[simp] theorem exec_wscPost (mid : Nat) (s : State) : exec (.wscPost mid) s =
    s.actHub (fun d => d.wscPost true (d.who mid).owner mid) := rfl
@[simp] theorem exec_wscPostDataWrite (w : Word) (s : State) : exec (.wscPostDataWrite w) s =
    s.actHub (fun d => d.wscPostData w) := rfl
@[simp] theorem exec_handover (mid bank : Nat) (v : Word) (s : State) : exec (.handover mid bank v) s =
    s.actHub (fun d => d.handoverBy mid bank v) := rfl
@[simp] theorem exec_read (q : HubReq) (mask : BitVec 64) (s : State) : exec (.read q mask) s =
    s.act (fun d => d.hubRead q mask) := rfl
@[simp] theorem exec_writeL (q : HubReq) (data : BitVec 512) (s : State) : exec (.writeL q data) s =
    s.act (fun d => d.hubWriteL q data) := rfl
@[simp] theorem exec_writeM (q : HubReq) (half : Bool) (mask : BitVec 32) (data : BitVec 256) (s : State) : exec
      (.writeM q half mask data) s =
    s.act (fun d => d.hubWriteM q half mask data) := rfl
@[simp] theorem exec_or (q : HubReq) (word : Nat) (bits : Word) (s : State) : exec (.or q word bits) s =
    s.act (fun d => d.hubOr q word bits) := rfl
@[simp] theorem exec_hubResponse (ring src dst tag : Nat) (s : State) : exec (.hubResponse ring src dst tag) s =
    s.act (fun d => d.hubResponse ring src dst tag) := rfl
@[simp] theorem exec_linkParityResend (ring dir node : Nat) (again : Bool) (s : State) : exec (.linkParityResend ring
      dir node again) s =
    s.act (fun d => d.parityResend ring dir node again) := rfl
@[simp] theorem exec_ringLinkFail (ring dir node : Nat) (s : State) : exec (.ringLinkFail ring dir node) s =
    s.act (fun d => d.ringFail ring dir node) := rfl
@[simp] theorem exec_gkSelWrite (mid : Nat) (v : Word) (s : State) : exec (.gkSelWrite mid v) s =
    s.actHub (fun d => d.regCommand mid R.GK_SEL v) := rfl
@[simp] theorem exec_gkEnt0Write (mid : Nat) (v : Word) (s : State) : exec (.gkEnt0Write mid v) s =
    s.actHub (fun d => d.regCommand mid R.GK_ENT0 v) := rfl
@[simp] theorem exec_go (mid c : Nat) (s : State) : exec (.go mid c) s =
    s.actHub (fun d => d.bobGo c (d.fwOf mid)) := rfl
@[simp] theorem exec_bobbinAbort (c : Nat) (s : State) : exec (.bobbinAbort c) s =
    s.actHub (fun d => d.bobAbort c) := rfl
@[simp] theorem exec_descriptorFetch (c : Nat) (s : State) : exec (.descriptorFetch c) s =
    s.act (fun d => d.descFetch c) := rfl
@[simp] theorem exec_bobbinResponse (r : BobAnswer) (s : State) : exec (.bobbinResponse r) s =
    s.act (fun d => d.bobResponse r.chan r.write) := rfl
@[simp] theorem exec_hbmRefresh (stack : Nat) (hot : Bool) (parityErrors : Nat) (s : State) : exec (.hbmRefresh stack
      hot parityErrors) s =
    s.act (fun d => d.hbmRefresh stack hot parityErrors) := rfl
@[simp] theorem exec_hbmScrubRead (addr : Nat) (u : Upset) (last : Bool) (s : State) : exec (.hbmScrubRead addr u last) s =
    s.act (fun d => d.scrubHbm addr u last) := rfl
@[simp] theorem exec_eccScrubRead (w : ScrubWord) (u : Upset) (s : State) : exec (.eccScrubRead w u) s =
    s.act (fun d => d.scrubWord w u) := rfl
@[simp] theorem exec_inject (mid : Nat) (s : State) : exec (.inject mid) s =
    s.actHub (fun d => d.regCommand mid R.ECC_INJ_CMD 1) := rfl
@[simp] theorem exec_run (mid targets : Nat) (s : State) : exec (.run mid targets) s =
    s.actHub (fun d => d.regCommand mid R.BST_CMD (w32 (1 + 256 * targets))) := rfl
@[simp] theorem exec_bistAbort (s : State) : exec (.bistAbort) s =
    s.actHub (fun d => d.bistAbort) := rfl
@[simp] theorem exec_bistRunComplete (found : List Word) (s : State) : exec (.bistRunComplete found) s =
    s.act (fun d => d.bistDone found) := rfl
@[simp] theorem exec_burnData (mid : Nat) (s : State) : exec (.burnData mid) s =
    s.actHub (fun d => d.regCommand mid R.FUS_CMD 1) := rfl
@[simp] theorem exec_burnValid (mid : Nat) (s : State) : exec (.burnValid mid) s =
    s.actHub (fun d => d.regCommand mid R.FUS_CMD 2) := rfl
@[simp] theorem exec_shadowAppend (mid : Nat) (s : State) : exec (.shadowAppend mid) s =
    s.actHub (fun d => d.regCommand mid R.FUS_CMD 3) := rfl
@[simp] theorem exec_shadowErase (mid : Nat) (s : State) : exec (.shadowErase mid) s =
    s.actHub (fun d => d.regCommand mid R.FUS_CMD 4) := rfl
@[simp] theorem exec_fuseRead (mid : Nat) (s : State) : exec (.fuseRead mid) s =
    s.actHub (fun d => d.regCommand mid R.FUS_CMD 5) := rfl
@[simp] theorem exec_fuseCmdComplete (verified : Bool) (s : State) : exec (.fuseCmdComplete verified) s =
    s.act (fun d => d.fuseEnd verified) := rfl
@[simp] theorem exec_repairRecord (verified : Bool) (s : State) : exec (.repairRecord verified) s =
    s.act (fun d => d.repairRecord verified) := rfl
@[simp] theorem exec_rollPreloadDone (pgb : Nat) (s : State) : exec (.rollPreloadDone pgb) s =
    s.actHub (fun d => d.rollPreload pgb) := rfl
@[simp] theorem exec_rollSwapDone (pgb : Nat) (s : State) : exec (.rollSwapDone pgb) s =
    s.act (fun d => d.rollSwap pgb) := rfl
@[simp] theorem exec_rollSlotTestDone (pgb : Nat) (found : List Word) (s : State) : exec (.rollSlotTestDone pgb found) s =
    s.act (fun d => d.rollTested pgb found) := rfl
@[simp] theorem exec_tmtRegionTest (cls addr : Nat) (faulty : Bool) (s : State) : exec (.tmtRegionTest cls addr faulty) s =
    s.act (fun d => d.tmtTest cls addr faulty) := rfl
@[simp] theorem exec_replaceEnd (hits : List Hit) (s : State) : exec (.replaceEnd hits) s = s.actHub (fun d => d.replaceDone hits) := rfl
@[simp] theorem exec_logEntryWrite (s : State) : exec (.logEntryWrite) s =
    s.actAon (fun d => d.logStep) := rfl
@[simp] theorem exec_logClear (mid : Nat) (s : State) : exec (.logClear mid) s =
    s.act (fun d => d.regCommand mid R.LOG_CTL (d.reg R.LOG_CTL ||| 2)) := rfl
@[simp] theorem exec_devLowRequest (mid : Nat) (s : State) : exec (.devLowRequest mid) s =
    s.actHub (fun d => d.regCommand mid R.PWR_DEV_REQ 1) := rfl
@[simp] theorem exec_lowEntryDone (s : State) : exec (.lowEntryDone) s =
    s.act (fun d => d.lowDone) := rfl
@[simp] theorem exec_devRunRequest (mid : Nat) (s : State) : exec (.devRunRequest mid) s =
    s.actHub (fun d => d.regCommand mid R.PWR_DEV_REQ 0) := rfl
@[simp] theorem exec_lowExitDone (s : State) : exec (.lowExitDone) s =
    s.act (fun d => d.runDone) := rfl
@[simp] theorem exec_devOffRequest (mid : Nat) (s : State) : exec (.devOffRequest mid) s =
    s.actHub (fun d => d.regCommand mid R.PWR_DEV_REQ 2) := rfl
@[simp] theorem exec_panelSleepRequest (mid : Nat) (s : State) : exec (.panelSleepRequest mid) s =
    s.actHub (fun d => d.regCommand mid R.PWR_PANEL_REQ 2) := rfl
@[simp] theorem exec_panelOffRequest (mid : Nat) (s : State) : exec (.panelOffRequest mid) s =
    s.actHub (fun d => d.regCommand mid R.PWR_PANEL_REQ 3) := rfl
@[simp] theorem exec_panelActiveRequest (mid : Nat) (idle : Bool) (s : State) : exec (.panelActiveRequest mid idle) s =
    s.actHub (fun d => d.regCommand mid R.PWR_PANEL_REQ (if idle then 1 else 0)) := rfl
@[simp] theorem exec_panelSleepEntered (panel : Nat) (s : State) : exec (.panelSleepEntered panel) s =
    s.actHub (fun d => d.panelSlept panel) := rfl
@[simp] theorem exec_panelWakeDone (panel : Nat) (cacheBad : Bool) (s : State) : exec (.panelWakeDone panel cacheBad) s =
    s.actHub (fun d => d.panelWoke panel cacheBad) := rfl
@[simp] theorem exec_panelWakeTimeout (panel : Nat) (s : State) : exec (.panelWakeTimeout panel) s =
    s.act (fun d => d.panelWakeTimeout panel) := rfl
@[simp] theorem exec_adaptTick (panel tp : Nat) (s : State) : exec (.adaptTick panel tp) s =
    s.act (fun d => d.adaptTick panel tp) := rfl
@[simp] theorem exec_watchSample (xs : List Nat) (s : State) : exec (.watchSample xs) s =
    s.actAon (fun d => d.watchSample xs) := rfl
@[simp] theorem exec_unpark (mid : Nat) (s : State) : exec (.unpark mid) s =
    s.actHub (fun d => d.regCommand mid R.WCH_CMD 1) := rfl
@[simp] theorem exec_wchRuleHiWrite (mid : Nat) (v : Word) (s : State) : exec (.wchRuleHiWrite mid v) s =
    s.actHub (fun d => d.regCommand mid R.WCH_RULE_HI v) := rfl
@[simp] theorem exec_tracePacket (s : State) : exec (.tracePacket) s =
    s.act (fun d => d.traceIn) := rfl
@[simp] theorem exec_traceSinkWrite (cs : List Nat) (s : State) : exec (.traceSinkWrite cs) s =
    s.actHub (fun d => d.traceSink cs) := rfl
@[simp] theorem exec_registerWrite (mid offset : Nat) (v : Word) (s : State) : exec (.registerWrite mid offset v) s =
    s.actHub (fun d => d.regCommand mid offset v) := rfl
@[simp] theorem exec_haltNHigh (s : State) : exec (.haltNHigh) s =
    s.actPin (fun d => d.haltRise) := rfl
@[simp] theorem exec_vddAonDown (s : State) : exec (.vddAonDown) s =
    s.actPin (fun d => d.aonFall) := rfl
@[simp] theorem exec_ethLinkStateChange (port : Nat) (up : Bool) (fec : Nat) (s : State) : exec (.ethLinkStateChange
      port up fec) s =
    s.act (fun d => d.ethLink port up fec) := rfl
@[simp] theorem exec_ethernetFrameRx (port : Nat) (f : EthFrame) (s : State) : exec (.ethernetFrameRx port f) s =
    s.act (fun d => d.ethFrame port f) := rfl
@[simp] theorem exec_jtagAccess (op addr n : Nat) (ws : List Word) (s : State) : exec (.jtagAccess op addr n ws) s =
    s.actPin (fun d => d.jtagRequest op addr n ws) := rfl
@[simp] theorem exec_illegalInstruction (s : Nat) (st : State) : exec (.illegalInstruction s) st =
    st.act (fun d => d.shIllegal s) := rfl
@[simp] theorem exec_clmStarveLimit (cl bank : Nat) (s : State) : exec (.clmStarveLimit cl bank) s =
    s.act (fun d => d.starveLimit cl bank) := rfl
@[simp] theorem exec_hubMonIntervalEnd (flits : Nat) (s : State) : exec (.hubMonIntervalEnd flits) s =
    s.act (fun d => d.monInterval flits) := rfl

end Sys2Proof.Machine
end

