-- ==== Sys2Proof/Laws/SMap.lean ====
section
/-!
SUPPORT. Sparse maps: reading after writing, and the canonical form that every operation keeps.
-/

namespace Sys2Proof.Machine

variable {α : Type}

/-! ### Reading -/

@[simp] theorem SMap.find_nil (k : Nat) : SMap.find ([] : SMap α) k = none := rfl
@[simp] theorem SMap.get_nil (dflt : α) (k : Nat) : SMap.get dflt [] k = dflt := rfl

theorem SMap.find_del_same (m : SMap α) (k : Nat) : SMap.find (SMap.del m k) k = none := by
  induction m with
  | nil => rfl
  | cons e t ih =>
    obtain ⟨a, v⟩ := e
    by_cases h : a = k
    · simp [SMap.del, h, ih]
    · simp [SMap.del, SMap.find, h, ih]

theorem SMap.find_del_other (m : SMap α) {k j : Nat} (h : j ≠ k) : SMap.find (SMap.del m k) j = SMap.find m j := by
  induction m with
  | nil => rfl
  | cons e t ih =>
    obtain ⟨a, v⟩ := e
    by_cases ha : a = k
    · have hj : a ≠ j := fun e => h (e ▸ ha)
      have hkj : k ≠ j := fun e => h e.symm
      simp [SMap.del, SMap.find, ha, hkj, ih]
    · by_cases hj : a = j
      · simp [SMap.del, SMap.find, hj, h]
      · simp [SMap.del, SMap.find, ha, hj, ih]

theorem SMap.find_ins_same (m : SMap α) (k : Nat) (v : α) (h : SMap.find m k = none) :
    SMap.find (SMap.ins m k v) k = some v := by
  induction m with
  | nil => simp [SMap.ins, SMap.find]
  | cons e t ih =>
    obtain ⟨a, w⟩ := e
    by_cases ha : a = k
    · simp [SMap.find, ha] at h
    · have ht : SMap.find t k = none := by simpa [SMap.find, ha] using h
      by_cases hlt : a < k
      · simp [SMap.ins, SMap.find, hlt, ha, ih ht]
      · simp [SMap.ins, SMap.find, hlt]

theorem SMap.find_ins_other (m : SMap α) {k j : Nat} (v : α) (h : j ≠ k) :
    SMap.find (SMap.ins m k v) j = SMap.find m j := by
  have hk : k ≠ j := fun e => h e.symm
  induction m with
  | nil => simp [SMap.ins, SMap.find, hk]
  | cons e t ih =>
    obtain ⟨a, w⟩ := e
    by_cases hlt : a < k
    · by_cases hj : a = j
      · subst hj; simp only [SMap.ins, hlt, if_true, SMap.find]
      · simp only [SMap.ins, hlt, if_true, SMap.find, hj, if_false, ih]
    · simp only [SMap.ins, hlt, if_false, SMap.find, hk]

/-- A key reads as it was last written. -/
@[simp] theorem SMap.get_put_same [DecidableEq α] (dflt : α) (m : SMap α) (k : Nat) (v : α) :
    SMap.get dflt (SMap.put dflt m k v) k = v := by
  by_cases h : v = dflt
  · simp [SMap.get, SMap.put, h, SMap.find_del_same]
  · simp [SMap.get, SMap.put, h, SMap.find_ins_same _ _ _ (SMap.find_del_same m k)]

/-- A write leaves every other key. -/
theorem SMap.get_put_other [DecidableEq α] (dflt dflt' : α) (m : SMap α) {k j : Nat} (v : α) (h : j ≠ k) :
    SMap.get dflt' (SMap.put dflt m k v) j = SMap.get dflt' m j := by
  by_cases hv : v = dflt
  · simp [SMap.get, SMap.put, hv, SMap.find_del_other m h]
  · simp [SMap.get, SMap.put, hv, SMap.find_ins_other _ v h, SMap.find_del_other m h]

/-! ### The canonical form -/

/-- The canonical form as a pairwise condition. -/
theorem SMap.wf_iff [DecidableEq α] (dflt : α) (m : SMap α) :
    SMap.wf dflt m = true ↔ m.Pairwise (fun x y => x.1 < y.1) ∧ ∀ e ∈ m, e.2 ≠ dflt := by
  induction m with
  | nil => simp [SMap.wf]
  | cons e t ih =>
    obtain ⟨a, v⟩ := e
    cases t with
    | nil => simp [SMap.wf]
    | cons f t =>
      obtain ⟨b, w⟩ := f
      simp only [SMap.wf, Bool.and_eq_true, decide_eq_true_eq, ih, List.pairwise_cons, List.mem_cons]
      constructor
      · rintro ⟨⟨hv, hab⟩, ⟨hb, ht⟩, hd⟩
        refine ⟨⟨?_, hb, ht⟩, ?_⟩
        · rintro x (rfl | hx)
          · exact hab
          · exact Nat.lt_trans hab (hb x hx)
        · rintro x (rfl | hx)
          · exact hv
          · exact hd x hx
      · rintro ⟨⟨ha, hb, ht⟩, hd⟩
        exact ⟨⟨hd (a, v) (Or.inl rfl), ha (b, w) (Or.inl rfl)⟩, ⟨hb, ht⟩, fun x hx => hd x (Or.inr hx)⟩

theorem SMap.mem_del {m : SMap α} {k : Nat} {e : Nat × α} : e ∈ SMap.del m k ↔ e ∈ m ∧ e.1 ≠ k := by
  induction m with
  | nil => simp [SMap.del]
  | cons f t ih =>
    obtain ⟨a, v⟩ := f
    by_cases h : a = k
    · simp only [SMap.del, h, if_true, ih, List.mem_cons]
      constructor
      · rintro ⟨h1, h2⟩; exact ⟨Or.inr h1, h2⟩
      · rintro ⟨rfl | h1, h2⟩
        · exact absurd rfl h2
        · exact ⟨h1, h2⟩
    · simp only [SMap.del, h, if_false, List.mem_cons, ih]
      constructor
      · rintro (rfl | ⟨h1, h2⟩)
        · exact ⟨Or.inl rfl, h⟩
        · exact ⟨Or.inr h1, h2⟩
      · rintro ⟨rfl | h1, h2⟩
        · exact Or.inl rfl
        · exact Or.inr ⟨h1, h2⟩

theorem SMap.mem_ins {m : SMap α} {k : Nat} {v : α} {e : Nat × α} : e ∈ SMap.ins m k v ↔ e = (k, v) ∨ e ∈ m := by
  induction m with
  | nil => simp [SMap.ins]
  | cons f t ih =>
    obtain ⟨a, w⟩ := f
    by_cases h : a < k
    · simp only [SMap.ins, h, if_true, List.mem_cons, ih]
      constructor
      · rintro (h | h | h)
        · exact Or.inr (Or.inl h)
        · exact Or.inl h
        · exact Or.inr (Or.inr h)
      · rintro (h | h | h)
        · exact Or.inr (Or.inl h)
        · exact Or.inl h
        · exact Or.inr (Or.inr h)
    · simp only [SMap.ins, h, if_false, List.mem_cons]

theorem SMap.pairwise_del {m : SMap α} {k : Nat} (h : m.Pairwise (fun x y => x.1 < y.1)) :
    (SMap.del m k).Pairwise (fun x y => x.1 < y.1) := by
  induction m with
  | nil => exact List.Pairwise.nil
  | cons e t ih =>
    obtain ⟨a, v⟩ := e
    rw [List.pairwise_cons] at h
    by_cases ha : a = k
    · simp only [SMap.del, ha, if_true]; exact ih h.2
    · simp only [SMap.del, ha, if_false, List.pairwise_cons]
      exact ⟨fun x hx => h.1 x (SMap.mem_del.1 hx).1, ih h.2⟩

theorem SMap.pairwise_ins {m : SMap α} {k : Nat} {v : α} (h : m.Pairwise (fun x y => x.1 < y.1)) (hk : ∀ e ∈ m, e.1 ≠ k) :
    (SMap.ins m k v).Pairwise (fun x y => x.1 < y.1) := by
  induction m with
  | nil => simp [SMap.ins]
  | cons e t ih =>
    obtain ⟨a, w⟩ := e
    rw [List.pairwise_cons] at h
    by_cases ha : a < k
    · simp only [SMap.ins, ha, if_true, List.pairwise_cons]
      refine ⟨fun x hx => ?_, ih h.2 (fun e he => hk e (List.mem_cons_of_mem _ he))⟩
      rcases SMap.mem_ins.1 hx with rfl | hx
      · exact ha
      · exact h.1 x hx
    · have hak : k < a := by
        have := hk (a, w) List.mem_cons_self
        simp only at this
        omega
      simp only [SMap.ins, ha, if_false, List.pairwise_cons]
      refine ⟨fun x hx => ?_, h.1, h.2⟩
      rcases List.mem_cons.1 hx with rfl | hx
      · exact hak
      · exact Nat.lt_trans hak (h.1 x hx)

/-- A write keeps the canonical form. -/
theorem SMap.wf_put [DecidableEq α] {dflt : α} {m : SMap α} (h : SMap.wf dflt m = true) (k : Nat) (v : α) :
    SMap.wf dflt (SMap.put dflt m k v) = true := by
  rw [SMap.wf_iff] at h ⊢
  by_cases hv : v = dflt
  · simp only [SMap.put, hv, if_true]
    exact ⟨SMap.pairwise_del h.1, fun e he => h.2 e (SMap.mem_del.1 he).1⟩
  · simp only [SMap.put, hv, if_false]
    refine ⟨SMap.pairwise_ins (SMap.pairwise_del h.1) (fun e he => (SMap.mem_del.1 he).2), fun e he => ?_⟩
    rcases SMap.mem_ins.1 he with rfl | he
    · exact hv
    · exact h.2 e (SMap.mem_del.1 he).1

/-- Leaving entries out keeps the canonical form. -/
theorem SMap.wf_filter [DecidableEq α] {dflt : α} {m : SMap α} (h : SMap.wf dflt m = true) (p : Nat × α → Bool) :
    SMap.wf dflt (m.filter p) = true := by
  rw [SMap.wf_iff] at h ⊢
  exact ⟨h.1.filter p, fun e he => h.2 e (List.mem_filter.1 he).1⟩

/-- The empty map is canonical. -/
theorem SMap.wf_nil [DecidableEq α] (dflt : α) : SMap.wf dflt ([] : SMap α) = true := rfl

end Sys2Proof.Machine
end

