-- ==== Sys2Proof/Laws/Registers.lean ====
section
/-!
SUPPORT. Registers and their fields: reading after writing, and what a write of one leaves in the others.
-/

namespace Sys2Proof.Machine

variable (d : Dev)

/-! ### Registers -/

@[simp] theorem Dev.reg_setReg_same (k : Nat) (v : Word) : (d.setReg k v).reg k = v := by
  simp only [Dev.reg, Dev.setReg, SMap.get_put_same]

theorem Dev.reg_setReg_other {k j : Nat} (v : Word) (h : j ≠ k) : (d.setReg k v).reg j = d.reg j := by
  simp only [Dev.reg, Dev.setReg]
  exact SMap.get_put_other _ _ _ _ h

/-! ### Bit fields of a word -/

/-- A word split at a field: above it, the field, below it. -/
theorem bitsN_split (n hi lo : Nat) :
    n = 2 ^ lo * (2 ^ (hi - lo + 1) * (n / 2 ^ lo / 2 ^ (hi - lo + 1)) + bitsN n hi lo) + n % 2 ^ lo := by
  unfold bitsN
  rw [Nat.div_add_mod (n / 2 ^ lo) (2 ^ (hi - lo + 1)), Nat.div_add_mod]

theorem setBits_toNat (w : Word) {hi lo : Nat} (v : Nat) (h1 : hi < 32) (h2 : lo ≤ hi) :
    (setBits w hi lo v).toNat =
      2 ^ lo * (2 ^ (hi - lo + 1) * (w.toNat / 2 ^ lo / 2 ^ (hi - lo + 1)) + v % 2 ^ (hi - lo + 1)) + w.toNat % 2 ^ lo := by
  have hw := w.isLt
  have hs := bitsN_split w.toNat hi lo
  have hL : 0 < 2 ^ lo := Nat.two_pow_pos lo
  have hW : 0 < 2 ^ (hi - lo + 1) := Nat.two_pow_pos _
  have hv : v % 2 ^ (hi - lo + 1) < 2 ^ (hi - lo + 1) := Nat.mod_lt _ hW
  have hc : w.toNat % 2 ^ lo < 2 ^ lo := Nat.mod_lt _ hL
  have h32 : 2 ^ lo * (2 ^ (hi - lo + 1) * 2 ^ (31 - hi)) = 2 ^ 32 := by
    rw [← Nat.pow_add, ← Nat.pow_add]; congr 1; omega
  have hA : w.toNat / 2 ^ lo / 2 ^ (hi - lo + 1) < 2 ^ (31 - hi) := by
    rw [Nat.div_div_eq_div_mul, Nat.div_lt_iff_lt_mul (Nat.mul_pos hL hW)]
    calc w.toNat < 2 ^ 32 := hw
      _ = 2 ^ (31 - hi) * (2 ^ lo * 2 ^ (hi - lo + 1)) := by rw [← h32, ← Nat.mul_assoc, Nat.mul_comm]
  unfold setBits
  rw [BitVec.toNat_ofNat]
  generalize w.toNat / 2 ^ lo / 2 ^ (hi - lo + 1) = A at *
  generalize hB : bitsN w.toNat hi lo = B at *
  generalize w.toNat % 2 ^ lo = C at *
  generalize v % 2 ^ (hi - lo + 1) = V at *
  generalize 2 ^ lo = L at *
  generalize 2 ^ (hi - lo + 1) = W at *
  generalize 2 ^ (31 - hi) = U at *
  have e1 : w.toNat - B * L + V * L = L * (W * A + V) + C := by
    have : L * (W * A + B) = L * (W * A) + B * L := by rw [Nat.mul_add, Nat.mul_comm L B]
    have : L * (W * A + V) = L * (W * A) + V * L := by rw [Nat.mul_add, Nat.mul_comm L V]
    omega
  have bound : L * (W * A + V) + C < 2 ^ 32 := by
    have h3 : W * A + V + 1 ≤ W * U := by
      have : W * A + W ≤ W * U := by
        have := Nat.mul_le_mul_left W (Nat.succ_le_of_lt hA)
        rwa [Nat.mul_succ] at this
      omega
    have h4 := Nat.mul_le_mul_left L h3
    rw [h32, Nat.mul_succ] at h4
    omega
  rw [e1, Nat.mod_eq_of_lt bound]

/-- A field set reads the value, as far as it is wide. -/
theorem bitsN_setBits_same (w : Word) {hi lo : Nat} (v : Nat) (h1 : hi < 32) (h2 : lo ≤ hi) :
    bitsN (setBits w hi lo v).toNat hi lo = v % 2 ^ (hi - lo + 1) := by
  rw [setBits_toNat w v h1 h2]
  have hL : 0 < 2 ^ lo := Nat.two_pow_pos lo
  unfold bitsN
  rw [Nat.mul_add_div hL, Nat.div_eq_of_lt (Nat.mod_lt _ hL), Nat.add_zero, Nat.mul_add_mod, Nat.mod_mod]

/-- A field set leaves the bits above it. -/
theorem bitsN_setBits_above (w : Word) {hi lo hi' lo' : Nat} (v : Nat) (h1 : hi < 32) (h2 : lo ≤ hi) (h : hi < lo') :
    bitsN (setBits w hi lo v).toNat hi' lo' = bitsN w.toNat hi' lo' := by
  have key : (setBits w hi lo v).toNat / 2 ^ lo' = w.toNat / 2 ^ lo' := by
    have hp : (2 : Nat) ^ lo' = 2 ^ lo * 2 ^ (hi - lo + 1) * 2 ^ (lo' - hi - 1) := by
      rw [← Nat.pow_add, ← Nat.pow_add]; congr 1; omega
    have hL : 0 < 2 ^ lo := Nat.two_pow_pos lo
    have hW : 0 < 2 ^ (hi - lo + 1) := Nat.two_pow_pos _
    rw [hp, ← Nat.div_div_eq_div_mul, ← Nat.div_div_eq_div_mul, ← Nat.div_div_eq_div_mul (w.toNat),
      ← Nat.div_div_eq_div_mul (w.toNat)]
    congr 1
    rw [setBits_toNat w v h1 h2, Nat.mul_add_div hL, Nat.div_eq_of_lt (Nat.mod_lt _ hL), Nat.add_zero, Nat.mul_add_div hW,
      Nat.div_eq_of_lt (Nat.mod_lt _ hW), Nat.add_zero]
  simp only [bitsN, key]

/-- A field set leaves the bits below it. -/
theorem bitsN_setBits_below (w : Word) {hi lo hi' lo' : Nat} (v : Nat) (h1 : hi < 32) (h2 : lo ≤ hi) (h3 : lo' ≤ hi')
    (h : hi' < lo) : bitsN (setBits w hi lo v).toNat hi' lo' = bitsN w.toNat hi' lo' := by
  have low : ∀ n, bitsN n hi' lo' = bitsN (n % 2 ^ lo) hi' lo' := by
    intro n
    unfold bitsN
    have hp : (2 : Nat) ^ lo = 2 ^ lo' * (2 ^ (hi' - lo' + 1) * 2 ^ (lo - hi' - 1)) := by
      rw [← Nat.pow_add, ← Nat.pow_add]; congr 1; omega
    rw [hp, Nat.mod_mul_right_div_self, Nat.mod_mul_right_mod]
  have key : (setBits w hi lo v).toNat % 2 ^ lo = w.toNat % 2 ^ lo := by
    rw [setBits_toNat w v h1 h2, Nat.mul_add_mod, Nat.mod_mod]
  rw [low, key, ← low]

/-! ### Fields of registers -/

/-- A field that fits its register. -/
abbrev Fld.ok (f : Fld) : Prop := f.hi < 32 ∧ f.lo ≤ f.hi

/-- Two fields of one register that share no bit. -/
abbrev Fld.apart (f g : Fld) : Prop := f.hi < g.lo ∨ g.hi < f.lo

/-- A field reads as it was last set. -/
theorem Dev.fld_setFld_same (f : Fld) (v : Nat) (h : f.ok) : (d.setFld f v).fld f = v % 2 ^ (f.hi - f.lo + 1) := by
  simp only [Dev.fld, Dev.setFld, Dev.reg_setReg_same, bitsN_setBits_same _ _ h.1 h.2]

/-- Setting a field leaves the fields of other registers. -/
theorem Dev.fld_setFld_reg {f g : Fld} (v : Nat) (h : g.reg ≠ f.reg) : (d.setFld f v).fld g = d.fld g := by
  simp only [Dev.fld, Dev.setFld, Dev.reg_setReg_other _ _ h]

/-- Setting a field leaves the other fields of its register. -/
theorem Dev.fld_setFld_apart {f g : Fld} (v : Nat) (hf : f.ok) (hg : g.ok) (h : f.apart g) :
    (d.setFld f v).fld g = d.fld g := by
  by_cases hr : g.reg = f.reg
  · simp only [Dev.fld, Dev.setFld, hr, Dev.reg_setReg_same]
    rcases h with h | h
    · exact bitsN_setBits_above _ _ hf.1 hf.2 h
    · exact bitsN_setBits_below _ _ hf.1 hf.2 hg.2 h
  · exact d.fld_setFld_reg v hr

/-- Setting a field leaves the other registers. -/
theorem Dev.reg_setFld_other {f : Fld} {j : Nat} (v : Nat) (h : j ≠ f.reg) : (d.setFld f v).reg j = d.reg j := by
  simp only [Dev.setFld, Dev.reg_setReg_other _ _ h]

/-- An event leaves every register but LOG_LOST. -/
theorem Dev.reg_event (b i c x : Nat) {j : Nat} (h : j ≠ R.LOG_LOST) : (d.event b i c x).reg j = d.reg j := by
  unfold Dev.event
  split
  · cases d; rfl
  · rw [Dev.addFld]; exact d.reg_setFld_other _ h

/-- An event leaves every field but those of LOG_LOST. -/
theorem Dev.fld_event (b i c x : Nat) {f : Fld} (h : f.reg ≠ R.LOG_LOST) : (d.event b i c x).fld f = d.fld f := by
  simp only [Dev.fld, Dev.reg_event _ _ _ _ _ h]

/-- An event leaves the treadle's state. -/
@[simp] theorem Dev.event_ts (b i c x : Nat) : (d.event b i c x).ts = d.ts := Dev.fld_event d b i c x (by decide)

/-- With room in the input queue an event is its last entry (14 R439). -/
theorem Dev.event_log (b i c x : Nat) (h : d.log.queue.length < 64) :
    (d.event b i c x).log = { d.log with queue := d.log.queue ++ [logEntry d.tick b (if i < 128 then i else 0) c x] } := by
  simp [Dev.event, h]

/-- The treadle's state after it is set. -/
@[simp] theorem Dev.ts_setTs (s : Nat) (h : s < 8) : (d.setTs s).ts = s := by
  have e : (d.setTs s).ts = (d.setFld F.TRD_STATUS_STATE s).fld F.TRD_STATUS_STATE := by
    unfold Dev.setTs Dev.ts; exact Dev.fld_setFld_reg _ _ (by decide)
  rw [e, Dev.fld_setFld_same _ _ _ (by decide)]
  exact Nat.mod_eq_of_lt h

end Sys2Proof.Machine
end

