-- ==== Sys2Proof/Laws/Memory.lean ====
section
/-!
SUPPORT. Memory: reading after writing, and the canonical form that every memory operation keeps.
-/

namespace Sys2Proof.Machine

variable (d : Dev)

/-- A byte reads as it was last written. -/
@[simp] theorem Dev.byte_setByte_same (a : Nat) (b : Byte) : (d.setByte a b).byte a = b := by
  simp only [Dev.byte, Dev.setByte, SMap.get_put_same]

/-- A write of one byte leaves every other. -/
theorem Dev.byte_setByte_other {a x : Nat} (b : Byte) (h : x ≠ a) : (d.setByte a b).byte x = d.byte x := by
  simp only [Dev.byte, Dev.setByte, SMap.get_put_other _ _ _ _ h]

/-- A write of a run of bytes leaves every byte outside it. -/
theorem Dev.byte_setBytes_outside (bs : List Byte) {a x : Nat} (h : x < a ∨ a + bs.length ≤ x) :
    (d.setBytes a bs).byte x = d.byte x := by
  induction bs generalizing d a with
  | nil => rfl
  | cons b t ih =>
    have hx : x ≠ a := by simp only [List.length_cons] at h; omega
    rw [Dev.setBytes, ih (d.setByte a b) (by simp only [List.length_cons] at h; omega), Dev.byte_setByte_other d b hx]

/-- A run of bytes reads as it was last written. -/
theorem Dev.byte_setBytes_inside (bs : List Byte) {a i : Nat} (h : i < bs.length) :
    (d.setBytes a bs).byte (a + i) = bs[i] := by
  induction bs generalizing d a i with
  | nil => simp at h
  | cons b t ih =>
    cases i with
    | zero =>
      rw [Dev.setBytes, Dev.byte_setBytes_outside _ _ (by omega), Nat.add_zero, Dev.byte_setByte_same]; rfl
    | succ i =>
      rw [Dev.setBytes, show a + (i + 1) = (a + 1) + i by omega, ih (d.setByte a b) (by simpa using h)]; rfl

/-- A filter that keeps a key keeps its value. -/
theorem find_filter {α : Type} (p : Nat × α → Bool) (m : SMap α) (k : Nat) (h : ∀ v, p (k, v) = true) :
    SMap.find (m.filter p) k = SMap.find m k := by
  induction m with
  | nil => rfl
  | cons e t ih =>
    obtain ⟨a, v⟩ := e
    by_cases ha : a = k
    · subst ha; simp [h v, SMap.find]
    · by_cases hp : p (a, v)
      · simp [hp, SMap.find, ha, ih]
      · simp [hp, SMap.find, ha, ih]

/-- Clearing a range leaves every byte outside it. -/
theorem Dev.byte_clearMem_outside {a b x : Nat} (h : x < a ∨ b ≤ x) : (d.clearMem a b).byte x = d.byte x := by
  unfold Dev.byte Dev.clearMem SMap.get
  rw [find_filter]
  intro v
  simp only [Bool.not_eq_true', Bool.and_eq_false_imp, decide_eq_true_eq, decide_eq_false_iff_not]
  omega

/-- A filter that drops a key leaves it unlisted. -/
theorem find_filter_none {α : Type} (p : Nat × α → Bool) (m : SMap α) (k : Nat) (h : ∀ v, p (k, v) = false) :
    SMap.find (m.filter p) k = none := by
  induction m with
  | nil => rfl
  | cons e t ih =>
    obtain ⟨a, v⟩ := e
    by_cases hp : p (a, v)
    · have ha : a ≠ k := fun e => by subst e; simp [h v] at hp
      simp [hp, SMap.find, ha, ih]
    · simp [hp, ih]

/-- Clearing a range makes its bytes read 0. -/
theorem Dev.byte_clearMem_inside {a b x : Nat} (h1 : a ≤ x) (h2 : x < b) : (d.clearMem a b).byte x = 0 := by
  unfold Dev.byte Dev.clearMem SMap.get
  rw [find_filter_none]
  · rfl
  · intro v; simp [h1, h2]

/-! ### The canonical form -/

theorem Dev.memWf_setByte {d : Dev} (h : d.memWf) (a : Nat) (b : Byte) : (d.setByte a b).memWf :=
  SMap.wf_put h a b

theorem Dev.memWf_setBytes {d : Dev} (h : d.memWf) (a : Nat) (bs : List Byte) : (d.setBytes a bs).memWf := by
  induction bs generalizing d a with
  | nil => exact h
  | cons b t ih => exact ih (Dev.memWf_setByte h a b) (a + 1)

theorem Dev.memWf_setWord {d : Dev} (h : d.memWf) (a : Nat) (w : Word) : (d.setWord a w).memWf :=
  Dev.memWf_setBytes h a _

theorem Dev.memWf_clearMem {d : Dev} (h : d.memWf) (a b : Nat) : (d.clearMem a b).memWf :=
  SMap.wf_filter h _

/-- The machine after reset has its memory in canonical form. -/
theorem State.reset_memWf : State.reset.dev.memWf := rfl

end Sys2Proof.Machine
end

