-- ==== Sys2Proof/Machine/Pins.lean ====
section
/-! DEFINITION. What the lands of the test multiplexer, the panel regulators and the eMMC reset show (15 R468; 17 R491, R497):
functions of the state, and for the points that are pulses of the command that has just acted. Nothing reads them back. -/

namespace Sys2Proof.Machine

/-- The hub request that a command carries (13 R384). -/
def Instr.hubReq : Instr → Option HubReq
  | .read q _ => some q
  | .writeL q _ => some q
  | .writeM q _ _ _ => some q
  | .or q _ _ => some q
  | _ => none

/-- What a land of R497 does. -/
inductive LandState where
  /-- high impedance, released, or an input without bias -/
  | highZ
  /-- an input with its pull-up -/
  | pullUp
  /-- driven at a level -/
  | driven (high : Bool)
  /-- driven as its protocol says, idle when nothing is sent -/
  | serves
  deriving DecidableEq, Repr

/-- The PLL of a clock domain is locked. A domain without a PLL of its own (AON, TCK) shows 1 while its source is there; TCK's is
outside the device and shows 0 (DESIGN CHOICE, log 37). -/
def Dev.pllShown (d : Dev) (dom : Nat) : Bool :=
  let n := pllOf dom
  if n = 0 then d.plat.crystalDone
  else if n = 1 then decide (d.plat.aonPll = 2)
  else decide (n ≤ 16) && d.plat.pllUp.testBit n

/-- Points 0x000 to 0x00B: pulses of heddle TMX_HEDDLE between the states d0 and d. A pick starts when the heddle can first read
its operands: at the first pick of an attempt when the heddles run, at a later one when the pick before is done. A field that the
pick does not read is not requested (DESIGN CHOICE, log 37). -/
def Dev.heddlePulse (d0 d : Dev) (pt : Nat) : Bool :=
  let gb := d.fld F.TMX_HEDDLE_GB
  let hn := 64 * gb + d.fld F.TMX_HEDDLE_HARNESS
  let k := d.fld F.TMX_HEDDLE_HEDDLE
  let hk := hkOf hn k
  let q0 := SMap.get 0 d0.loom.done hk
  let q := SMap.get 0 d.loom.done hk
  let ran := d.loom.phase == .running
  let fresh := ran && d0.loom.phase != .running
  let start := ran && decide (q < d.depth) && (fresh || q0 < q)
  let fields := fun p =>
    let w0 := d.loom.pick hn 0 p
    fieldsRead (pickKind w0 (d.loom.pick hn k p)) (PickW.op w0) k
  if pt = 0 then start
  else if pt = 1 then decide (q0 < q)
  else if pt < 6 then start && (fields q).contains (pt - 2)
  else if pt < 10 then
    let f0 := SMap.get 0 d0.loom.fetched hk
    decide (f0 < SMap.get 0 d.loom.fetched hk) && (fields f0).contains (pt - 6)
  else if pt = 10 then ran && SMap.get 0 d.loom.closed hn != SMap.get 0 d0.loom.closed hn
  else ran && d.loom.lanes.any (fun e => e.1 / 8 / 2048 == hn && SMap.get 0 d0.loom.lanes e.1 != e.2)

/-- Panel p has completed its part of the attempt: every harness of its beams has finished its picks and pulls (02 R34). -/
def Dev.panelComplete (d : Dev) (p : Nat) : Bool :=
  d.loom.phase != .none && d.loom.phase != .released &&
    d.actives.all (fun hn => d.panelOf (hn / 64) != p || (SMap.get 0 d.loom.pulls hn == d.depth &&
      (List.range 32).all (fun k => SMap.get 0 d.loom.done (hkOf hn k) == d.depth)))

/-- Observation point `pt`, at an injection queue the request of the command and the response to it, whose URG is the same (13 R384), while command c takes the device from d0 to d (R468). -/
def Dev.point (d0 d : Dev) (c : Instr) (pt : Nat) : Bool :=
  if pt < 0x00C then d0.heddlePulse d pt
  else if 0x010 ≤ pt ∧ pt < 0x014 then d.panelComplete (pt - 0x010) && !d0.panelComplete (pt - 0x010)
  else if pt = 0x014 then d.loom.phase == .complete && d0.loom.phase != .complete
  else if pt = 0x015 then d.loom.phase == .released && d0.loom.phase != .released
  else if pt = 0x016 then decide (d.loom.beat = d0.loom.beat + 1)
  else if pt = 0x017 then d0.loom.phase == .faulted && d.loom.phase != .faulted
  else if 0x020 ≤ pt ∧ pt < 0x032 then d.pllShown (pt - 0x020)
  else if 0x200 ≤ pt ∧ pt < 0x400 then
    let r := (pt - 0x200) / 64
    let dir := (pt - 0x200) / 32 % 2
    match Instr.hubReq c with
    | some q =>
      let dst := d0.stopOf q.addr
      ringOf q.addr == r && decide (d.fld F.TMX_CTL_URG_MIN ≤ d.urgOf q.waited) &&
        ((q.src == pt % 32 && dirOf q.src dst == dir) || (d0.mayInject q && dst == pt % 32 && dirOf dst q.src == dir))
    | none => false
  else false

/-- The lands PRB are driven: not before event 3 of R210, and not while a reset line is low (17 R497). -/
def Dev.prbDriven (d : Dev) : Bool := d.plat.porst && d.plat.wrst && decide (3 ≤ d.plat.stage)

/-- PRB[i] during command c: none while the land is an input (15 R468; 17 R497). -/
def Dev.prb (d0 d : Dev) (c : Instr) (i : Nat) : Option Bool :=
  if !d.prbDriven then none
  else if d.plat.stage < 12 ∨ d.fld F.PWR_STATUS_DEV ≠ 0 ∨ d.fld F.TMX_CTL_EN = 0 then some false
  else some (d0.point d c (d.fld (F.TMX_SEL0_POINT.up i)))

/-- PVIDp[5:0] (17 R491): the present code of the panel, which the changes of state of the panel and the device keep. -/
def Dev.pvid (d : Dev) (p : Nat) : Nat := d.fld (F.PWR_PANEL_V_CODE.at p)

/-- EMMC_RST_N is driven high from event 3 of R210 on, outside OFF (17 R497). -/
def Dev.emmcReset (d : Dev) : Bool := d.plat.porst && d.plat.wrst && decide (3 ≤ d.plat.stage) && d.fld F.PWR_STATUS_DEV != 2

/-- Neither reset line is low. -/
def Dev.linesHigh (d : Dev) : Bool := d.plat.porst && d.plat.wrst

/-- SPI_MISO, driven while SPI_CS_N is low, I2C_SDA and UART_TXD serve outside PORST_N low, WRST_N low included; before that they
are high impedance, released and an input with pull-up (17 R497). -/
def Dev.mgtLands (d : Dev) : LandState × LandState × LandState :=
  if d.plat.porst then (.serves, .serves, .serves) else (.highZ, .highZ, .pullUp)

/-- TDO serves IEEE 1149.1 outside the resets (17 R497). -/
def Dev.tdo (d : Dev) : LandState := if d.linesHigh then .serves else .highZ

/-- TSYNC is an output under PTP_CTL.TSYNC_OUT, from event 3 of R210 on and outside OFF (06 R181; 17 R497). -/
def Dev.tsyncLand (d : Dev) : LandState :=
  if d.linesHigh ∧ 3 ≤ d.plat.stage ∧ d.fld F.PWR_STATUS_DEV ≠ 2 ∧ d.fld F.PTP_CTL_TSYNC_OUT = 1 then .driven d.tb.tsync else .highZ

/-- The loader fetches from the eMMC: an image that is not ready yet, or the bay image of a slot (08 R221, R243). -/
def Dev.fetches (d : Dev) : Bool := d.ldr.load.any (fun x => x.ready.isNone) || d.ldr.bay.any (fun b => b.phase == 1 && b.slot.isSome)

/-- EMMC_CLK, and EMMC_CMD with DAT and DS: they serve while the loader fetches, else CLK is low and the rest released; high impedance in
reset and in OFF (17 R497). -/
def Dev.emmcLands (d : Dev) : LandState × LandState :=
  if !d.linesHigh ∨ d.plat.stage < 3 ∨ d.fld F.PWR_STATUS_DEV = 2 then (.highZ, .highZ)
  else if d.fetches ∧ d.fld F.PWR_STATUS_DEV = 0 then (.serves, .serves)
  else (.driven false, .highZ)

end Sys2Proof.Machine
end

