-- ==== Sys2Proof/WellFormed.lean ====
section
/-!
DEFINITION. Well-formed commands: every operand that names a unit or fills a field of the spec lies in its range.
-/

namespace Sys2Proof

/-- The operands of a command are in the ranges that the spec gives them. -/
def Instr.wf : Instr → Bool
  | .beatRelease => true
  | .releaseReachesHeddles gpio => decide (gpio < 2 ^ 48)
  | .plainPick gb h k => decide (gb < 128) && decide (h < 64) && decide (k < 32)
  | .mrd gb h => decide (gb < 128) && decide (h < 64)
  | .mwr gb h => decide (gb < 128) && decide (h < 64)
  | .drd gb h => decide (gb < 128) && decide (h < 64)
  | .dwr gb h => decide (gb < 128) && decide (h < 64)
  | .put gb h k => decide (gb < 128) && decide (h < 64) && decide (k < 32)
  | .edge gb h k => decide (gb < 128) && decide (h < 64) && decide (k < 32)
  | .fail gb h => decide (gb < 128) && decide (h < 64)
  | .brk gb h k => decide (gb < 128) && decide (h < 64) && decide (k < 32)
  | .reservedEncoding gb h k => decide (gb < 128) && decide (h < 64) && decide (k < 32)
  | .harnessHandshakeClose gb h => decide (gb < 128) && decide (h < 64)
  | .windowDelivery gb h k => decide (gb < 128) && decide (h < 64) && decide (k < 32)
  | .beamOutLaneClose gb h j pick => decide (gb < 128) && decide (h < 64) && decide (j < 8) && decide (pick < 2048)
  | .pull gb h => decide (gb < 128) && decide (h < 64)
  | .ringInject gb entry => decide (gb < 128) && decide (entry < 1024)
  | .ringHop _ => true
  | .ringExtract gb entry => decide (gb < 128) && decide (entry < 1024)
  | .weftGatewayHandoff _ => true
  | .tapFifoDrain gb => decide (gb < 128)
  | .failStagingDrain gb => decide (gb < 128)
  | .reedComplete => true
  | .commit => true
  | .faultFlag f => f.fault.wf && f.hits.all Machine.Hit.wf
  | .attemptAbort => true
  | .fixComplete => true
  | .repairStepComplete => true
  | .stallWatchdogExpiry => true
  | .journalSpill gb h => decide (gb < 128) && decide (h < 64)
  | .spillReadback gb => decide (gb < 128)
  | .deepJournalHandoff => true
  | .lineInvalidate gb => decide (gb < 128)
  | .deepReadReturn gb h pick => decide (gb < 128) && decide (h < 64) && decide (pick < 2048)
  | .mailboxPortLServe bank deep _ => decide (bank < 32) && deep.all (fun x => decide (x.1 < 128) && decide (x.2.1 < 64) && decide (x.2.2 < 2048))
  | .mailboxPortSAccess mid bank word _ _ => decide (mid < 4096) && decide (bank < 32) && decide (word < 32768)
  | .hbmOccIntervalEnd => true
  | .start _ => true
  | .stop => true
  | .cancel => true
  | .haltNLow => true
  | .slotStart => true
  | .pinResponseTimeout => true
  | .timedLaunch e => e.all (fun x => decide (x < 16))
  | .ptpOffsetSample _ => true
  | .tsyncInputEdge => true
  | .tsyncOutputEdge => true
  | .jumpAccept => true
  | .jumpClear => true
  | .holdoverTimeout => true
  | .ptpRxMessage port _ _ => decide (port < 2)
  | .ptpTxDescriptor port => decide (port < 2)
  | .txtsPop port => decide (port < 2)
  | .query src tag item => decide (src < 16) && decide (tag < 256) && decide (item < 65536)
  | .peerStart src tag _ _ => decide (src < 16) && decide (tag < 256)
  | .refuse reason => decide (reason < 16)
  | .haltNote => true
  | .solo beat => decide (beat < 2 ^ 48)
  | .peerReply src cmd tag _ => decide (src < 16) && decide (cmd < 256) && decide (tag < 256)
  | .vddAonUp => true
  | .crystalDetectEnd _ => true
  | .pllLock dom => decide (dom < 17)
  | .pllLockTimeout dom => decide (dom < 17)
  | .porstNFall => true
  | .porstNRise straps => decide (straps < 16)
  | .charterRead => true
  | .repairApply => true
  | .startupBistComplete _ => true
  | .hbmTrained failed => decide (failed < 256)
  | .wrstNFall _ => true
  | .wrstNRise => true
  | .load slot => decide (slot < 256)
  | .abort => true
  | .loadEntryAttempt _ => true
  | .emmcRetry r => decide (r.status < 2 ^ 32)
  | .loadComplete _ => true
  | .doneSeenHigh => true
  | .autoStart => true
  | .doneTimeout => true
  | .doneFall => true
  | .reloadBay bay slot => decide (bay < 32) && slot.all (fun x => decide (x < 256))
  | .abortBay => true
  | .bayStaged _ => true
  | .bayWriteDone => true
  | .flashRead mid => decide (mid < 4096)
  | .flashProgram mid => decide (mid < 4096)
  | .flashErase mid => decide (mid < 4096)
  | .flashCmdComplete _ => true
  | .blockLockGained ph => decide (ph < 144)
  | .blockLockLost ph => decide (ph < 144)
  | .idleBlockRx ph ack status _ _ => decide (ph < 144) && decide (ack < 65536) && decide (status < 256)
  | .trainBlockRx ph t lane _ ask => decide (ph < 144) && t.wf && decide (lane < 256) && decide (ask < 128)
  | .pwrBlockRx ph code => decide (ph < 144) && decide (code < 256)
  | .loopBlockRx lane _ => decide (lane < 128)
  | .reservedCtypeRx lane => decide (lane < 128)
  | .laneTrainingTimeout ph => decide (ph < 144)
  | .trainingRetryTimer ph => decide (ph < 144)
  | .fastRetrainTimeout ph => decide (ph < 144)
  | .respRx lane seq ack status beat bm1 ns _ _ _ => decide (lane < 128) && decide (seq < 256) && decide (ack < 256) && decide (status < 256) && decide (beat < 65536) && decide (bm1 < 256) && decide (ns < 256)
  | .msgRx lane seq ack status _ ws => decide (lane < 128) && decide (seq < 256) && decide (ack < 256) && decide (status < 256) && decide (1 ≤ ws.length) && decide (ws.length ≤ 64)
  | .frameCrcFail ph _ _ => decide (ph < 144)
  | .resendTimeout lane => decide (lane < 128)
  | .holdFramePeriod => true
  | .lanePowerRequest lane req => decide (lane < 128) && decide (req < 4)
  | .loopbackRequest lane mode _ => decide (lane < 128) && decide (mode < 4)
  | .send lane len _ => decide (lane < 128) && decide (len < 64)
  | .msgAbort => true
  | .msgDataWrite _ => true
  | .pop => true
  | .rxmsgDataRead => true
  | .linkUp link _ => decide (link < 4)
  | .linkDown link => decide (link < 4)
  | .alignBlockRx link _ => decide (link < 4)
  | .bundleFrameRx link seq ack _ beat _ _ => decide (link < 4) && decide (seq < 65536) && decide (ack < 65536) && decide (beat < 2 ^ 48)
  | .markFrameRx link seq ack _ _ _ _ origin beat _ => decide (link < 4) && decide (seq < 65536) && decide (ack < 65536) && decide (origin < 16) && decide (beat < 2 ^ 48)
  | .peerFrameRx link seq ack _ src dst _ cmd tag _ => decide (link < 4) && decide (seq < 65536) && decide (ack < 65536) && decide (src < 16) && decide (dst < 16) && decide (cmd < 256) && decide (tag < 256)
  | .statusFrameRx link seq ack _ sys pos role size topo far => decide (link < 4) && decide (seq < 65536) && decide (ack < 65536) && decide (sys < 2 ^ 32) && decide (pos < 16) && decide (role < 4) && decide (size < 256) && decide (topo < 2) && decide (far < 4)
  | .doneFrameRx link seq ack _ origin _ gen => decide (link < 4) && decide (seq < 65536) && decide (ack < 65536) && decide (origin < 16) && decide (gen < 65536)
  | .statusSendTimer => true
  | .doneRepeatTimer => true
  | .weftResendTimeout link => decide (link < 4)
  | .linkLostTimeout link => decide (link < 4)
  | .datagramRx port ip udp destIp destUdp _ _ => decide (port < 2) && decide (ip < 2 ^ 32) && decide (udp < 65536) && decide (destIp < 2 ^ 32) && decide (destUdp < 65536)
  | .info port => decide (port < 2)
  | .regRead port => decide (port < 2)
  | .regWrite port => decide (port < 2)
  | .memRead port => decide (port < 2)
  | .memWrite port => decide (port < 2)
  | .logRead port => decide (port < 2)
  | .subscribe port => decide (port < 2)
  | .mgtRead f addr n => f.wf && decide (addr < 2 ^ 48) && decide (n < 65) && decide (1 ≤ n)
  | .mgtWrite f addr ws => f.wf && decide (addr < 2 ^ 48) && decide (1 ≤ ws.length) && decide (ws.length ≤ 64)
  | .mgtStatus q => q.frame.wf && decide (q.n < 64) && decide (q.addr < 2 ^ 48)
  | .unlockSet _ timeout => decide (timeout < 65536)
  | .unlockTimeout => true
  | .arm u => decide (u < 16)
  | .capStop u => decide (u < 16)
  | .trigger u => decide (u < 16)
  | .recordComplete u => decide (u < 16)
  | .captureRspTimeout u => decide (u < 16)
  | .recordWritten u => decide (u < 16)
  | .overflowMark u => decide (u < 16)
  | .failMapOr => true
  | .clear mid => decide (mid < 4096)
  | .clearComplete map => decide (map < 256)
  | .appliedRead => true
  | .beatCountRead => true
  | .sum s => decide (s < 128)
  | .dif s => decide (s < 128)
  | .conj s => decide (s < 128)
  | .disj s => decide (s < 128)
  | .excl s => decide (s < 128)
  | .shl s => decide (s < 128)
  | .shr s => decide (s < 128)
  | .sha s => decide (s < 128)
  | .less s => decide (s < 128)
  | .lessu s => decide (s < 128)
  | .prod s => decide (s < 128)
  | .prodhs s => decide (s < 128)
  | .prodhu s => decide (s < 128)
  | .sumk s => decide (s < 128)
  | .conjk s => decide (s < 128)
  | .disjk s => decide (s < 128)
  | .exclk s => decide (s < 128)
  | .lessk s => decide (s < 128)
  | .topk s => decide (s < 128)
  | .get s => decide (s < 128)
  | .sto s => decide (s < 128)
  | .ifeq s => decide (s < 128)
  | .ifne s => decide (s < 128)
  | .iflt s => decide (s < 128)
  | .ifge s => decide (s < 128)
  | .iflo s => decide (s < 128)
  | .ifhs s => decide (s < 128)
  | .leap s => decide (s < 128)
  | .via s => decide (s < 128)
  | .macd s => decide (s < 128)
  | .macp s => decide (s < 128)
  | .ext s => decide (s < 128)
  | .clra s => decide (s < 128)
  | .mva s => decide (s < 128)
  | .mvta s => decide (s < 128)
  | .ldo s => decide (s < 128)
  | .rdcw s => decide (s < 128)
  | .wrcw s => decide (s < 128)
  | .fence s => decide (s < 128)
  | .clean s => decide (s < 128)
  | .inval s => decide (s < 128)
  | .iinv s => decide (s < 128)
  | .post s => decide (s < 128)
  | .done s => decide (s < 128)
  | .wait s => decide (s < 128)
  | .trap s => decide (s < 128)
  | .untrap s => decide (s < 128)
  | .waitWake s => decide (s < 128)
  | .itemDispatch => true
  | .affinityAgeExpiry level => decide (level < 8)
  | .runLimit s => decide (s < 128)
  | .triggerFiring => true
  | .heldPost => true
  | .wscCancel cls => decide (cls < 65536)
  | .wscPost mid => decide (mid < 4096)
  | .wscPostDataWrite _ => true
  | .handover mid bank _ => decide (mid < 4096) && decide (bank < 512)
  | .read q _ => q.wf
  | .writeL q _ => q.wf
  | .writeM q _ _ _ => q.wf
  | .or q word _ => decide (word < 16) && q.wf
  | .hubResponse ring src dst tag => decide (ring < 8) && decide (src < 32) && decide (dst < 32) && decide (tag < 32)
  | .linkParityResend ring dir node _ => decide (ring < 8) && decide (dir < 2) && decide (node < 32)
  | .ringLinkFail ring dir node => decide (ring < 8) && decide (dir < 2) && decide (node < 32)
  | .gkSelWrite mid _ => decide (mid < 4096)
  | .gkEnt0Write mid _ => decide (mid < 4096)
  | .go mid c => decide (mid < 4096) && decide (c < 32)
  | .bobbinAbort c => decide (c < 32)
  | .descriptorFetch c => decide (c < 32)
  | .bobbinResponse r => decide (r.chan < 32)
  | .hbmRefresh stack _ _ => decide (stack < 8)
  | .hbmScrubRead addr _ _ => decide (addr < 0x3000000000)
  | .eccScrubRead w _ => w.wf
  | .inject mid => decide (mid < 4096)
  | .run mid targets => decide (mid < 4096) && decide (targets < 16)
  | .bistAbort => true
  | .bistRunComplete _ => true
  | .burnData mid => decide (mid < 4096)
  | .burnValid mid => decide (mid < 4096)
  | .shadowAppend mid => decide (mid < 4096)
  | .shadowErase mid => decide (mid < 4096)
  | .fuseRead mid => decide (mid < 4096)
  | .fuseCmdComplete _ => true
  | .repairRecord _ => true
  | .rollPreloadDone pgb => decide (pgb < 128)
  | .rollSwapDone pgb => decide (pgb < 128)
  | .rollSlotTestDone pgb _ => decide (pgb < 128)
  | .tmtRegionTest cls _ _ => decide (cls < 8)
  | .replaceEnd hits => hits.all Machine.Hit.wf
  | .logEntryWrite => true
  | .logClear mid => decide (mid < 4096)
  | .devLowRequest mid => decide (mid < 4096)
  | .lowEntryDone => true
  | .devRunRequest mid => decide (mid < 4096)
  | .lowExitDone => true
  | .devOffRequest mid => decide (mid < 4096)
  | .panelSleepRequest mid => decide (mid < 4096)
  | .panelOffRequest mid => decide (mid < 4096)
  | .panelActiveRequest mid _ => decide (mid < 4096)
  | .panelSleepEntered panel => decide (panel < 4)
  | .panelWakeDone panel _ => decide (panel < 4)
  | .panelWakeTimeout panel => decide (panel < 4)
  | .adaptTick panel _ => decide (panel < 4)
  | .watchSample xs => decide (xs.length = 100)
  | .unpark mid => decide (mid < 4096)
  | .wchRuleHiWrite mid _ => decide (mid < 4096)
  | .tracePacket => true
  | .traceSinkWrite cs => decide (cs.length ≤ 64) && cs.all (fun c => decide (c < 16))
  | .registerWrite mid offset _ => decide (mid < 4096) && decide (offset < 0x1D0000)
  | .haltNHigh => true
  | .vddAonDown => true
  | .ethLinkStateChange port _ fec => decide (port < 2) && decide (fec < 4)
  | .ethernetFrameRx port _ => decide (port < 2)
  | .jtagAccess op addr n ws => decide (op < 256) && decide (addr < 2 ^ 48) && decide (n < 65) && decide (ws.length ≤ 64)
  | .illegalInstruction s => decide (s < 128)
  | .clmStarveLimit cl bank => decide (cl < 16) && decide (bank < 32)
  | .hubMonIntervalEnd _ => true

end Sys2Proof
end

