-- ==== Sys2Proof/Tests/Slice0.lean ====
section
/-!
SUPPORT. Tests: operands at their bounds for WellFormed, words and figures that the spec gives, and for every statement with
hypotheses states and operands that meet them, one for each of its clauses.
-/

namespace Sys2Proof.Machine

/-- A state with its device changed once more. -/
def State.ofDev (s : State) (f : Dev → Dev) : State := s.withDev (f s.dev)

/-- The device after the fetch of shuttle 0. -/
def State.fetched (s : State) : Dev := (s.dev.shFetch 0).1

end Sys2Proof.Machine

namespace Sys2Proof.Tests

open Sys2Proof.Machine

set_option maxRecDepth 8000
set_option linter.unusedTactic false
set_option linter.unreachableTactic false
set_option Elab.async false

/-! ### States for the tests -/

/-- A state: the machine after reset, with its device changed, and then fields of its registers set. -/
def wit (f : Dev → Dev) (l : List (Fld × Nat)) : State :=
  State.reset.withDev (l.foldl (fun d x => d.setFld x.1 x.2) (f State.reset.dev))

/-- The field of the treadle's state. -/
abbrev fTs : Fld := F.TRD_STATUS_STATE

/-- An attempt runs on harness 0 of beam 0, at depth 64, with these stored words. -/
def wRun (ws : List (Nat × PickWord)) (g : Loom → Loom) (l : List (Fld × Nat)) : State :=
  wit (fun d => d.onLoom (fun x => g { x with phase := .running, need := [(0, 1)], jac := ws })) ((F.LOM_DEPTH_D, 64) :: l)

/-- A pick word of opcode op, with these INV bits. -/
def opWord (op inv : Nat) : PickWord := BitVec.ofNat 72 (op * 2 ^ 64 + 2 ^ 52 + inv * 2 ^ 48)

/-- A closed handshake of an operation at pick 0, with these latched operands of heddle 0. -/
def wClosed (op idx : Nat) (g : Loom → Loom) (l : List (Fld × Nat)) : State :=
  wRun [(0, opWord op 0)] (fun x => g { x with closed := [(0, 1)], operands := [(0, 1 + idx)] }) l

/-- The charter of a device of a weave of two. -/
def chartOf (role : Nat) : Charter :=
  { seq := 0, systemId := 5, site := 0, name := [], role, position := 0, size := 2, linkMap := [0, 1, 2, 3], laneMap := [],
    gpio := [], catalogue := [], authority := none, writes := [], filters := [], rules := [] }


/-- An AUTHORITY record: every right, and one filter. -/
def authRecord : Authority :=
  { jtagOwner := true, opRights := 31, udpPort := 7140, mtu := 1500,
    ports := List.replicate 2 { mac := 1, vid := 0, tagged := false, ip := 0x0A000001, mask := 0, gateway := 0, mode := 1, fec := 0 },
    filters := [⟨0x0A000000, 8, 3, 31⟩] }

/-- A device alone, with that record and port 0 up. -/
def wEth (f : Dev → Dev) (l : List (Fld × Nat)) : State :=
  wit (fun d => f { d with charter := some { chartOf 0 with size := 1, authority := some authRecord } })
    ((F.ETH_PORT_STATUS_UP.at 0, 1) :: (F.GK_ENT0_PRIV.at (gkKey 0 0), 0) :: l)

/-- A device whose PTP rings lie at the foot of trained HBM. -/
def wRing (f : Dev → Dev) : State := wEth (fun d => f { d with plat := { d.plat with hbmReady := true } }) []

/-- A loom control request. -/
def ctlReq (op seq : Nat) (body : List Byte) : List Byte :=
  leBytes 2 0x4C43 ++ leBytes 1 1 ++ leBytes 1 1 ++ leBytes 2 op ++ leBytes 2 0 ++ leBytes 4 seq ++ leBytes 2 body.length ++
    leBytes 2 0 ++ body

/-- The request as it waits, from one source with these rights. -/
def ethReq (rights op : Nat) (body : List Byte) : EthReq := ⟨0x0A000002, 5000, rights, ctlReq op 9 body⟩

/-- A device whose port 0 holds that request. -/
def wReq (rights op : Nat) (body : List Byte) (f : Dev → Dev) : State :=
  wEth (fun d => f { d with eth := { d.eth with queue0 := [ethReq rights op body] } }) []

/-- The AON domain runs, and the hub answers. -/
def wAon (f : Dev → Dev) (l : List (Fld × Nat)) : State :=
  wit (fun d => f { d with plat := { d.plat with crystalDone := true, aonPll := 2, pllUp := 16 } }) l

/-- The records of a small charter copy. -/
def chrRecs : List ChrRec :=
  [(1, List.replicate 32 0), (2, [0, 0, 1, 0, 0, 1, 2, 3]), (4, List.replicate 192 0), (6, List.replicate 64 0)]

/-- The copy without its CRC. -/
def chrBody : List Byte :=
  leBytes 4 0x52484344 ++ leBytes 4 1 ++ leBytes 4 348 ++ leBytes 4 7 ++ leBytes 16 0 ++
    chrRecs.flatMap (fun r => leBytes 2 r.1 ++ leBytes 2 r.2.length ++ r.2)

/-- Flash that holds it as copy A. -/
def chrFlash : SMap Byte :=
  ((chrBody ++ leBytes 4 (crc32c chrBody)).zipIdx.filter (fun x => x.1 ≠ 0xFF)).map (fun x => (x.2, x.1))

/-- A device that waits for its charter. -/
def wChr (fl : SMap Byte) : State :=
  wit (fun d => { d with flash := fl, plat := { d.plat with stage := 3, crystalDone := true, aonPll := 2 } }) []

/-- A catalogue entry of one sector. -/
def catC : CatEntry := { valid := true, part := 0, lba := 0, sectors := 1, catVersion := 0, imageId := 0 }

/-- A device whose slot 0 has two entries. -/
def wLdr (f : Dev → Dev) (l : List (Fld × Nat)) : State :=
  wit (fun d => f { d with charter := some { chartOf 0 with size := 1, catalogue := [catC, catC] },
                           plat := { d.plat with hbmReady := true } }) l

/-- The load of slot 0 at its first entry. -/
def load0 : LoadSt := ⟨false, 0, 0, 1, 0, none, State.reset.dev.fld F.LDR_MODEL_BASE_BASE * 256, false⟩

/-- An image of one empty section and no beam: 304 bytes. -/
def imgHead : List Byte :=
  leBytes 4 0x4C525044 ++ leBytes 2 1 ++ leBytes 2 256 ++ leBytes 12 0 ++ leBytes 4 (State.reset.dev.reg R.CHIP_ID).toNat ++
    leBytes 2 3 ++ leBytes 2 1 ++ leBytes 2 1 ++ leBytes 2 0xFF00 ++ leBytes 8 304 ++ leBytes 212 0
def imgBody : List Byte :=
  imgHead ++ leBytes 4 (crc32c imgHead) ++ leBytes 4 10 ++ leBytes 4 0xFFFFFFFF ++ leBytes 8 288 ++ leBytes 16 0
def imgBytes : List Byte := imgBody ++ leBytes 4 0x444E454C ++ leBytes 4 (crc32c imgBody) ++ leBytes 8 304

/-- What an attempt at an entry gives. -/
def imgOf (e : Except LoadFail (Image × Loom × (Nat × Nat))) : Image × Loom × (Nat × Nat) :=
  match e with
  | .ok x => x
  | .error _ => (⟨[], []⟩, Loom.empty, (0, 0))
def errOf (e : Except LoadFail (Image × Loom × (Nat × Nat))) : LoadFail :=
  match e with
  | .ok _ => ⟨0, 0⟩
  | .error f => f
def img0 : Image := (imgOf ((wLdr id []).dev.tryEntry imgBytes catC 0)).1
def loomOf (e : Except LoadFail Loom) : Loom :=
  match e with
  | .ok x => x
  | .error _ => Loom.empty

/-- A lane in a state, with its record changed. -/
def wLane (ph st : Nat) (f : Lane → Lane) (l : List (Fld × Nat)) : State :=
  wit (fun d => d.onLane ph f) ((F.WRP_LANE_STATUS_STATE.at ph, st) :: l)

/-- A DATA frame that waits for its ACK. -/
def frame (seq : Nat) : WFrame := ⟨1, seq, 0, 0, 0, 0, 0, true⟩

/-- Weft link 0 in a state, its lanes UP, in a weave of two. -/
def wLink (st : Nat) (f : WLink → WLink) (l : List (Fld × Nat)) : State :=
  wit (fun d => { d with charter := some (chartOf 1) }.onLink 0 f)
    ((List.range 4).map (fun i => (F.WRP_LANE_STATUS_STATE.at (128 + i), lnUp)) ++
      (F.WFT_LINK_STATUS_STATE.at 0, st) :: (F.TRD_WEAVE_ROLE, 1) :: l)

/-- Capture unit 15 in a state, with a mode of 1, a ring of 64 bytes at address 512, and its record changed. -/
def wCap (st : Nat) (f : CapUnit → CapUnit) (l : List (Fld × Nat)) : State :=
  wit (fun d => d.onUnit 15 f) ((F.CAP_UNIT_STATUS_STATE.at 15, st) :: (F.CAP_UNIT_CFG_MODE.at 15, 1) ::
    (F.CAP_UNIT_CFG_SIZE.at 15, 6) :: (F.CAP_BUF_BASE_BASE.at 15, 2) :: l)

/-- A record at beat 9. -/
def capRec (waits : List Nat) : CapRec := ⟨9, 5, 3, waits, false, 0, false, []⟩

/-- Fail map 3, of 8 words at address 512, with its registers and the collector's state changed. -/
def wMap (f : Dev → Dev) (l : List (Fld × Nat)) : State :=
  wit f ((F.FMP_DESC_VALID.at 3, 1) :: (F.FMP_DESC_ROW_BITS.at 3, 2) :: (F.FMP_DESC_CW_BITS.at 3, 1) :: (F.FMP_BASE_BASE.at 3, 2) ::
    (F.FMP_SEL_MAP, 3) :: l)

/-- The word of an instruction: its op, its fields D, A and B, and its bits 16..0 below B. -/
def shw (op rd ra rb low : Nat) : Word := BitVec.ofNat 32 (op * 2 ^ 27 + rd * 2 ^ 22 + ra * 2 ^ 17 + rb * 2 ^ 12 + low)

/-- Shuttle 0 runs an item in FIRMWARE, at a word at the foot of its cached line 0, with a handler at 0x100. -/
def shAt (w : Word) : Shuttle :=
  { Shuttle.empty with priv := true, item := some ⟨0, 0, 0, none, false⟩, tvec := 0x100, icache := [⟨0, w.setWidth 512, 0, false⟩],
                       g := [(1, BitVec.ofNat 64 (2 ^ 63 + 5)), (2, 67)] }
def wShD (w : Word) (f : Shuttle → Shuttle) (g : Dev → Dev) (l : List (Fld × Nat)) : State :=
  wit (fun d => g ({ d with plat := { d.plat with hbmReady := true } }.onSh 0 (fun _ => f (shAt w)))) l
def wSh (w : Word) (f : Shuttle → Shuttle) : State := wShD w f id []

/-- The bytes, or the word, of an access that succeeds. -/
def okOf (r : Dev × Except ShTrap (List Byte)) : List Byte :=
  match r.2 with
  | .ok bs => bs
  | .error _ => []
def okWord (r : Dev × Except ShTrap Word) : Word :=
  match r.2 with
  | .ok w => w
  | .error _ => 0

/-- The descriptor of an item that notifies shuttle 127 and counts in counter 63, with further bits. -/
def descOf (x : Nat) : BitVec 256 :=
  BitVec.ofNat 256 (0x1000 + 7 * 2 ^ 64 + 9 * 2 ^ 128 + 3 * 2 ^ 153 + 127 * 2 ^ 176 + 63 * 2 ^ 184 + 0xFFFF * 2 ^ 192 + x)

/-- A bobbin channel with FIRMWARE rights, in a state, with its record changed. -/
def wBob (st : Nat) (f : Bob → Bob) (l : List (Fld × Nat)) : State :=
  wit (fun d => { d with plat := { d.plat with hbmReady := true } }.onBob 31 (fun b => f { b with priv := true, tokens := bobBucket }))
    ((F.BOB_CH_STATUS_STATE.at 31, st) :: l)

/-- A descriptor that copies 32 bytes from the second tablet memory's foot into the first's. -/
def bobDesc : BitVec 512 :=
  BitVec.ofNat 512 (tabletBase + 0x40000 + tabletBase * 2 ^ 64 + 32 * 2 ^ 128 + 2 ^ 160 + 32 * 2 ^ 256 + 2 ^ 288)

/-- A hub request to the last line of the first tablet memory. -/
def hubQ (mid : Nat) : HubReq := ⟨3, mid, tabletBase + 0x3FFC5, 31, 0, none⟩

/-- An ALERT rule of one sample's persistence on a sensor above 0. -/
def wRule (i : Nat) : Nat := 2 ^ 31 + acALERT * 2 ^ 27 + 2 ^ 26 + i * 2 ^ 18

/-- Results of checks are compared as data. -/
def decExc {ε α : Type} [DecidableEq ε] [DecidableEq α] : DecidableEq (Except ε α) := fun a b =>
  match a, b with
  | .ok x, .ok y => decidable_of_iff (x = y) (by simp)
  | .error x, .error y => decidable_of_iff (x = y) (by simp)
  | .ok _, .error _ => isFalse (by simp)
  | .error _, .ok _ => isFalse (by simp)

/-- MACD A3 on the last word of shuttle 0's tablet memory and the first one, with the accumulator at its largest value. -/
def macW : Word := BitVec.ofNat 32 (16 * 2 ^ 27 + 3 * 2 ^ 24 + 7 * 2 ^ 21 + 6 * 2 ^ 18 + 3 * 2 ^ 13 + 4 * 2 ^ 8)
def macS : State :=
  wShD macW (fun x => { x with g := [(3, 0x3FFFC)], ofs := [(6, 4), (7, -4)], acc := [(3, BitVec.ofNat 40 (2 ^ 39 - 1))] })
    (fun d => (d.setBytes tabletBase [2, 0, 3, 0]).setBytes (tabletBase + 0x3FFFC) [5, 0, 255, 255]) []
def macF : Dev := (macS.fetched.macWord 0 0x3FFFC).1
def macG : Dev := (macF.macWord 0 0).1
/-- EXT of A3, and a shuttle whose A3 lies below the least 40-bit result. -/
def extW : Word := BitVec.ofNat 32 (18 * 2 ^ 27 + 31 * 2 ^ 22 + 2 ^ 21 + 2 * 2 ^ 19 + 3 * 2 ^ 17 + 63 * 2 ^ 11)
def wAcc (w : Word) : State := wSh w (fun x => { x with acc := [(3, BitVec.ofNat 40 (2 ^ 39 + 9))] })

/-- The foot of a PTP message over UDP and IPv4, of message type 0 and domain 0. -/
def ptpFrame : List Byte := List.replicate 12 0 ++ [8, 0, 0x45] ++ List.replicate 8 0 ++ [17] ++ List.replicate 51 0

/-- What holds at every offset below a length holds at every address of that span. -/
theorem allFrom {P : Nat → Prop} {lo n : Nat} (h : ∀ i, i < n → P (lo + i)) : ∀ a, lo ≤ a → a < lo + n → P a :=
  fun a h1 h2 => by
    have h3 := h (a - lo) (by omega)
    rwa [Nat.add_sub_cancel' h1] at h3

/-- A pair with a known second part. -/
theorem pairFst {α β : Type} {r : α × β} {v : β} (h : r.2 = v) : r = (r.1, v) := h ▸ rfl

/-- The machine once PORST_N has fallen. -/
def fallen : State :=
  match exec .porstNFall State.reset with
  | .next t => t
  | _ => State.reset

/-! ### An operand at its bound is refused by WellFormed -/

theorem test_illFormed_1 : ∀ c ∈ ([
  .releaseReachesHeddles (2 ^ 48), .plainPick 128 0 0, .plainPick 0 64 0, .plainPick 0 0 32, .mrd 128 0, .mrd 0 64, .mwr 128 0,
  .mwr 0 64, .drd 128 0, .drd 0 64, .dwr 128 0, .dwr 0 64, .put 128 0 0, .put 0 64 0, .put 0 0 32, .edge 128 0 0, .edge 0 64 0,
  .edge 0 0 32, .fail 128 0, .fail 0 64, .brk 128 0 0, .brk 0 64 0, .brk 0 0 32, .reservedEncoding 128 0 0,
  .reservedEncoding 0 64 0, .reservedEncoding 0 0 32, .harnessHandshakeClose 128 0, .harnessHandshakeClose 0 64,
  .windowDelivery 128 0 0, .windowDelivery 0 64 0, .windowDelivery 0 0 32, .beamOutLaneClose 128 0 0 0,
  .beamOutLaneClose 0 64 0 0, .beamOutLaneClose 0 0 8 0, .beamOutLaneClose 0 0 0 2048, .pull 128 0, .pull 0 64,
  .ringInject 128 0, .ringInject 0 1024, .ringExtract 128 0, .ringExtract 0 1024, .tapFifoDrain 128, .failStagingDrain 128,
  .journalSpill 128 0, .journalSpill 0 64, .spillReadback 128, .lineInvalidate 128, .deepReadReturn 128 0 0,
  .deepReadReturn 0 64 0, .deepReadReturn 0 0 2048, .mailboxPortSAccess 4096 0 0 none .apart,
  .mailboxPortSAccess 0 32 0 none .apart, .mailboxPortSAccess 0 0 32768 none .apart, .ptpRxMessage 2 false [],
  .ptpTxDescriptor 2, .txtsPop 2, .query 16 0 0, .query 0 256 0, .query 0 0 65536, .peerStart 16 0 false 0] : List Instr), c.wf = false := by decide +kernel

theorem test_illFormed_2 : ∀ c ∈ ([
  .peerStart 0 256 false 0, .refuse 16, .solo (2 ^ 48), .peerReply 16 0 0 0, .peerReply 0 256 0 0, .peerReply 0 0 256 0,
  .pllLock 17, .pllLockTimeout 17, .porstNRise 16, .hbmTrained 256, .load 256, .flashRead 4096, .flashProgram 4096,
  .flashErase 4096, .blockLockGained 144, .blockLockLost 144, .idleBlockRx 144 0 0 false false,
  .idleBlockRx 0 65536 0 false false, .idleBlockRx 0 0 256 false false, .trainBlockRx 144 ⟨0, 0, 0, 0, 0, 0, 0⟩ 0 false 0,
  .trainBlockRx 0 ⟨0, 0, 0, 0, 0, 0, 0⟩ 256 false 0, .trainBlockRx 0 ⟨0, 0, 0, 0, 0, 0, 0⟩ 0 false 128, .pwrBlockRx 144 0,
  .pwrBlockRx 0 256, .loopBlockRx 128 false, .reservedCtypeRx 128, .laneTrainingTimeout 144, .trainingRetryTimer 144,
  .fastRetrainTimeout 144, .respRx 128 0 0 0 0 0 0 false 0 [0], .respRx 0 256 0 0 0 0 0 false 0 [0],
  .respRx 0 0 256 0 0 0 0 false 0 [0], .respRx 0 0 0 256 0 0 0 false 0 [0], .respRx 0 0 0 0 65536 0 0 false 0 [0],
  .respRx 0 0 0 0 0 256 0 false 0 [0], .respRx 0 0 0 0 0 0 256 false 0 [0], .msgRx 128 0 0 0 false [0],
  .msgRx 0 256 0 0 false [0], .msgRx 0 0 256 0 false [0], .msgRx 0 0 0 256 false [0], .frameCrcFail 144 false false,
  .resendTimeout 128, .lanePowerRequest 128 0, .lanePowerRequest 0 4, .loopbackRequest 128 0 false, .loopbackRequest 0 4 false,
  .send 128 0 false, .send 0 64 false, .linkUp 4 false, .linkDown 4, .alignBlockRx 4 false, .bundleFrameRx 4 0 0 false 0 0 [],
  .bundleFrameRx 0 65536 0 false 0 0 [], .bundleFrameRx 0 0 65536 false 0 0 [], .bundleFrameRx 0 0 0 false (2 ^ 48) 0 [],
  .markFrameRx 4 0 0 false false false false 0 0 0, .markFrameRx 0 65536 0 false false false false 0 0 0,
  .markFrameRx 0 0 65536 false false false false 0 0 0, .markFrameRx 0 0 0 false false false false 16 0 0,
  .markFrameRx 0 0 0 false false false false 0 (2 ^ 48) 0] : List Instr), c.wf = false := by decide +kernel

theorem test_illFormed_3 : ∀ c ∈ ([
  .peerFrameRx 4 0 0 false 0 0 false 0 0 0, .peerFrameRx 0 65536 0 false 0 0 false 0 0 0,
  .peerFrameRx 0 0 65536 false 0 0 false 0 0 0, .peerFrameRx 0 0 0 false 16 0 false 0 0 0,
  .peerFrameRx 0 0 0 false 0 16 false 0 0 0, .peerFrameRx 0 0 0 false 0 0 false 256 0 0,
  .peerFrameRx 0 0 0 false 0 0 false 0 256 0, .statusFrameRx 4 0 0 false 0 0 0 0 0 0, .statusFrameRx 0 65536 0 false 0 0 0 0 0 0,
  .statusFrameRx 0 0 65536 false 0 0 0 0 0 0, .statusFrameRx 0 0 0 false (2 ^ 32) 0 0 0 0 0,
  .statusFrameRx 0 0 0 false 0 16 0 0 0 0, .statusFrameRx 0 0 0 false 0 0 4 0 0 0, .statusFrameRx 0 0 0 false 0 0 0 256 0 0,
  .statusFrameRx 0 0 0 false 0 0 0 0 2 0, .statusFrameRx 0 0 0 false 0 0 0 0 0 4, .doneFrameRx 4 0 0 false 0 false 0,
  .doneFrameRx 0 65536 0 false 0 false 0, .doneFrameRx 0 0 65536 false 0 false 0, .doneFrameRx 0 0 0 false 16 false 0,
  .doneFrameRx 0 0 0 false 0 false 65536, .weftResendTimeout 4, .linkLostTimeout 4, .datagramRx 2 0 0 0 0 false [],
  .datagramRx 0 (2 ^ 32) 0 0 0 false [], .datagramRx 0 0 65536 0 0 false [], .datagramRx 0 0 0 (2 ^ 32) 0 false [],
  .datagramRx 0 0 0 0 65536 false [], .info 2, .regRead 2, .regWrite 2, .memRead 2, .memWrite 2, .logRead 2, .subscribe 2,
  .mgtRead ⟨0, 0, true, false⟩ (2 ^ 48) 1, .mgtRead ⟨0, 0, true, false⟩ 0 65, .mgtWrite ⟨0, 0, true, false⟩ (2 ^ 48) [0],
  .unlockSet false 65536, .arm 16, .capStop 16, .trigger 16, .recordComplete 16, .captureRspTimeout 16, .recordWritten 16,
  .overflowMark 16, .clear 4096, .clearComplete 256, .sum 128, .dif 128, .conj 128, .disj 128, .excl 128, .shl 128, .shr 128,
  .sha 128, .less 128, .lessu 128, .prod 128, .prodhs 128] : List Instr), c.wf = false := by decide +kernel

theorem test_illFormed_4 : ∀ c ∈ ([
  .prodhu 128, .sumk 128, .conjk 128, .disjk 128, .exclk 128, .lessk 128, .topk 128, .get 128, .sto 128, .ifeq 128, .ifne 128,
  .iflt 128, .ifge 128, .iflo 128, .ifhs 128, .leap 128, .via 128, .macd 128, .macp 128, .ext 128, .clra 128, .mva 128,
  .mvta 128, .ldo 128, .rdcw 128, .wrcw 128, .fence 128, .clean 128, .inval 128, .iinv 128, .post 128, .done 128, .wait 128,
  .trap 128, .untrap 128, .waitWake 128, .affinityAgeExpiry 8, .runLimit 128, .wscCancel 65536, .wscPost 4096,
  .handover 4096 0 0, .handover 0 512 0, .or ⟨0, 0, 0, 0, 0, none⟩ 16 0, .hubResponse 8 0 0 0, .hubResponse 0 32 0 0,
  .hubResponse 0 0 32 0, .hubResponse 0 0 0 32, .linkParityResend 8 0 0 false, .linkParityResend 0 2 0 false,
  .linkParityResend 0 0 32 false, .ringLinkFail 8 0 0, .ringLinkFail 0 2 0, .ringLinkFail 0 0 32, .gkSelWrite 4096 0,
  .gkEnt0Write 4096 0, .go 4096 0, .go 0 32, .bobbinAbort 32, .descriptorFetch 32, .hbmRefresh 8 false 0] : List Instr), c.wf = false := by decide +kernel

theorem test_illFormed_5 : ∀ c ∈ ([
  .hbmScrubRead 0x3000000000 .none false, .inject 4096, .run 4096 0, .run 0 16, .burnData 4096, .burnValid 4096,
  .shadowAppend 4096, .shadowErase 4096, .fuseRead 4096, .rollPreloadDone 128, .rollSwapDone 128, .rollSlotTestDone 128 [0],
  .tmtRegionTest 8 0 false, .logClear 4096, .devLowRequest 4096, .devRunRequest 4096, .devOffRequest 4096,
  .panelSleepRequest 4096, .panelOffRequest 4096, .panelActiveRequest 4096 false, .panelSleepEntered 4, .panelWakeDone 4 false,
  .panelWakeTimeout 4, .adaptTick 4 0, .unpark 4096, .wchRuleHiWrite 4096 0, .registerWrite 4096 0 0,
  .registerWrite 0 0x1D0000 0, .ethLinkStateChange 2 false 0, .ethLinkStateChange 0 false 4, .ethernetFrameRx 2 (.echo 0 0 []),
  .jtagAccess 256 0 0 [0], .jtagAccess 0 (2 ^ 48) 0 [0], .jtagAccess 0 0 65 [0], .illegalInstruction 128, .clmStarveLimit 16 0,
  .clmStarveLimit 0 32, .timedLaunch (some 16), .mailboxPortLServe 0 (some (128, 0, 0)) .apart,
  .mailboxPortLServe 0 (some (0, 64, 0)) .apart, .mailboxPortLServe 0 (some (0, 0, 2048)) .apart, .reloadBay 0 (some 256),
  .msgRx 0 0 0 0 false [], .msgRx 0 0 0 0 false (List.replicate 65 0), .mgtRead ⟨0, 0, true, false⟩ 0 0,
  .mgtWrite ⟨0, 0, true, false⟩ 0 [], .mgtWrite ⟨0, 0, true, false⟩ 0 (List.replicate 65 0),
  .jtagAccess 0 0 0 (List.replicate 65 0), .watchSample [], .traceSinkWrite (List.replicate 65 0), .traceSinkWrite [16],
  .read ⟨32, 0, 0, 0, 0, none⟩ 0, .read ⟨0, 4096, 0, 0, 0, none⟩ 0, .read ⟨0, 0, 2 ^ 48, 0, 0, none⟩ 0,
  .read ⟨0, 0, 0, 32, 0, none⟩ 0, .read ⟨0, 0, 0, 0, 0, some 384⟩ 0, .writeL ⟨32, 0, 0, 0, 0, none⟩ 0,
  .writeL ⟨0, 4096, 0, 0, 0, none⟩ 0, .writeL ⟨0, 0, 2 ^ 48, 0, 0, none⟩ 0, .writeL ⟨0, 0, 0, 32, 0, none⟩ 0] : List Instr), c.wf = false := by decide +kernel

theorem test_illFormed_6 : ∀ c ∈ ([
  .writeL ⟨0, 0, 0, 0, 0, some 384⟩ 0, .writeM ⟨32, 0, 0, 0, 0, none⟩ false 0 0, .writeM ⟨0, 4096, 0, 0, 0, none⟩ false 0 0,
  .writeM ⟨0, 0, 2 ^ 48, 0, 0, none⟩ false 0 0, .writeM ⟨0, 0, 0, 32, 0, none⟩ false 0 0,
  .writeM ⟨0, 0, 0, 0, 0, some 384⟩ false 0 0, .or ⟨32, 0, 0, 0, 0, none⟩ 0 0, .or ⟨0, 4096, 0, 0, 0, none⟩ 0 0,
  .or ⟨0, 0, 2 ^ 48, 0, 0, none⟩ 0 0, .or ⟨0, 0, 0, 32, 0, none⟩ 0 0, .or ⟨0, 0, 0, 0, 0, some 384⟩ 0 0,
  .faultFlag ⟨⟨6, 0, 0, 0, 0, 0⟩, []⟩, .faultFlag ⟨⟨0, 128, 0, 0, 0, 0⟩, []⟩, .faultFlag ⟨⟨0, 0, 64, 0, 0, 0⟩, []⟩,
  .faultFlag ⟨⟨0, 0, 0, 32, 0, 0⟩, []⟩, .faultFlag ⟨⟨0, 0, 0, 0, 2048, 0⟩, []⟩, .faultFlag ⟨⟨0, 0, 0, 0, 0, 32⟩, []⟩,
  .eccScrubRead (.jacquard 8192 0 0) .none, .eccScrubRead (.jacquard 0 33 0) .none, .eccScrubRead (.jacquard 0 0 2048) .none,
  .eccScrubRead (.slotEntry 128 0) .none, .eccScrubRead (.slotEntry 0 1024) .none, .eccScrubRead (.descriptor 128) .none,
  .eccScrubRead (.memory (2 ^ 48)) .none, .faultFlag ⟨⟨0, 0, 0, 0, 0, 0⟩, [.word 8192 0 0 1]⟩,
  .faultFlag ⟨⟨0, 0, 0, 0, 0, 0⟩, [.word 0 33 0 1]⟩, .faultFlag ⟨⟨0, 0, 0, 0, 0, 0⟩, [.word 0 0 2048 1]⟩,
  .faultFlag ⟨⟨0, 0, 0, 0, 0, 0⟩, [.shed 8192 0 0 0]⟩, .faultFlag ⟨⟨0, 0, 0, 0, 0, 0⟩, [.shed 0 32 0 0]⟩,
  .faultFlag ⟨⟨0, 0, 0, 0, 0, 0⟩, [.shed 0 0 2 0]⟩, .faultFlag ⟨⟨0, 0, 0, 0, 0, 0⟩, [.shed 0 0 0 2048]⟩,
  .faultFlag ⟨⟨0, 0, 0, 0, 0, 0⟩, [.check 8192 0 0 0]⟩, .faultFlag ⟨⟨0, 0, 0, 0, 0, 0⟩, [.check 0 2 0 0]⟩,
  .faultFlag ⟨⟨0, 0, 0, 0, 0, 0⟩, [.check 0 0 32 0]⟩, .faultFlag ⟨⟨0, 0, 0, 0, 0, 0⟩, [.check 0 0 0 64]⟩,
  .faultFlag ⟨⟨0, 0, 0, 0, 0, 0⟩, [.cache 8192 0 0]⟩, .faultFlag ⟨⟨0, 0, 0, 0, 0, 0⟩, [.cache 0 33 0]⟩,
  .faultFlag ⟨⟨0, 0, 0, 0, 0, 0⟩, [.cache 0 0 2048]⟩, .faultFlag ⟨⟨0, 0, 0, 0, 0, 0⟩, [.code 128 0]⟩,
  .faultFlag ⟨⟨0, 0, 0, 0, 0, 0⟩, [.code 0 (2 ^ 42)]⟩, .faultFlag ⟨⟨0, 0, 0, 0, 0, 0⟩, [.slot 128 0 1]⟩,
  .faultFlag ⟨⟨0, 0, 0, 0, 0, 0⟩, [.slot 0 1024 1]⟩, .faultFlag ⟨⟨0, 0, 0, 0, 0, 0⟩, [.window 128 1]⟩,
  .faultFlag ⟨⟨0, 0, 0, 0, 0, 0⟩, [.tableCache 128 none]⟩, .faultFlag ⟨⟨0, 0, 0, 0, 0, 0⟩, [.tableCache 0 (some 1024)]⟩,
  .faultFlag ⟨⟨0, 0, 0, 0, 0, 0⟩, [.gate 384 0 1]⟩, .faultFlag ⟨⟨0, 0, 0, 0, 0, 0⟩, [.gate 0 4 1]⟩, .replaceEnd [.code 128 0],
  .emmcRetry ⟨2 ^ 32, false⟩, .bobbinResponse ⟨32, false⟩, .mgtStatus ⟨⟨0, 0, true, false⟩, 64, 0⟩,
  .mgtStatus ⟨⟨0, 0, true, false⟩, 0, 2 ^ 48⟩, .mgtStatus ⟨⟨3, 0, true, false⟩, 0, 0⟩, .mgtStatus ⟨⟨0, 128, true, false⟩, 0, 0⟩,
  .trainBlockRx 0 ⟨3, 0, 0, 0, 0, 0, 0⟩ 0 false 0, .trainBlockRx 0 ⟨0, 128, 0, 0, 0, 0, 0⟩ 0 false 0,
  .trainBlockRx 0 ⟨0, 0, 32, 0, 0, 0, 0⟩ 0 false 0, .trainBlockRx 0 ⟨0, 0, 0, 64, 0, 0, 0⟩ 0 false 0,
  .trainBlockRx 0 ⟨0, 0, 0, 0, 64, 0, 0⟩ 0 false 0, .trainBlockRx 0 ⟨0, 0, 0, 0, 0, 65, 0⟩ 0 false 0] : List Instr), c.wf = false := by decide +kernel

theorem test_illFormed_7 : ∀ c ∈ ([
  .trainBlockRx 0 ⟨0, 0, 0, 0, 0, 0, 2⟩ 0 false 0, .mgtRead ⟨3, 0, true, false⟩ 0 1, .mgtRead ⟨0, 128, true, false⟩ 0 1,
  .mgtWrite ⟨3, 0, true, false⟩ 0 [0], .mgtWrite ⟨0, 128, true, false⟩ 0 [0]] : List Instr), c.wf = false := by decide +kernel

/-! ### Operands below their bounds pass WellFormed -/

theorem test_wellFormed_1 : ∀ c ∈ ([
  .releaseReachesHeddles (2 ^ 48 - 1), .plainPick (128 - 1) (64 - 1) (32 - 1), .mrd (128 - 1) (64 - 1), .mwr (128 - 1) (64 - 1),
  .drd (128 - 1) (64 - 1), .dwr (128 - 1) (64 - 1), .put (128 - 1) (64 - 1) (32 - 1), .edge (128 - 1) (64 - 1) (32 - 1),
  .fail (128 - 1) (64 - 1), .brk (128 - 1) (64 - 1) (32 - 1), .reservedEncoding (128 - 1) (64 - 1) (32 - 1),
  .harnessHandshakeClose (128 - 1) (64 - 1), .windowDelivery (128 - 1) (64 - 1) (32 - 1),
  .beamOutLaneClose (128 - 1) (64 - 1) (8 - 1) (2048 - 1), .pull (128 - 1) (64 - 1), .ringInject (128 - 1) (1024 - 1),
  .ringExtract (128 - 1) (1024 - 1), .tapFifoDrain (128 - 1), .failStagingDrain (128 - 1), .journalSpill (128 - 1) (64 - 1),
  .spillReadback (128 - 1), .lineInvalidate (128 - 1), .deepReadReturn (128 - 1) (64 - 1) (2048 - 1),
  .mailboxPortSAccess (4096 - 1) (32 - 1) (32768 - 1) none .apart, .ptpRxMessage (2 - 1) false [], .ptpTxDescriptor (2 - 1),
  .txtsPop (2 - 1), .query (16 - 1) (256 - 1) (65536 - 1), .peerStart (16 - 1) (256 - 1) false 0, .refuse (16 - 1),
  .solo (2 ^ 48 - 1), .peerReply (16 - 1) (256 - 1) (256 - 1) 0, .pllLock (17 - 1), .pllLockTimeout (17 - 1),
  .porstNRise (16 - 1), .hbmTrained (256 - 1), .load (256 - 1), .flashRead (4096 - 1), .flashProgram (4096 - 1),
  .flashErase (4096 - 1), .blockLockGained (144 - 1), .blockLockLost (144 - 1),
  .idleBlockRx (144 - 1) (65536 - 1) (256 - 1) false false,
  .trainBlockRx (144 - 1) ⟨0, 0, 0, 0, 0, 0, 0⟩ (256 - 1) false (128 - 1), .pwrBlockRx (144 - 1) (256 - 1),
  .loopBlockRx (128 - 1) false, .reservedCtypeRx (128 - 1), .laneTrainingTimeout (144 - 1), .trainingRetryTimer (144 - 1),
  .fastRetrainTimeout (144 - 1), .respRx (128 - 1) (256 - 1) (256 - 1) (256 - 1) (65536 - 1) (256 - 1) (256 - 1) false 0 [0],
  .msgRx (128 - 1) (256 - 1) (256 - 1) (256 - 1) false [0], .frameCrcFail (144 - 1) false false, .resendTimeout (128 - 1),
  .lanePowerRequest (128 - 1) (4 - 1), .loopbackRequest (128 - 1) (4 - 1) false, .send (128 - 1) (64 - 1) false,
  .linkUp (4 - 1) false, .linkDown (4 - 1), .alignBlockRx (4 - 1) false] : List Instr), c.wf = true := by decide +kernel

theorem test_wellFormed_2 : ∀ c ∈ ([
  .bundleFrameRx (4 - 1) (65536 - 1) (65536 - 1) false (2 ^ 48 - 1) 0 [],
  .markFrameRx (4 - 1) (65536 - 1) (65536 - 1) false false false false (16 - 1) (2 ^ 48 - 1) 0,
  .peerFrameRx (4 - 1) (65536 - 1) (65536 - 1) false (16 - 1) (16 - 1) false (256 - 1) (256 - 1) 0,
  .statusFrameRx (4 - 1) (65536 - 1) (65536 - 1) false (2 ^ 32 - 1) (16 - 1) (4 - 1) (256 - 1) (2 - 1) (4 - 1),
  .doneFrameRx (4 - 1) (65536 - 1) (65536 - 1) false (16 - 1) false (65536 - 1), .weftResendTimeout (4 - 1),
  .linkLostTimeout (4 - 1), .datagramRx (2 - 1) (2 ^ 32 - 1) (65536 - 1) (2 ^ 32 - 1) (65536 - 1) false [], .info (2 - 1),
  .regRead (2 - 1), .regWrite (2 - 1), .memRead (2 - 1), .memWrite (2 - 1), .logRead (2 - 1), .subscribe (2 - 1),
  .mgtRead ⟨0, 0, true, false⟩ (2 ^ 48 - 1) (65 - 1), .mgtWrite ⟨0, 0, true, false⟩ (2 ^ 48 - 1) [0],
  .unlockSet false (65536 - 1), .arm (16 - 1), .capStop (16 - 1), .trigger (16 - 1), .recordComplete (16 - 1),
  .captureRspTimeout (16 - 1), .recordWritten (16 - 1), .overflowMark (16 - 1), .clear (4096 - 1), .clearComplete (256 - 1),
  .sum (128 - 1), .dif (128 - 1), .conj (128 - 1), .disj (128 - 1), .excl (128 - 1), .shl (128 - 1), .shr (128 - 1),
  .sha (128 - 1), .less (128 - 1), .lessu (128 - 1), .prod (128 - 1), .prodhs (128 - 1), .prodhu (128 - 1), .sumk (128 - 1),
  .conjk (128 - 1), .disjk (128 - 1), .exclk (128 - 1), .lessk (128 - 1), .topk (128 - 1), .get (128 - 1), .sto (128 - 1),
  .ifeq (128 - 1), .ifne (128 - 1), .iflt (128 - 1), .ifge (128 - 1), .iflo (128 - 1), .ifhs (128 - 1), .leap (128 - 1),
  .via (128 - 1), .macd (128 - 1), .macp (128 - 1), .ext (128 - 1), .clra (128 - 1)] : List Instr), c.wf = true := by decide +kernel

theorem test_wellFormed_3 : ∀ c ∈ ([
  .mva (128 - 1), .mvta (128 - 1), .ldo (128 - 1), .rdcw (128 - 1), .wrcw (128 - 1), .fence (128 - 1), .clean (128 - 1),
  .inval (128 - 1), .iinv (128 - 1), .post (128 - 1), .done (128 - 1), .wait (128 - 1), .trap (128 - 1), .untrap (128 - 1),
  .waitWake (128 - 1), .affinityAgeExpiry (8 - 1), .runLimit (128 - 1), .wscCancel (65536 - 1), .wscPost (4096 - 1),
  .handover (4096 - 1) (512 - 1) 0, .or ⟨0, 0, 0, 0, 0, none⟩ (16 - 1) 0, .hubResponse (8 - 1) (32 - 1) (32 - 1) (32 - 1),
  .linkParityResend (8 - 1) (2 - 1) (32 - 1) false, .ringLinkFail (8 - 1) (2 - 1) (32 - 1), .gkSelWrite (4096 - 1) 0,
  .gkEnt0Write (4096 - 1) 0, .go (4096 - 1) (32 - 1), .bobbinAbort (32 - 1), .descriptorFetch (32 - 1),
  .hbmRefresh (8 - 1) false 0, .hbmScrubRead (0x3000000000 - 1) .none false, .inject (4096 - 1), .run (4096 - 1) (16 - 1),
  .burnData (4096 - 1), .burnValid (4096 - 1), .shadowAppend (4096 - 1), .shadowErase (4096 - 1), .fuseRead (4096 - 1),
  .rollPreloadDone (128 - 1), .rollSwapDone (128 - 1), .rollSlotTestDone (128 - 1) [0], .tmtRegionTest (8 - 1) 0 false,
  .logClear (4096 - 1), .devLowRequest (4096 - 1), .devRunRequest (4096 - 1), .devOffRequest (4096 - 1),
  .panelSleepRequest (4096 - 1), .panelOffRequest (4096 - 1), .panelActiveRequest (4096 - 1) false, .panelSleepEntered (4 - 1),
  .panelWakeDone (4 - 1) false, .panelWakeTimeout (4 - 1), .adaptTick (4 - 1) 0, .unpark (4096 - 1),
  .wchRuleHiWrite (4096 - 1) 0, .registerWrite (4096 - 1) (0x1D0000 - 1) 0, .ethLinkStateChange (2 - 1) false (4 - 1),
  .ethernetFrameRx (2 - 1) (.echo 0 0 []), .jtagAccess (256 - 1) (2 ^ 48 - 1) (65 - 1) [0], .illegalInstruction (128 - 1)] : List Instr), c.wf = true := by decide +kernel

theorem test_wellFormed_4 : ∀ c ∈ ([
  .clmStarveLimit (16 - 1) (32 - 1)] : List Instr), c.wf = true := by decide +kernel

/-! ### Words of the spec's encodings, bit by bit -/

/-- The shuttle's formats (12 R355, R356): the word's fields from bit 31 down. -/
theorem test_wordsOfFormatA :
    shDecode 0b00001_00011_00001_00010_000000_000000 = some (.sum 3 1 2) ∧
    shDecode 0b00001_11111_00001_00010_001100_000000 = some (.prodhu 31 1 2) ∧
    shDecode 0b00001_00011_00001_00010_001101_000000 = none ∧ shDecode 0b00001_00011_00001_00010_000000_000001 = none ∧
    shDecode 0 = none := by decide +kernel

theorem test_wordsOfFormatsKAndT :
    shDecode 0b00010_00011_00001_11111111111111111 = some (.sumk 3 1 0x1FFFF) ∧
    shDecode 0b00111_00011_00000_00000000000000001 = some (.topk 3 1) ∧ shDecode 0b00111_00011_00001_00000000000000001 = none ∧
    shDecode 0b01000_00011_00001_110_11111111111111 = some (.get 3 1 6 0x3FFF) ∧
    shDecode 0b01000_00011_00001_111_11111111111111 = none ∧
    shDecode 0b01001_00011_00001_011_00000000000001 = some (.sto 3 1 3 1) ∧
    shDecode 0b01001_00011_00001_100_00000000000001 = none ∧
    shDecode 0b01100_00011_00001_00000000000000001 = some (.via 3 1 1) := by decide +kernel

theorem test_wordsOfFormatsCAndL :
    shDecode 0b01010_101_00001_00010_11111111111111 = some (.ifhs 1 2 0x3FFF) ∧
    shDecode 0b01010_110_00001_00010_11111111111111 = none ∧
    shDecode 0b01011_00011_1111111111111111111111 = some (.leap 3 0x3FFFFF) := by decide +kernel

theorem test_wordsOfTheMeasureDatapath :
    shDecode 0b10000_1_11_101_010_00011_00100_00000000 = some (.macd true 3 5 2 3 4) ∧
    shDecode 0b10001_0_01_101_010_00011_00100_00000000 = some (.macp false 1 5 2 3 4) ∧
    shDecode 0b10010_00111_1_10_11_001111_00000000000 = some (.ext 7 true 2 3 15) ∧
    shDecode 0b10010_00111_1_11_11_001111_00000000000 = none ∧
    shDecode 0b10011_00000_000_11_00000000000000000 = some (.clra 3) ∧
    shDecode 0b10100_00111_000_11_00000000000000000 = some (.mva 7 3) ∧
    shDecode 0b10101_00011_00001_00000000000000000 = some (.mvta 3 1) ∧
    shDecode 0b10110_00111_00001_00000000000000000 = some (.ldo 7 1) := by decide +kernel

theorem test_wordsOfFormatY :
    shDecode 0b11111_00011_00000_00000_01011_0_000000 = some (.rdcw 3 11) ∧
    shDecode 0b11111_00011_00000_00000_01100_0_000000 = none ∧
    shDecode 0b11111_00000_00001_00000_00001_0_000001 = some (.wrcw 1 1) ∧
    shDecode 0b11111_00000_00000_00000_00000_0_000010 = some .fence ∧
    shDecode 0b11111_00000_00001_00010_00000_0_000100 = some (.inval 1 2) ∧
    shDecode 0b11111_00011_00001_00000_00000_0_000110 = some (.post 3 1) ∧
    shDecode 0b11111_00000_00000_00010_00000_0_001001 = some (.trap 2) ∧
    shDecode 0b11111_00000_00000_00000_00000_0_001010 = some .untrap := by decide +kernel

/-- The words of the three-bit counter of 03: their truth tables, operand fields and kinds. -/
def counterWords : List PickWord := [0x6AAA00000001002C05, 0x66AA00001002E00C05, 0x55AA00002E00E00C05, 0x051210000E00E00000]
theorem test_counterPickWords :
    counterWords.map PickW.tt = [0x6AAA, 0x66AA, 0x55AA, 0x0512] ∧
    (counterWords.map (fun w => (List.range 4).map (PickW.fieldOf w))) = [[0, 1, 2, 0xC05], [1, 2, 0xE00, 0xC05],
      [2, 0xE00, 0xE00, 0xC05], [0, 0xE00, 0xE00, 0]] ∧
    counterWords.map (fun w => pickKind 0 w) = [.plain, .plain, .plain, .put] := by decide +kernel

/-! ### Figures of the spec -/

/-- The counter at beat 3: from q2 q1 q0 = 0 1 1 with en = 1, pick 0 gives q2 = 1 (03, "Running it"). -/
def counterAt (done : Nat) (cur : List (Nat × Bool)) : State :=
  wRun (counterWords.zipIdx.map (fun x => (x.2, x.1))) (fun l => { l with
    done := SMap.put 0 [] (hkOf 0 0) done, portIn := [(5, true)],
    shed := cur.foldl (fun m x => SMap.put false m x.1 x.2) (SMap.put false (SMap.put false [] (shedKey (hkOf 0 0) 1 1) true)
      (shedKey (hkOf 0 0) 1 2) true) }) []
def shedAfter (o : Outcome) (i : Nat) : Option Bool :=
  match o with
  | .next t => some (SMap.get false t.dev.loom.shed (shedKey (hkOf 0 0) 0 i))
  | _ => none
theorem test_counterCountsToFour :
    shedAfter (exec (.plainPick 0 0 0) (counterAt 0 [])) 0 = some true ∧
    shedAfter (exec (.plainPick 0 0 0) (counterAt 1 [(shedKey (hkOf 0 0) 0 0, true)])) 1 = some false ∧
    shedAfter (exec (.plainPick 0 0 0) (counterAt 2 [(shedKey (hkOf 0 0) 0 0, true)])) 2 = some false := by decide +kernel

/-- CRC-32C of "123456789" (08). -/
theorem test_crcCheckValue : crc32c [0x31, 0x32, 0x33, 0x34, 0x35, 0x36, 0x37, 0x38, 0x39] = 0xE3069283 := by decide +kernel

/-- The stride that defeats the fold: rows (0, 0), (0, 0x5B) and (1, 0) lie in pseudo-channel 54 (05). -/
theorem test_hashFoldsToOnePseudoChannel :
    [0x1234000000, 0x1234000000 + 0x5B * 0x10100, 0x1234000000 + 0x101000000].map
      (Loom.hbmPc { Loom.empty with hashSeed := 0x5A3C91E7 }) = [54, 54, 54] := by decide +kernel

/-- EXT of the scaled sample block (12). -/
theorem test_extOfTheSampleBlock :
    extValue 1614397440 true 1 15 = 49268 ∧ extValue 1614397440 true 0 15 = 32767 ∧
    extValue 1614397440 false 0 15 = BitVec.ofInt 64 (-16268) := by decide +kernel

/-- The filter of the thermal throttle: K = 3, 1440, and SRC 0 at 1600 (15). -/
def filtAt (y : Nat) : Dev :=
  (wit (fun d => { d with plat := { d.plat with watch := { d.plat.watch with primed := 1 } } }) [(F.WCH_FILT_EN.at 0, 1),
    (F.WCH_FILT_K.at 0, 3), (F.WCH_SRC_VAL_VALUE.at 0, 1600), (F.WCH_VALUE_Y.at 0, y)]).dev
theorem test_filterFollowsTheStep :
    [1440, 1460, 1477, 1492, 1505, 1516, 1526, 1535, 1543].map (fun y => ((filtAt y).filterStep 0).fld (F.WCH_VALUE_Y.at 0)) =
      [1460, 1477, 1492, 1505, 1516, 1526, 1535, 1543, 1550] := by decide +kernel

/-- The memory fail map of 11: map 5 of 2 ^ 23 words, and word 5552447 at BASE + 0x152E4FC. -/
def failS (old : List Byte) : State :=
  wit (fun d => { d with cap := { d.cap with applying := [⟨5, 0x54B93F, 0x8004, 9000, 0, 0, 0⟩] } }.setBytes 0x152E4FC old)
    [(F.FMP_DESC_VALID.at 5, 1), (F.FMP_DESC_ROW_BITS.at 5, 14), (F.FMP_DESC_CW_BITS.at 5, 9)]
def failAfter (o : Outcome) : Option (List Byte × Nat × Nat) :=
  match o with
  | .next t => some (t.dev.bytes 0x152E4FC 4, t.dev.fld (F.FMP_REC_CNT_COUNT.at 5), t.dev.fld (F.FMP_NEWBITS_COUNT.at 5))
  | _ => none
theorem test_failMapOrs :
    failAfter (exec .failMapOr (failS [])) = some ([4, 0x80, 0, 0], 1, 2) ∧
    failAfter (exec .failMapOr (failS [4, 0x80])) = some ([4, 0x80, 0, 0], 1, 0) := by decide +kernel

/-- The two descriptors of the per-pin planes of 13: bit 5 of source word 8 goes to bit 8 of word 5 of its block, and element 37 of the
deinterleave to part 5, element 1. -/
def planeBlock : List Byte := (List.range 128).map (fun j => if j = 32 then 0x20 else 0)
theorem test_planesAreTransposed :
    (List.range 128).map (Bd.out (BitVec.ofNat 512 (128 * 2 ^ 128 + 2 ^ 160 + 128 * 2 ^ 256 + 2 ^ 288 + 2 ^ 384)) planeBlock) =
      (List.range 128).map (fun j => if j = 21 then 1 else 0) := by decide +kernel

/-- No row of the opcode table has bits, so no word spells a command. -/
theorem test_noWordSpellsACommand : decodeTableWord 32 0xFFFFFFFF = none ∧ State.reset.withFetchWord 32 5 = State.reset := by
  decide +kernel

/-! ### Every clause of every statement has states and operands that meet its hypotheses -/

theorem witness_HeldInResetIsKept :
    ∃ s t : State, s.dev.heldInReset ∧ (∀ c ∈ s.pending, ∀ straps, c ≠ .porstNRise straps) ∧ step s = .next t := by
  refine ⟨{ fallen with pending := [.stop] }, { fallen with pending := [] }, ?_, ?_, rfl⟩
  · repeat' first | decide +kernel | refine And.intro ?_ ?_
  · intro c hc straps
    simp only [List.mem_singleton] at hc
    subst hc
    exact Instr.noConfusion

theorem witness_QueueRunsInOrder :
    ∃ (cs : List Instr) (s : State), s.pending = cs ∧ cs.length = 2 :=
  ⟨[.stop, .haltNLow], { State.reset with pending := [.stop, .haltNLow] }, rfl, rfl⟩

theorem witness_OffIsKept :
    ∃ s t : State, s.dev.isOff ∧ s.pending.head? ≠ some .porstNFall ∧ s.pending.head? ≠ some .vddAonDown ∧ step s = .next t := by
  refine ⟨{ wit id [(F.PWR_STATUS_DEV, 2)] with pending := [.wrstNRise] }, { wit id [(F.PWR_STATUS_DEV, 2)] with pending := [] },
    ?_, fun h => Instr.noConfusion (Option.some.inj h), fun h => Instr.noConfusion (Option.some.inj h), ?_⟩
  · repeat' first | decide +kernel | refine And.intro ?_ ?_
  · rfl

theorem witness_IdleStepCountsTime :
    (∃ (s : State), (s.pending = []) ∧ (s.dev.on = true) ∧ (s.dev.plat.pllUp.testBit 3 = true) ∧ (s.dev.fld F.PTP_CTL_SRC = 0) ∧
    (s.dev.tb.frac < 2 ^ 32) ∧ (s.dev.ldr.load = none) ∧ ((∀ x ∈ s.dev.hubd.shuttles, x.2.wbuf = [])) ∧ ((∀ p < 4, (s.dev.link
    p).sendq = []))) :=
  ⟨wit (fun d => { d with plat := { d.plat with pllUp := 8 } }) [],
      by repeat' first | exact rfl | decide +kernel | refine And.intro ?_ ?_⟩

theorem witness_MemoryWritesAndClears :
    (∃ (a : Nat), ∃ (bs : List Byte), ∃ (x : Nat), (x < a ∨ a + bs.length ≤ x)) ∧
    (∃ (a : Nat), ∃ (b : Nat), ∃ (x : Nat), (a ≤ x) ∧ (x < b)) ∧
    (∃ (a : Nat), ∃ (b : Nat), ∃ (x : Nat), (x < a ∨ b ≤ x)) ∧
    (∃ (d : Dev), (d.memWf)) := by
  refine ⟨⟨100, [1,0,2], 103,
      by repeat' first | exact rfl | decide +kernel | refine And.intro ?_ ?_⟩,
    ⟨100, 200, 199,
      by repeat' first | exact rfl | decide +kernel | refine And.intro ?_ ?_⟩,
    ⟨100, 200, 200,
      by repeat' first | exact rfl | decide +kernel | refine And.intro ?_ ?_⟩,
    ⟨State.reset.dev,
      by repeat' first | exact rfl | decide +kernel | refine And.intro ?_ ?_⟩⟩

theorem witness_ResetPinsAndAonSupply :
    (∃ (s : State), (s.dev.plat.aonUp = false)) :=
  ⟨wit (fun d => { d with plat := { d.plat with aonUp := false } }) [],
      by repeat' first | exact rfl | decide +kernel | refine And.intro ?_ ?_⟩

theorem witness_StartIsAccepted :
    (∃ (s : State), (s.dev.ringsOn = true) ∧ (s.dev.panelsAwake = true) ∧ (s.dev.startRefusal false = 0) ∧ ((s.dev.fld F.TRD_CTL_MODE =
    1 → s.dev.armCompute.arm.2 = true)) ∧ ((s.dev.role = roSingle ∨ (s.dev.role = roLeader ∧ s.dev.others ≠ [])))) :=
  ⟨wit id [(fTs, tsArmed)],
      by repeat' first | exact rfl | decide +kernel | refine And.intro ?_ ?_⟩

theorem witness_StartIsRefused :
    (∃ (s : State), (s.dev.ringsOn = true) ∧ (s.dev.panelsAwake = true) ∧ (s.dev.startRefusal false ≠ 0)) ∧
    (∃ (s : State), (s.dev.ringsOn = true) ∧ (s.dev.panelsAwake = true) ∧ (s.dev.startRefusal false = 0) ∧ (s.dev.fld F.TRD_CTL_MODE =
    1) ∧ (s.dev.armCompute.arm.2 = false)) := by
  refine ⟨⟨State.reset,
      by repeat' first | exact rfl | decide +kernel | (unfold Dev.arm; split <;> decide +kernel) | refine And.intro ?_ ?_⟩,
    ⟨wit id [(fTs, tsArmed), (F.TRD_CTL_MODE, 1), (F.TRD_PERIOD_PERIOD, 50), (F.TRD_MARGIN_TP_ARM, 0xFFFF)],
      by repeat' first | exact rfl | decide +kernel | (unfold Dev.arm; split <;> decide +kernel) | refine And.intro ?_ ?_⟩⟩

theorem witness_StopAndCancel :
    (∃ (s : State), ∃ c, (c ∈ [(Instr.stop, 2), (Instr.cancel, 3)]) ∧ (s.dev.ringsOn = true) ∧ (s.dev.ts = tsStarting) ∧ (s.dev.unmet ≠
    0) ∧ (s.dev.ldr.bay = none)) ∧
    (∃ (s : State), (s.dev.ringsOn = true) ∧ (s.dev.ts = tsStarting) ∧ (s.dev.unmet = 0)) ∧
    (∃ (s : State), (s.dev.ringsOn = true) ∧ (s.dev.ts = tsBeat)) ∧
    (∃ (s : State), ∃ c, (c ∈ [(Instr.stop, 2), (Instr.cancel, 3)]) ∧ (s.dev.ringsOn = true) ∧ (s.dev.ts = tsIdle)) := by
  refine ⟨⟨wit (fun d => d.onLoom (fun l => { l with readback := [3] })) [(fTs, tsStarting)], (Instr.stop, 2),
      by repeat' first | exact rfl | decide +kernel | refine And.intro ?_ ?_⟩,
    ⟨wit id [(fTs, tsStarting)],
      by repeat' first | exact rfl | decide +kernel | refine And.intro ?_ ?_⟩,
    ⟨wit id [(fTs, tsBeat)],
      by repeat' first | exact rfl | decide +kernel | refine And.intro ?_ ?_⟩,
    ⟨State.reset, (Instr.cancel, 3),
      by repeat' first | exact rfl | decide +kernel | refine And.intro ?_ ?_⟩⟩

theorem witness_HaltRequests :
    (∃ (s : State), (s.dev.ts = tsBeat)) ∧
    (∃ (s : State), (s.dev.on = true) ∧ (s.dev.ts = tsBeat) ∧ (s.dev.weft.start = .idle)) ∧
    (∃ (s : State), (s.dev.ts ≠ tsWaiting)) := by
  refine ⟨⟨wit id [(fTs, tsBeat)],
      by repeat' first | exact rfl | decide +kernel | refine And.intro ?_ ?_⟩,
    ⟨wit id [(fTs, tsBeat)],
      by repeat' first | exact rfl | decide +kernel | refine And.intro ?_ ?_⟩,
    ⟨State.reset,
      by repeat' first | exact rfl | decide +kernel | refine And.intro ?_ ?_⟩⟩

theorem witness_SlotStartsAndResponseTimeout :
    (∃ (s : State), (s.dev.on = true) ∧ (s.dev.trd.gridOn = true) ∧ (s.dev.fld F.TRD_CTL_MODE = 1) ∧ (s.dev.reached s.dev.trd.nextSlot =
    true) ∧ (s.dev.ts = tsWaiting) ∧ (s.dev.unmet6 = 0) ∧ (s.dev.trd.tReady ≠ none)) ∧
    (∃ (s : State), ∃ (ph : Nat), (s.dev.on = true) ∧ (s.dev.lockMissing = some ph) ∧ ((s.dev.ts = tsWaiting ∨ s.dev.ts = tsStarting)) ∧
    (s.dev.unmet6 = 0)) := by
  refine ⟨⟨wit (fun d => d.onTrd (fun r => { r with gridOn := true, tReady := some 0 })) [(fTs, tsWaiting), (F.TRD_CTL_MODE, 1),
    (F.TRD_PERIOD_PERIOD, 50)],
      by repeat' first | exact rfl | decide +kernel | refine And.intro ?_ ?_⟩,
    ⟨wit (fun d => d.setReg R.TRD_LOCKSET0 1) [(fTs, tsWaiting), (F.TRD_CTL_MODE, 2)], 0,
      by repeat' first | exact rfl | decide +kernel | refine And.intro ?_ ?_⟩⟩

theorem witness_TimeBaseCommands_1 :
    (∃ (s : State), (s.dev.on = true) ∧ (s.dev.ts = tsStarting) ∧ (s.dev.trd.timed = true) ∧ (s.dev.reached s.dev.trd.tStart = true)) ∧
    (∃ (s : State), (s.dev.on = true) ∧ (s.dev.fld F.PTP_CTL_TSYNC_OUT = 0) ∧ (s.dev.fld F.PTP_CTL_SRC ≠ 2)) ∧
    (∃ (s : State), (s.dev.on = true) ∧ (s.dev.fld F.PTP_CTL_TSYNC_OUT = 1) ∧ (s.dev.reached (s.dev.reg R.PTP_PPS_NEXT) = true)) ∧
    (∃ (s : State), (s.dev.ringsOn = true)) ∧
    (∃ (s : State), ∃ (x : Word), ∃ (err : Int), ∃ (m : Int), (s.dev.on = true) ∧ (s.dev.fld F.PTP_CTL_SRC = 1) ∧ (s.dev.fld
    F.PTP_STATUS_JUMP_PEND = 0) ∧ (err = x.toInt) ∧ (m = Int.ofNat (s.dev.fld F.PTP_SERVO_RATE_MAX)) ∧ (err.natAbs ≤ s.dev.fld
    F.PTP_JUMP_LIMIT_LIMIT)) ∧
    (∃ (s : State), (s.dev.on = true) ∧ (s.dev.fld F.PTP_CTL_SRC = 1) ∧ (s.dev.fld F.PTP_STATUS_JUMP_PEND = 1)) := by
  refine ⟨⟨wit (fun d => d.onTrd (fun r => { r with timed := true })) [(fTs, tsStarting)],
      by repeat' first | exact rfl | decide +kernel | refine And.intro ?_ ?_⟩,
    ⟨State.reset,
      by repeat' first | exact rfl | decide +kernel | refine And.intro ?_ ?_⟩,
    ⟨wit id [(F.PTP_CTL_TSYNC_OUT, 1)],
      by repeat' first | exact rfl | decide +kernel | refine And.intro ?_ ?_⟩,
    ⟨State.reset,
      by repeat' first | exact rfl | decide +kernel | refine And.intro ?_ ?_⟩,
    ⟨wit id [(F.PTP_CTL_SRC, 1), (F.PTP_JUMP_LIMIT_LIMIT, 100), (F.PTP_SERVO_RATE_MAX, 30), (F.PTP_LOCK_CFG_LOCK_NS, 100),
    (F.PTP_LOCK_CFG_LOCK_N, 1)], 0xFFFFFF9C, (-100), 30,
      by repeat' first | exact rfl | decide +kernel | refine And.intro ?_ ?_⟩,
    ⟨wit id [(F.PTP_CTL_SRC, 1), (F.PTP_JUMP_LIMIT_LIMIT, 100), (F.PTP_STATUS_JUMP_PEND, 1), (F.PTP_STATUS_LOCKED, 1)],
      by repeat' first | exact rfl | decide +kernel | refine And.intro ?_ ?_⟩⟩

theorem witness_TimeBaseCommands_2 :
    (∃ (s : State), ∃ (x : Word), (s.dev.on = true) ∧ (s.dev.fld F.PTP_CTL_SRC = 1) ∧ (s.dev.fld F.PTP_STATUS_HOLDOVER = 0) ∧ (s.dev.fld
    F.PTP_STATUS_JUMP_PEND = 0) ∧ (s.dev.fld F.PTP_STATUS_LOCKED = 0) ∧ (s.dev.fld F.PTP_JUMP_LIMIT_LIMIT < (sgn 32
    x.toNat).natAbs)) ∧
    (∃ (s : State), (s.dev.on = true) ∧ (s.dev.fld F.PTP_STATUS_HOLDOVER = 0) ∧ (s.dev.fld F.PTP_STATUS_LOCKED = 0)) ∧
    (∃ (s : State), ∃ (id : Nat), ∃ (t : Word), ∃ (q : List (Nat × Word)), (s.dev.ringsOn = true) ∧ (s.dev.tb.txts0 = (id, t) :: q)) := by
  refine ⟨⟨wit id [(F.PTP_CTL_SRC, 1), (F.PTP_JUMP_LIMIT_LIMIT, 100)], 101,
      by repeat' first | exact rfl | decide +kernel | refine And.intro ?_ ?_⟩,
    ⟨State.reset,
      by repeat' first | exact rfl | decide +kernel | refine And.intro ?_ ?_⟩,
    ⟨wit (fun d => d.onTb (fun b => { b with txts0 := [(7, 9)] })) [], 7, 9, [],
      by repeat' first | exact rfl | decide +kernel | refine And.intro ?_ ?_⟩⟩

theorem witness_JumpIsAccepted :
    (∃ (s : State), (s.dev.ringsOn = true) ∧ (s.dev.fld F.PTP_STATUS_JUMP_PEND = 1) ∧ ((sgn 32 (s.dev.reg R.PTP_JUMP_OFS).toNat ≤ 0 ∨
    s.dev.trd.gridOn = false ∨ s.dev.fld F.TRD_CTL_MODE ≠ 1)) ∧ ((∀ e < 16, (s.dev.msg e).wait = false))) ∧
    (∃ (s : State), ∃ (n : Nat), (s.dev.ringsOn = true) ∧ (s.dev.fld F.PTP_STATUS_JUMP_PEND = 1) ∧ (0 < (s.dev.reg
    R.PTP_JUMP_OFS).toInt) ∧ (s.dev.trd.gridOn = true) ∧ (s.dev.fld F.TRD_CTL_MODE = 1) ∧ (s.dev.fld F.TRD_PERIOD_PERIOD ≠ 0) ∧
    (s.dev.trd.timed = false) ∧ (s.dev.namedLanes = []) ∧ ((∀ e < 16, (s.dev.msg e).wait = false)) ∧ ((s.dev.tb.tb + s.dev.reg
    R.PTP_JUMP_OFS - s.dev.trd.nextSlot).toInt = Int.ofNat n)) := by
  refine ⟨⟨wit (fun d => (d.setReg R.PTP_JUMP_OFS 0xFFFFFFFF).onTrd (fun r => { r with timed := true })) [(F.PTP_STATUS_JUMP_PEND, 1), (fTs,
    tsStarting)],
      by repeat' first | exact rfl | decide +kernel | refine And.intro ?_ ?_⟩,
    ⟨wit (fun d => (d.setReg R.PTP_JUMP_OFS 100).onTrd (fun r => { r with gridOn := true })) [(F.PTP_STATUS_JUMP_PEND, 1),
    (F.TRD_CTL_MODE, 1), (F.TRD_PERIOD_PERIOD, 50)], 100,
      by repeat' first | exact rfl | decide +kernel | refine And.intro ?_ ?_⟩⟩

theorem witness_WeaveCommands_1 :
    (∃ (s : State), (s.dev.on = true)) ∧
    (∃ (s : State), (s.dev.on = true) ∧ (s.dev.role = roMember) ∧ (s.dev.ts = tsIdle)) ∧
    (∃ (s : State), (s.dev.on = true) ∧ (s.dev.role = roMember) ∧ (s.dev.panelsAwake = true) ∧ (s.dev.startRefusal true = 0) ∧
    ((s.dev.fld F.TRD_CTL_MODE = 1 → s.dev.armCompute.arm.2 = true))) ∧
    (∃ (s : State), ∃ (reason : Nat), (s.dev.on = true) ∧ (s.dev.role = roMember) ∧ (s.dev.ts = tsStarting) ∧ (reason < 16) ∧
    (s.dev.ldr.bay = none)) ∧
    (∃ (s : State), (s.dev.on = true) ∧ (s.dev.role = roMember) ∧ ((s.dev.ts = tsArmed ∨ s.dev.ts = tsHalted)) ∧ (s.dev.trd.recovery =
    0) ∧ (s.dev.trd.startOwed = none)) ∧
    (∃ (s : State), ∃ (beat : Nat), (s.dev.on = true) ∧ (s.dev.role = roMember) ∧ (s.dev.ts = tsHalted) ∧ (beat = s.dev.loom.beat % 2 ^
    48) ∧ ((s.dev.haltPending = true ∨ s.dev.loom.readback ≠ [] ∨ s.dev.ldr.replace ≠ none))) := by
  refine ⟨⟨wit id [(F.WFT_LINK_STATUS_STATE.at 0, 4)],
      by repeat' first | exact rfl | decide +kernel | refine And.intro ?_ ?_⟩,
    ⟨wit id [(F.TRD_WEAVE_ROLE, 2)],
      by repeat' first | exact rfl | decide +kernel | refine And.intro ?_ ?_⟩,
    ⟨wit id [(F.TRD_WEAVE_ROLE, 2), (fTs, tsHalted)],
      by repeat' first | exact rfl | decide +kernel | refine And.intro ?_ ?_⟩,
    ⟨wit id [(F.TRD_WEAVE_ROLE, 2), (fTs, tsStarting)], 15,
      by repeat' first | exact rfl | decide +kernel | refine And.intro ?_ ?_⟩,
    ⟨wit id [(F.TRD_WEAVE_ROLE, 2), (fTs, tsArmed)],
      by repeat' first | exact rfl | decide +kernel | refine And.intro ?_ ?_⟩,
    ⟨wit (fun d => d.onLoom (fun l => { l with readback := [3] })) [(F.TRD_WEAVE_ROLE, 2), (fTs, tsHalted)], 0,
      by repeat' first | exact rfl | decide +kernel | refine And.intro ?_ ?_⟩⟩

theorem witness_WeaveCommands_2 :
    (∃ (s : State), ∃ (beat : Nat), (s.dev.on = true) ∧ (s.dev.role = roMember) ∧ (s.dev.ts = tsHalted) ∧ (beat = s.dev.loom.beat % 2 ^
    48) ∧ (s.dev.haltPending = false) ∧ (s.dev.loom.readback = []) ∧ (s.dev.ldr.replace = none)) ∧
    (∃ (s : State), ∃ (src : Nat), ∃ (tag : Nat), ∃ (item : Nat), ∃ (args : Nat), ∃ (left : List (Nat × Nat)), ∃ (acc : List Nat), ∃ (r
    : Option (Nat × Nat)), (s.dev.on = true) ∧ (s.dev.weft.start = .compare left acc r) ∧ (s.dev.weft.asked = [(tag, 1, item, src)])
    ∧ (args ≠ s.dev.queryItem item) ∧ (s.dev.trd.fromHalted = false) ∧ (src ≠ 255) ∧ (s.dev.ldr.bay = none)) := by
  refine ⟨⟨wit id [(F.TRD_WEAVE_ROLE, 2), (fTs, tsHalted)], 0,
      by repeat' first | exact rfl | decide +kernel | refine And.intro ?_ ?_⟩,
    ⟨wit (fun d => { d with weft := { d.weft with start := .compare [(1, 0)] [] none, asked := [(2, 1, 0, 1)] } }) [(fTs, tsStarting)],
    1, 2, 0, 7, [(1, 0)], [], none,
      by repeat' first | exact rfl | decide +kernel | refine And.intro ?_ ?_⟩⟩

theorem witness_SingleHeddlePicks :
    (∃ (s : State), ∃ (gb : Nat), ∃ (h : Nat), ∃ (k : Nat), ∃ (p : Nat), ∃ (idx : Nat), (s.dev.on = true) ∧ (s.dev.hazard = false) ∧
    (s.dev.readyAt gb h k p idx) ∧ (s.dev.kindAt (hnOf gb h) k p = .plain)) ∧
    (∃ (s : State), ∃ (gb : Nat), ∃ (h : Nat), ∃ (k : Nat), ∃ (p : Nat), ∃ (idx : Nat), (s.dev.on = true) ∧ (s.dev.hazard = false) ∧
    (s.dev.readyAt gb h k p idx) ∧ (s.dev.kindAt (hnOf gb h) k p = .put)) ∧
    (∃ (s : State), ∃ (gb : Nat), ∃ (h : Nat), ∃ (k : Nat), ∃ (p : Nat), ∃ (idx : Nat), (s.dev.on = true) ∧ (s.dev.hazard = false) ∧
    (s.dev.readyAt gb h k p idx) ∧ (s.dev.kindAt (hnOf gb h) k p = .edge)) ∧
    (∃ (s : State), ∃ (gb : Nat), ∃ (h : Nat), ∃ (k : Nat), ∃ (p : Nat), ∃ (idx : Nat), (s.dev.on = true) ∧ (s.dev.hazard = false) ∧
    (s.dev.readyAt gb h k p idx) ∧ (s.dev.kindAt (hnOf gb h) k p = .brk)) ∧
    (∃ (s : State), ∃ (gb : Nat), ∃ (h : Nat), ∃ (k : Nat), ∃ (p : Nat), ∃ (idx : Nat), (s.dev.on = true) ∧ (s.dev.hazard = false) ∧
    (s.dev.readyAt gb h k p idx) ∧ ((s.dev.kindAt (hnOf gb h) k p).isReserved = true)) := by
  refine ⟨⟨wRun [(31 * 2048 + 63, BitVec.ofNat 72 (2 ^ 56))] (fun l => { l with done := [(31, 63)] }) [], 0, 0, 31, 63, 0,
      by repeat' first | exact rfl | decide +kernel | refine And.intro ?_ ?_⟩,
    ⟨wRun [(31 * 2048, opWord opPUT 1)] id [], 0, 0, 31, 0, 1,
      by repeat' first | exact rfl | decide +kernel | refine And.intro ?_ ?_⟩,
    ⟨wRun [(31 * 2048, opWord opEDGE 1)] id [], 0, 0, 31, 0, 1,
      by repeat' first | exact rfl | decide +kernel | refine And.intro ?_ ?_⟩,
    ⟨wRun [(31 * 2048, opWord opBRK 1)] id [], 0, 0, 31, 0, 1,
      by repeat' first | exact rfl | decide +kernel | refine And.intro ?_ ?_⟩,
    ⟨wRun [(31 * 2048, opWord 7 0)] id [], 0, 0, 31, 0, 0,
      by repeat' first | exact rfl | decide +kernel | refine And.intro ?_ ?_⟩⟩

theorem witness_HazardChecking :
    (∃ (s : State), ∃ (gb : Nat), ∃ (h : Nat), ∃ (k : Nat), ∃ (p : Nat), ∃ (idx : Nat), (s.dev.on = true) ∧ (s.dev.hazard = true) ∧
    (s.dev.readyAt gb h k p idx) ∧ (s.dev.kindAt (hnOf gb h) k p = .brk) ∧ (idx.testBit 0 = true) ∧ (PickW.fieldOf (s.dev.loom.pick
    (hnOf gb h) k p) 0 < 0x800)) ∧
    (∃ (s : State), ∃ (gb : Nat), ∃ (h : Nat), ∃ (k : Nat), ∃ (p : Nat), ∃ (idx : Nat), ∃ reason, (s.dev.on = true) ∧ (s.dev.hazard =
    true) ∧ (s.dev.readyAt gb h k p idx) ∧ (s.dev.kindAt (hnOf gb h) k p = .reserved reason)) := by
  refine ⟨⟨wRun [(31 * 2048, opWord opBRK 1)] id [(F.LOM_CTL_CHECK, 1)], 0, 0, 31, 0, 1,
      by repeat' first | exact rfl | decide +kernel | refine And.intro ?_ ?_⟩,
    ⟨wRun [(31 * 2048, opWord 7 0)] id [(F.LOM_CTL_CHECK, 1)], 0, 0, 31, 0, 0, 0,
      by repeat' first | exact rfl | decide +kernel | refine And.intro ?_ ?_⟩⟩

theorem witness_HeldResultIsDelivered :
    (∃ (s : State), ∃ (gb : Nat), ∃ (h : Nat), ∃ (k : Nat), ∃ (p : Nat), ∃ (v : Nat), (s.dev.on = true) ∧ (s.dev.loom.phase = .running)
    ∧ (SMap.get 0 s.dev.loom.done (hkOf (hnOf gb h) k) = p) ∧ (SMap.get 0 s.dev.loom.held (hkOf (hnOf gb h) k) = v + 1) ∧ (v < 2) ∧
    (s.dev.deliverWait (hnOf gb h) k p (s.dev.loom.pick (hnOf gb h) k p) = 0)) ∧
    (∃ (s : State), ∃ (gb : Nat), ∃ (h : Nat), ∃ (k : Nat), ∃ (p : Nat), ∃ (v : Nat), (s.dev.on = true) ∧ (s.dev.loom.phase = .running)
    ∧ (SMap.get 0 s.dev.loom.done (hkOf (hnOf gb h) k) = p) ∧ (SMap.get 0 s.dev.loom.held (hkOf (hnOf gb h) k) = v + 1) ∧ (v < 2) ∧
    (s.dev.deliverWait (hnOf gb h) k p (s.dev.loom.pick (hnOf gb h) k p) ≠ 0)) := by
  refine ⟨⟨wRun [] (fun l => { l with held := [(31, 2)] }) [], 0, 0, 31, 0, 1,
      by repeat' first | exact rfl | decide +kernel | refine And.intro ?_ ?_⟩,
    ⟨wRun [(0, BitVec.ofNat 72 (2 ^ 54)), (2048 + 5, BitVec.ofNat 72 (0x800 * 2 ^ 36))] (fun l => { l with held := [(0, 1)] }) [], 0, 0,
    0, 0, 0,
      by repeat' first | exact rfl | decide +kernel | refine And.intro ?_ ?_⟩⟩

theorem witness_HandshakeLatchesOperands :
    (∃ (s : State), ∃ (gb : Nat), ∃ (h : Nat), ∃ (p : Nat), (s.dev.on = true) ∧ (s.dev.hazard = false) ∧ (s.dev.widePick gb h = some p)
    ∧ (SMap.get 0 s.dev.loom.closed (hnOf gb h) ≠ p + 1) ∧ ((∀ k < 32, (s.dev.readFields (hnOf gb h) k p (s.dev.loom.pick (hnOf gb
    h) k p) (s.dev.wideFields (hnOf gb h) k p)).1 = 0 ∧ s.dev.loom.jacRead (jacKey (hnOf gb h) k p) = .clean 0))) :=
  ⟨wRun [(0, opWord opMRD 1)] id [], 0, 0, 0,
      by repeat' first | exact rfl | decide +kernel | refine And.intro ?_ ?_⟩

theorem witness_HarnessWideResult :
    (∃ (d : Dev), ∃ (hn : Nat), ∃ (p : Nat), ∃ k, (k < 32) ∧ ((∀ k < 32, PickW.toWin (d.loom.pick hn k p) = false ∧ PickW.toLane
    (d.loom.pick hn k p) = false ∧ PickW.tap (d.loom.pick hn k p) = false))) ∧
    (∃ (d : Dev), ∃ (hn : Nat), ∃ (p : Nat), ∃ x, ((∀ k < 32, PickW.toWin (d.loom.pick hn k p) = false ∧ PickW.toLane (d.loom.pick hn k
    p) = false ∧ PickW.tap (d.loom.pick hn k p) = false)) ∧ ((∀ k < 32, x ≠ shedKey (hkOf hn k) (d.fld F.LOM_STATUS_BANK) p))) ∧
    (∃ (d : Dev), ∃ (hn : Nat), ∃ (p : Nat), ((∀ k < 32, PickW.toWin (d.loom.pick hn k p) = false ∧ PickW.toLane (d.loom.pick hn k p) =
    false ∧ PickW.tap (d.loom.pick hn k p) = false))) := by
  refine ⟨⟨(wRun [(0, opWord opMRD 0), (31 * 2048, opWord opMRD 0)] id []).dev, 0, 0, 31,
      by repeat' first | exact rfl | decide +kernel | refine And.intro ?_ ?_⟩,
    ⟨(wRun [(0, opWord opMRD 0), (31 * 2048, opWord opMRD 0)] id []).dev, 0, 0, 5,
      by repeat' first | exact rfl | decide +kernel | refine And.intro ?_ ?_⟩,
    ⟨(wRun [(0, opWord opMRD 0), (31 * 2048, opWord opMRD 0)] id []).dev, 0, 0,
      by repeat' first | exact rfl | decide +kernel | refine And.intro ?_ ?_⟩⟩

theorem witness_HarnessWideOperations_1 :
    (∃ (s : State), ∃ (gb : Nat), ∃ (h : Nat), ∃ (p : Nat), (s.dev.on = true) ∧ (s.dev.closedPick gb h opMRD = some p) ∧ (s.dev.memBad
    (beamMemAddr gb (s.dev.loom.latchedWord (hnOf gb h) 0 18)) 1 = false) ∧ (s.dev.memCorrected (beamMemAddr gb
    (s.dev.loom.latchedWord (hnOf gb h) 0 18)) = false)) ∧
    (∃ (s : State), ∃ (gb : Nat), ∃ (h : Nat), ∃ (p : Nat), (s.dev.on = true) ∧ (s.dev.closedPick gb h opMWR = some p) ∧
    (s.dev.loom.latched (hnOf gb h) 0 2 = true) ∧ (s.dev.journalHeld gb false = false)) ∧
    (∃ (s : State), ∃ (gb : Nat), ∃ (h : Nat), ∃ (p : Nat), (s.dev.on = true) ∧ (s.dev.closedPick gb h opMWR = some p) ∧
    (s.dev.loom.latched (hnOf gb h) 0 2 = false)) ∧
    (∃ (s : State), ∃ (gb : Nat), ∃ (h : Nat), ∃ (p : Nat), (s.dev.on = true) ∧ (s.dev.closedPick gb h opDWR = some p) ∧ (s.dev.hazard =
    false) ∧ (Win.valid (s.dev.loom.win64 gb) = true) ∧ (s.dev.loom.latched (hnOf gb h) 0 2 = true) ∧ (s.dev.journalHeld gb true =
    false) ∧ (s.dev.loom.tabRead (tabKey gb none) = .clean 0)) ∧
    (∃ (s : State), ∃ (gb : Nat), ∃ (h : Nat), ∃ (p : Nat), (s.dev.on = true) ∧ (s.dev.closedPick gb h opDWR = some p) ∧ (s.dev.hazard =
    false) ∧ (Win.valid (s.dev.loom.win64 gb) = true) ∧ (s.dev.loom.latched (hnOf gb h) 0 2 = false)) ∧
    (∃ (s : State), ∃ (gb : Nat), ∃ (h : Nat), ∃ (p : Nat), (s.dev.on = true) ∧ (s.dev.closedPick gb h opFAIL = some p) ∧
    (s.dev.loom.latched (hnOf gb h) 0 2 = true) ∧ (s.dev.loom.latchedWord (hnOf gb h) 1 32 ≠ 0) ∧ ((s.dev.loom.failStage.filter (fun
    r => r.gb == gb)).length < 32)) := by
  refine ⟨⟨wClosed opMRD 0 id [], 0, 0, 0,
      by repeat' first | exact rfl | decide +kernel | refine And.intro ?_ ?_⟩,
    ⟨wClosed opMWR 6 id [], 0, 0, 0,
      by repeat' first | exact rfl | decide +kernel | refine And.intro ?_ ?_⟩,
    ⟨wClosed opMWR 2 id [], 0, 0, 0,
      by repeat' first | exact rfl | decide +kernel | refine And.intro ?_ ?_⟩,
    ⟨wClosed opDWR 6 (fun l => { l with dwin := [(0, BitVec.ofNat 64 (2 ^ 63))] }) [], 0, 0, 0,
      by repeat' first | exact rfl | decide +kernel | refine And.intro ?_ ?_⟩,
    ⟨wClosed opDWR 2 (fun l => { l with dwin := [(0, BitVec.ofNat 64 (2 ^ 63))] }) [], 0, 0, 0,
      by repeat' first | exact rfl | decide +kernel | refine And.intro ?_ ?_⟩,
    ⟨wClosed opFAIL 6 id [], 0, 0, 0,
      by repeat' first | exact rfl | decide +kernel | refine And.intro ?_ ?_⟩⟩

theorem witness_HarnessWideOperations_2 :
    (∃ (s : State), ∃ (gb : Nat), ∃ (h : Nat), ∃ (p : Nat), (s.dev.on = true) ∧ (s.dev.closedPick gb h opFAIL = some p) ∧
    ((s.dev.loom.latched (hnOf gb h) 0 2 = false ∨ s.dev.loom.latchedWord (hnOf gb h) 1 32 = 0))) :=
  ⟨wClosed opFAIL 4 id [], 0, 0, 0,
      by repeat' first | exact rfl | decide +kernel | refine And.intro ?_ ?_⟩

theorem witness_DeepReads :
    (∃ (s : State), ∃ (gb : Nat), ∃ (h : Nat), ∃ (p : Nat), ∃ (r : DeepRead), (s.dev.on = true) ∧ (s.dev.hazard = false) ∧
    (s.dev.closedPick gb h opDRD = some p) ∧ (Win.valid (s.dev.loom.win64 gb) = true) ∧ (s.dev.loom.inFlight gb < 64) ∧ (r = ⟨gb, h,
    p, s.dev.loom.latchedWord (hnOf gb h) 0 32, (PickW.param (s.dev.loom.pick (hnOf gb h) 0 p)).testBit 0, s.dev.loom.beat, false⟩)
    ∧ (s.dev.loom.deepReads.contains r = false) ∧ (s.dev.loom.tabRead (tabKey gb none) = .clean 0) ∧ (r.delayed = false) ∧
    ((Win.mailbox (s.dev.loom.win64 gb) = true ∨ s.dev.loom.lineHit gb (Win.addr (s.dev.loom.win64 gb) r.idx) = false))) ∧
    (∃ (s : State), ∃ (gb : Nat), ∃ (h : Nat), ∃ (p : Nat), ∃ (r : DeepRead), (s.dev.on = true) ∧ (s.dev.hazard = false) ∧
    (s.dev.closedPick gb h opDRD = some p) ∧ (Win.valid (s.dev.loom.win64 gb) = true) ∧ (s.dev.loom.inFlight gb < 64) ∧ (r = ⟨gb, h,
    p, s.dev.loom.latchedWord (hnOf gb h) 0 32, (PickW.param (s.dev.loom.pick (hnOf gb h) 0 p)).testBit 0, s.dev.loom.beat, false⟩)
    ∧ (s.dev.loom.deepReads.contains r = false) ∧ (s.dev.loom.tabRead (tabKey gb none) = .clean 0) ∧ (r.delayed = false) ∧
    (Win.mailbox (s.dev.loom.win64 gb) = false) ∧ (s.dev.loom.lineHit gb (Win.addr (s.dev.loom.win64 gb) r.idx) = true)) ∧
    (∃ (s : State), ∃ (gb : Nat), ∃ (h : Nat), ∃ (p : Nat), ∃ (r : DeepRead), ∃ (v : Word), (s.dev.on = true) ∧ (s.dev.hazard = false) ∧
    (s.dev.closedPick gb h opDRD = some p) ∧ (Win.valid (s.dev.loom.win64 gb) = true) ∧ (s.dev.loom.inFlight gb < 64) ∧ (r = ⟨gb, h,
    p, s.dev.loom.latchedWord (hnOf gb h) 0 32, (PickW.param (s.dev.loom.pick (hnOf gb h) 0 p)).testBit 0, s.dev.loom.beat, false⟩)
    ∧ (s.dev.loom.deepReads.contains r = false) ∧ (s.dev.loom.tabRead (tabKey gb none) = .clean 0) ∧ (r.delayed = true) ∧
    (s.dev.loom.bayFirst gb = false) ∧ (SMap.get 0 s.dev.loom.dly ((2048 * hnOf gb h + p) * 2 + (s.dev.loom.beat + 1) % 2) = 2 ^ 32
    + v.toNat)) := by
  refine ⟨⟨wClosed opDRD 1 (fun l => { l with dwin := [(0, BitVec.ofNat 64 (2 ^ 63))] }) [], 0, 0, 0, ⟨0, 0, 0, 1, false, 0, false⟩,
      by repeat' first | exact rfl | decide +kernel | refine And.intro ?_ ?_⟩,
    ⟨wClosed opDRD 1 (fun l => { l with dwin := [(0, BitVec.ofNat 64 (2 ^ 63))], lines := [(0, [0])] }) [], 0, 0, 0, ⟨0, 0, 0, 1, false,
    0, false⟩,
      by repeat' first | exact rfl | decide +kernel | refine And.intro ?_ ?_⟩,
    ⟨wRun [(0, opWord opDRD 0 ||| BitVec.ofNat 72 (2 ^ 56))] (fun l =>
    { l with closed := [(0, 1)], operands := [(0, 2)], beat := 1, dly := [(0, 2 ^ 32 + 5)], dwin := [(0, BitVec.ofNat 64 (2 ^ 63))] })
    [], 0, 0, 0, ⟨0, 0, 0, 1, true, 1, false⟩, 5,
      by repeat' first | exact rfl | decide +kernel | refine And.intro ?_ ?_⟩⟩

theorem witness_LaneCloses :
    (∃ (s : State), ∃ (gb : Nat), ∃ (h : Nat), ∃ (j : Nat), ∃ (p : Nat), (s.dev.on = true) ∧ (s.dev.loom.phase = .running) ∧ (gb < 128)
    ∧ (h < 64) ∧ (s.dev.active (hnOf gb h) = true) ∧ (j < 8) ∧ (p < s.dev.depth) ∧ (SMap.get 0 s.dev.loom.lanes ((2048 * hnOf gb h +
    p) * 8 + j) = 0) ∧ ((∀ k ∈ [j, j + 8, j + 16, j + 24], p < SMap.get 0 s.dev.loom.done (hkOf (hnOf gb h) k)))) :=
  ⟨wRun [] (fun l => { l with done := [(7, 1), (15, 1), (23, 1), (31, 1)] }) [], 0, 0, 7, 0,
      by repeat' first | exact rfl | decide +kernel | refine And.intro ?_ ?_⟩

theorem witness_PullFillsBeamReceive :
    (∃ (s : State), ∃ (gb : Nat), ∃ (h : Nat), ∃ (q : Nat), (s.dev.on = true) ∧ (s.dev.loom.phase = .running) ∧ (gb < 128) ∧ (h < 64) ∧
    (s.dev.active (hnOf gb h) = true) ∧ (SMap.get 0 s.dev.loom.pulls (hnOf gb h) = q) ∧ (q < s.dev.depth) ∧ (s.dev.loom.jacRead
    (jacKey (hnOf gb h) 32 q) = .clean 0) ∧ ((s.dev.latOf (hnOf gb h) ≤ q → ∀ j < 8, SMap.get 0 s.dev.loom.lanes ((2048 * hnOf gb
    (routeSel (s.dev.loom.route (hnOf gb h) q) j).1 + (q - s.dev.latOf (hnOf gb h))) * 8 + (routeSel (s.dev.loom.route (hnOf gb h)
    q) j).2) ≠ 0)) ∧ ((s.dev.latOf (hnOf gb h) ≤ q → ∀ k < 32, s.dev.readsBrx (hnOf gb h) k = false ∨ q ≤ SMap.get 0
    s.dev.loom.fetched (hkOf (hnOf gb h) k)))) :=
  ⟨wRun [] id [], 0, 0, 0,
      by repeat' first | exact rfl | decide +kernel | refine And.intro ?_ ?_⟩

theorem witness_RingsCarryBundles :
    (∃ (s : State), ∃ (gb : Nat), ∃ (e : Nat), ∃ (w : Word64), (s.dev.on = true) ∧ (s.dev.loom.phase = .running) ∧ (gb < 128) ∧ (e <
    1024) ∧ (SMap.get 0 s.dev.loom.slots (1024 * gb + e) = w) ∧ (Slot.valid w = true) ∧ (s.dev.active (hnOf gb (Slot.harness w)) =
    true) ∧ (s.dev.loom.injWaits (1024 * gb + e, w) = true) ∧ (s.dev.loom.tabRead (1024 * gb + e) = .clean 0)) ∧
    (∃ (s : State), ∃ (i : Nat), ∃ (b : Bundle), (s.dev.on = true) ∧ (s.dev.loom.bundles[i]? = some b) ∧ (s.dev.loom.untaken b = false)
    ∧ (b.weft = false) ∧ (b.fromGw = false)) ∧
    (∃ (s : State), ∃ (gb : Nat), ∃ (e : Nat), ∃ (w : Word64), ∃ (b : Bundle), (s.dev.on = true) ∧ (gb < 128) ∧ (e < 1024) ∧ (SMap.get 0
    s.dev.loom.slots (1024 * gb + e) = w) ∧ (Slot.valid w = true) ∧ (Slot.kind w = kEXTRACT) ∧ (s.dev.beamOut gb = false) ∧
    (s.dev.loom.bundles = [b]) ∧ (b.stop = s.dev.loom.pgb gb) ∧ (takes w b = true) ∧ (b.taken.contains (1024 * gb + e) = false) ∧
    (s.dev.loom.tabRead (1024 * gb + e) = .clean 0)) ∧
    (∃ (s : State), ∃ (i : Nat), ∃ (b : Bundle), (s.dev.on = true) ∧ (s.dev.loom.bundles[i]? = some b) ∧ (b.weft = true) ∧ (b.fromGw =
    false) ∧ (b.stop = gwStop b.ring) ∧ ((s.dev.joins b.link).isSome = true) ∧ (s.dev.linkState (s.dev.physLink b.link) ≠ 5) ∧
    ((s.dev.link (s.dev.physLink b.link)).bytes + 13 * ((s.dev.link (s.dev.physLink b.link)).sendq.length + 1) ≤ 65536) ∧
    ((s.dev.link (s.dev.physLink b.link)).due = [])) := by
  refine ⟨⟨wRun [] (fun l => { l with lanes := (List.range 8).map (fun j => (j, 1)), slots := [(1023, BitVec.ofNat 64 (2 ^ 63))] }) [], 0,
    1023, BitVec.ofNat 64 (2 ^ 63),
      by repeat' first | exact rfl | decide +kernel | refine And.intro ?_ ?_⟩,
    ⟨wRun [] (fun l => { l with bundles := [⟨0, false, 0, false, 0, 3, 0, 0, []⟩] }) [], 0, ⟨0, false, 0, false, 0, 3, 0, 0, []⟩,
      by repeat' first | exact rfl | decide +kernel | refine And.intro ?_ ?_⟩,
    ⟨wRun [] (fun l =>
    { l with bundles := [⟨0, false, 0, false, 0, 3, 0, 0, []⟩], slots := [(1023, BitVec.ofNat 64 (2 ^ 63 + 2 ^ 61))] }) [], 0, 1023,
    BitVec.ofNat 64 (2 ^ 63 + 2 ^ 61), ⟨0, false, 0, false, 0, 3, 0, 0, []⟩,
      by repeat' first | exact rfl | decide +kernel | refine And.intro ?_ ?_⟩,
    ⟨(wRun [] (fun l => { l with bundles := [⟨0, true, 0, false, 0, 3, gwStop 0, 0, []⟩] }) [(F.TRD_WEAVE_ROLE, 1),
    (F.WFT_LINK_STATUS_STATE.at 0, 4)]).ofDev (fun d => { d with charter := some (chartOf 1) }), 0, ⟨0, true, 0, false, 0, 3, gwStop
    0, 0, []⟩,
      by repeat' first | exact rfl | decide +kernel | refine And.intro ?_ ?_⟩⟩

theorem witness_BeatIsReleased :
    (∃ (s : State), (s.dev.on = true) ∧ (s.dev.inBeat = true) ∧ (s.dev.loom.phase = .rerun)) ∧
    (∃ (s : State), (s.dev.on = true) ∧ ((s.dev.ts = tsWaiting ∨ s.dev.ts = tsStarting)) ∧ (s.dev.unmet = 0)) ∧
    (∃ (s : State), (s.dev.on = true) ∧ (s.dev.loom.phase = .released) ∧ (s.dev.loom.frozen = true)) ∧
    (∃ (s : State), (s.dev.on = true) ∧ (s.dev.loom.phase = .released) ∧ (s.dev.loom.frozen = false)) := by
  refine ⟨⟨wRun [] (fun l => { l with phase := .rerun, win := [(5, true)] }) [(fTs, tsBeat)],
      by repeat' first | exact rfl | decide +kernel | refine And.intro ?_ ?_⟩,
    ⟨wit id [(fTs, tsWaiting)],
      by repeat' first | exact rfl | decide +kernel | refine And.intro ?_ ?_⟩,
    ⟨wit (fun d => d.onLoom (fun l => { l with phase := .released, frozen := true })) [(fTs, tsBeat)],
      by repeat' first | exact rfl | decide +kernel | refine And.intro ?_ ?_⟩,
    ⟨wit (fun d => d.onLoom (fun l => { l with phase := .released })) [(fTs, tsBeat)],
      by repeat' first | exact rfl | decide +kernel | refine And.intro ?_ ?_⟩⟩

theorem witness_DrainsAndCompletion :
    (∃ (s : State), ∃ (gb : Nat), ∃ (t : TapBit), ∃ (r : List TapBit), (s.dev.on = true) ∧ (s.dev.loom.taps = t :: r) ∧ (t.gb = gb)) ∧
    (∃ (s : State), ∃ (gb : Nat), ∃ (x : FailRec), ∃ (r : List FailRec), (s.dev.on = true) ∧ (s.dev.loom.failStage = x :: r) ∧ (x.gb =
    gb) ∧ (x.beat = s.dev.loom.beat) ∧ (s.dev.heldRecords < 16384)) ∧
    (∃ (s : State), (s.dev.on = true) ∧ (s.dev.loom.phase = .running) ∧ (s.dev.attemptDone = true)) ∧
    (∃ (s : State), (s.dev.on = true) ∧ ((s.dev.loom.phase ≠ .running ∨ s.dev.attemptDone = false))) := by
  refine ⟨⟨wRun [] (fun l => { l with taps := [⟨0, 0, 1, 2, true⟩] }) [], 0, ⟨0, 0, 1, 2, true⟩, [],
      by repeat' first | exact rfl | decide +kernel | refine And.intro ?_ ?_⟩,
    ⟨wRun [] (fun l => { l with failStage := [⟨1, 2, 3, 0, 0, 0, 0⟩] }) [], 0, ⟨1, 2, 3, 0, 0, 0, 0⟩, [],
      by repeat' first | exact rfl | decide +kernel | refine And.intro ?_ ?_⟩,
    ⟨wit (fun d => d.onLoom (fun l => { l with phase := .running })) [(fTs, tsBeat)],
      by repeat' first | exact rfl | decide +kernel | refine And.intro ?_ ?_⟩,
    ⟨wRun [] id [],
      by repeat' first | exact rfl | decide +kernel | refine And.intro ?_ ?_⟩⟩

theorem witness_CommitAdvancesTheBeat :
    (∃ (s : State), (s.dev.on = true) ∧ (s.dev.ts = tsBeat) ∧ (s.dev.loom.phase = .complete) ∧ (s.dev.loom.haltReq = none) ∧
    (s.dev.loom.brk = false) ∧ (s.dev.loom.atCommit = [])) :=
  ⟨wit (fun d => d.onLoom (fun l => { l with phase := .complete, bj := [⟨0, 0, 0, 3, 7, false⟩], putStage := [(4, 2)] })) [(fTs,
    tsBeat)],
      by repeat' first | exact rfl | decide +kernel | refine And.intro ?_ ?_⟩

theorem witness_FaultsStopTheAttempt :
    (∃ (s : State), ∃ (f : FaultRec), ∃ (hits : List Hit), ∃ (d : Dev), (s.dev.on = true) ∧ (d = s.dev.hitAll hits) ∧ (s.dev.loom.phase
    = .running) ∧ (f.gb < 128) ∧ (f.h < 64) ∧ (f.k < 32) ∧ (f.group < 32) ∧ (f.pick < s.dev.depth) ∧ (s.dev.active (hnOf f.gb f.h) =
    true) ∧ (d.faultFound f = true)) ∧
    (∃ (s : State), ∃ (f : FaultRec), ∃ (hn : Nat), ∃ (st : Nat), ∃ (p : Nat), (s.dev.on = true) ∧ (128 ≤ f.gb) ∧ (hn < 8192) ∧ (st <
    33) ∧ (p < 2048)) ∧
    (∃ (s : State), ∃ (x : Nat × Nat), (s.dev.on = true) ∧ (s.dev.loom.phase = .running) ∧ (s.dev.slowest = some x) ∧ (x.1 < 8192) ∧
    (x.2 < 32)) := by
  refine ⟨⟨wRun [] id [(F.LOM_CTL_SHADOW, 1)], ⟨4, 0, 0, 31, 63, 31⟩, [], (wRun [] id [(F.LOM_CTL_SHADOW, 1)]).dev,
      by repeat' first | exact rfl | decide +kernel | refine And.intro ?_ ?_⟩,
    ⟨State.reset, ⟨0, 128, 0, 0, 0, 0⟩, 8191, 32, 2047,
      by repeat' first | exact rfl | decide +kernel | refine And.intro ?_ ?_⟩,
    ⟨wRun [] id [], (0, 0),
      by repeat' first | exact rfl | decide +kernel | refine And.intro ?_ ?_⟩⟩

theorem witness_FaultsAreTreated :
    (∃ (s : State), ∃ (f : FaultRec), (s.dev.on = true) ∧ (s.dev.loom.phase = .faulted) ∧ (s.dev.loom.memFault = none) ∧
    (s.dev.loom.fault = some f) ∧ (s.dev.fld F.LOM_RETRY_CFG_EN ≠ 0)) ∧
    (∃ (s : State), ∃ (f : FaultRec), (s.dev.on = true) ∧ (s.dev.loom.phase = .faulted) ∧ (s.dev.loom.memFault = none) ∧
    (s.dev.loom.fault = some f) ∧ (s.dev.fld F.LOM_RETRY_CFG_EN = 0) ∧ (s.dev.role = roSingle)) ∧
    (∃ (s : State), ∃ (f : FaultRec), (s.dev.on = true) ∧ (s.dev.loom.phase = .fixing) ∧ (s.dev.loom.fault = some f) ∧ (f.kind = 0) ∧
    (SMap.get false s.dev.loom.cacheBad (jacKey (hnOf f.gb f.h) f.k f.pick) = false) ∧ (s.dev.fld F.LOM_STATUS_ATTEMPT < min 2
    (s.dev.fld F.LOM_RETRY_CFG_MAX))) ∧
    (∃ (s : State), ∃ (f : FaultRec), ∃ (d : Dev), (s.dev.on = true) ∧ (s.dev.loom.phase = .fixing) ∧ (s.dev.loom.fault = some f) ∧
    ((f.kind = 2 ∨ f.kind = 3)) ∧ (s.dev.needsRebuild f = true) ∧ (s.dev.rebuildGroup f = some d)) ∧
    (∃ (s : State), ∃ (f : FaultRec), (s.dev.on = true) ∧ (s.dev.loom.phase = .fixing) ∧ (s.dev.loom.fault = some f) ∧ ((f.kind = 2 ∨
    f.kind = 3)) ∧ (s.dev.needsRebuild f = true) ∧ (s.dev.rebuildGroup f = none) ∧ (s.dev.role = roSingle)) ∧
    (∃ (s : State), ∃ (f : FaultRec), (s.dev.on = true) ∧ (s.dev.loom.phase = .repairing) ∧ (s.dev.loom.fault = some f) ∧ (f.kind = 4) ∧
    ((s.dev.moveHeddles f [f.k] [f.k]).isSome = true) ∧ (s.dev.loom.onPk32 (s.dev.loom.slotOf (hnOf f.gb f.h)) = none) ∧
    (s.dev.rel.badHeddle.contains (s.dev.loom.slotOf (hnOf f.gb f.h) * 33 + 32) = false)) := by
  refine ⟨⟨wRun [] (fun l => { l with phase := .faulted, fault := some ⟨0, 0, 0, 0, 0, 0⟩, bj := [⟨0, 0, 0, 3, 7, false⟩] })
    [(F.LOM_RETRY_CFG_EN, 1), (fTs, tsBeat)], ⟨0, 0, 0, 0, 0, 0⟩,
      by repeat' first | exact rfl | decide +kernel | refine And.intro ?_ ?_⟩,
    ⟨wRun [] (fun l => { l with phase := .faulted, fault := some ⟨0, 0, 0, 0, 0, 0⟩ }) [(F.LOM_RETRY_CFG_EN, 0), (fTs, tsBeat)], ⟨0, 0,
    0, 0, 0, 0⟩,
      by repeat' first | exact rfl | decide +kernel | refine And.intro ?_ ?_⟩,
    ⟨wRun [] (fun l => { l with phase := .fixing, fault := some ⟨0, 0, 0, 0, 0, 0⟩, jacFlip := [(0, 3)] }) [(F.LOM_RETRY_CFG_MAX, 2),
    (F.LOM_STATUS_ATTEMPT, 1), (fTs, tsBeat)], ⟨0, 0, 0, 0, 0, 0⟩,
      by repeat' first | exact rfl | decide +kernel | refine And.intro ?_ ?_⟩,
    ⟨wRun [] (fun l => { l with phase := .fixing, fault := some ⟨2, 0, 0, 5, 0, 1⟩ }) [(F.LOM_RETRY_CFG_MAX, 2), (F.LOM_STATUS_ATTEMPT,
    1), (fTs, tsBeat)], ⟨2, 0, 0, 5, 0, 1⟩, ((wRun [] (fun l => { l with phase := .fixing, fault := some ⟨2, 0, 0, 5, 0, 1⟩ })
    [(F.LOM_RETRY_CFG_MAX, 2), (F.LOM_STATUS_ATTEMPT, 1), (fTs, tsBeat)]).dev.rebuildGroup ⟨2, 0, 0, 5, 0, 1⟩).getD (wRun [] (fun l
    => { l with phase := .fixing, fault := some ⟨2, 0, 0, 5, 0, 1⟩ }) [(F.LOM_RETRY_CFG_MAX, 2), (F.LOM_STATUS_ATTEMPT, 1), (fTs,
    tsBeat)]).dev,
      by repeat' first | exact rfl | decide +kernel | refine And.intro ?_ ?_⟩,
    ⟨wRun [] (fun l => { l with phase := .fixing, fault := some ⟨2, 0, 0, 5, 0, 1⟩, checkFlip := [(groupKey 0 0 1, 1)] })
    [(F.LOM_RETRY_CFG_MAX, 2), (F.LOM_STATUS_ATTEMPT, 1), (fTs, tsBeat)], ⟨2, 0, 0, 5, 0, 1⟩,
      by repeat' first | exact rfl | decide +kernel | refine And.intro ?_ ?_⟩,
    ⟨wRun [] (fun l => { l with phase := .repairing, fault := some ⟨4, 0, 0, 31, 0, 0⟩ }) [(F.LOM_STATUS_ATTEMPT, 1), (fTs, tsBeat)],
    ⟨4, 0, 0, 31, 0, 0⟩,
      by repeat' first | exact rfl | decide +kernel | refine And.intro ?_ ?_⟩⟩

theorem witness_JournalsAndLines :
    (∃ (s : State), ∃ (gb : Nat), ∃ (h : Nat), ∃ (p : Nat), (s.dev.ringsOn = true) ∧ (s.dev.hazard = false) ∧ (s.dev.closedPick gb h
    opMWR = some p) ∧ (s.dev.loom.latched (hnOf gb h) 0 2 = true) ∧ (256 ≤ onChip s.dev.loom.bj gb)) ∧
    (∃ (s : State), (s.dev.ringsOn = true)) ∧
    (∃ (s : State), (s.dev.on = true)) ∧
    (∃ (s : State), ∃ (b : Nat), ∃ (j : JEntry), ∃ (r : List (Nat × JEntry)), (s.dev.ringsOn = true) ∧ (s.dev.loom.djOut = (b, j) :: r)
    ∧ (Win.mailbox (s.dev.loom.win64 j.gb) = false) ∧ (s.dev.loom.readsServed b = true) ∧ (s.dev.memBad (Win.addr (s.dev.loom.win64
    j.gb) j.addr) 1 = false) ∧ (s.dev.memCorrected (Win.addr (s.dev.loom.win64 j.gb) j.addr) = false)) := by
  refine ⟨⟨wClosed opMWR 6 (fun l => { l with bj := List.replicate 256 ⟨0, 0, 0, 3, 7, false⟩ }) [], 0, 0, 0,
      by repeat' first | exact rfl | decide +kernel | refine And.intro ?_ ?_⟩,
    ⟨wRun [] (fun l => { l with readback := [0, 127] }) [],
      by repeat' first | exact rfl | decide +kernel | refine And.intro ?_ ?_⟩,
    ⟨wRun [] (fun l => { l with stale := [(0, 1), (1, 1)], lines := [(0, [1, 2]), (1, [1])] }) [],
      by repeat' first | exact rfl | decide +kernel | refine And.intro ?_ ?_⟩,
    ⟨wRun [] (fun l => { l with djOut := [(0, ⟨0, 0, 0, 3, 7, false⟩)], dwin := [(0, BitVec.ofNat 64 (2 ^ 63 + 2 ^ 57))] }) [], 0, ⟨0,
    0, 0, 3, 7, false⟩, [],
      by repeat' first | exact rfl | decide +kernel | refine And.intro ?_ ?_⟩⟩

theorem witness_DeepReadsReturn :
    (∃ (s : State), ∃ (r : DeepRead), ∃ (l : List DeepRead), (s.dev.ringsOn = true) ∧ (s.dev.loom.deepReads = r :: l) ∧ (Win.mailbox
    (s.dev.loom.win64 r.gb) = false) ∧ (s.dev.memBad (Win.addr (s.dev.loom.win64 r.gb) r.idx) 1 = false) ∧ (s.dev.memCorrected
    (Win.addr (s.dev.loom.win64 r.gb) r.idx) = false) ∧ (s.dev.eccTest (Win.addr (s.dev.loom.win64 r.gb) r.idx) = false)) :=
  ⟨wRun [] (fun l => { l with deepReads := [⟨0, 0, 0, 1, false, 0, false⟩] }) [], ⟨0, 0, 0, 1, false, 0, false⟩, [],
      by repeat' first | exact rfl | decide +kernel | refine And.intro ?_ ?_⟩

theorem witness_MailboxPorts :
    (∃ (s : State), ∃ (bank : Nat), ∃ (b : Nat), ∃ (j : JEntry), ∃ (r : List (Nat × JEntry)), (s.dev.ringsOn = true) ∧ (s.dev.loom.djOut
    = (b, j) :: r) ∧ (Win.mailbox (s.dev.loom.win64 j.gb) = true) ∧ (Win.bank (s.dev.loom.win64 j.gb) = bank) ∧
    (s.dev.loom.readsServed b = true)) ∧
    (∃ (s : State), ∃ (mid : Nat), ∃ (bank : Nat), ∃ (word : Nat), (s.dev.ringsOn = true) ∧ (s.dev.passes mid gkWRITE (mailboxAddr bank
    word))) ∧
    (∃ (s : State), ∃ (mid : Nat), ∃ (bank : Nat), ∃ (word : Nat), (s.dev.ringsOn = true) ∧ (s.dev.passes mid gkREAD (mailboxAddr bank
    word))) := by
  refine ⟨⟨wRun [] (fun l =>
    { l with djOut := [(0, ⟨0, 0, 0, 3, 7, false⟩)], dwin := [(0, BitVec.ofNat 64 (2 ^ 63 + 2 ^ 62 + 2 ^ 58 + 31 * 2 ^ 52))] }) [],
    31, 0, ⟨0, 0, 0, 3, 7, false⟩, [],
      by repeat' first | exact rfl | decide +kernel | refine And.intro ?_ ?_⟩,
    ⟨wit id [(F.CLM_BANK_OWNER_KIND.at 511, 1), (F.GK_ENT0_PRIV.at (gkKey 2 0), 0)], 0, 31, 8191,
      by repeat' first | exact rfl | decide +kernel | refine And.intro ?_ ?_⟩,
    ⟨State.reset, midMGT, 31, 8191,
      by repeat' first | exact rfl | decide +kernel | refine And.intro ?_ ?_⟩⟩

theorem witness_OccupancyIntervalEnds :
    (∃ (s : State), (s.dev.on = true) ∧ (s.dev.loom.occ.foldl (fun t e => t + e.2) 0 < 1024)) ∧
    (∃ (s : State), (s.dev.on = true) ∧ (1024 ≤ s.dev.loom.occ.foldl (fun t e => t + e.2) 0) ∧ ((occMax s.dev.loom.occ).1 < 256)) := by
  refine ⟨⟨wRun [] (fun l => { l with occ := [(0, 1023)] }) [],
      by repeat' first | exact rfl | decide +kernel | refine And.intro ?_ ?_⟩,
    ⟨wRun [] (fun l => { l with occ := [(255, 1024)] }) [],
      by repeat' first | exact rfl | decide +kernel | refine And.intro ?_ ?_⟩⟩

theorem witness_RegisterWritesReachRegisters :
    (∃ (s : State), ∃ (mid : Nat), ∃ (k : Nat), (s.dev.ringsOn = true) ∧ (k % 4 = 0) ∧ (k < blocks * 0x10000) ∧ (s.dev.mayWrite mid k)) ∧
    (∃ (k : Nat), (k < blocks * 0x10000)) := by
  refine ⟨⟨State.reset, midMGT, R.LOM_DEPTH,
      by repeat' first | exact rfl | decide +kernel | refine And.intro ?_ ?_⟩,
    ⟨0x1CFFFC,
      by repeat' first | exact rfl | decide +kernel | refine And.intro ?_ ?_⟩⟩

theorem witness_DeniedWriteIsRecorded :
    (∃ (s : State), ∃ (mid : Nat), ∃ (k : Nat), ∃ (st : Nat), ∃ (reason : Nat), (s.dev.ringsOn = true) ∧ (k < blocks * 0x10000) ∧
    (s.dev.verdict mid gkWRITE (regBase + k) = (st, reason)) ∧ ((st = stDENIED ∨ st = stREFUSED)) ∧ (s.dev.gkScan mid gkWRITE
    (regBase + k) = s.dev)) :=
  ⟨State.reset, 0, 0x1CFFFC, stDENIED, 1,
      by repeat' first | exact rfl | decide +kernel | refine And.intro ?_ ?_⟩

theorem witness_AccessCodesHold_1 :
    (∃ (s : State), ∃ (mid : Nat), ∃ (k : Nat), (s.dev.ringsOn = true) ∧ (k % 4 = 0) ∧ (blkOf k ∈ [bLOM, bDRW, bLRG, bETH, bSHT, bHBM,
    bHUB]) ∧ (k ∉ [R.LOM_CTL, R.LOM_RETRY_CFG, R.DRW_HCFG]) ∧ (s.dev.mayWrite mid k)) ∧
    (∃ (d : Dev), ∃ (k : Nat), (k ∈ [R.TRD_CMD, R.WRP_MSG_DATA, R.PTP_OFFSET, R.PTP_JUMP_CTL, R.LDR_CMD, R.CHR_FL_CMD, R.CAP_CMD,
    R.FMP_CMD, R.WSC_POST_DATA, R.WSC_POST_CMD, R.WSC_CMD, R.BOB_CH_CMD, R.BST_CMD, R.FUS_CMD, R.LOG_CTL, R.WCH_CMD]) ∧ (d.reg
    (d.keyAt k) = 0)) ∧
    (∃ (s : State), ∃ (mid : Nat), ∃ (v : Word), ∃ c, (c ∈ [(2, Instr.stop), (3, .cancel), (1, .start (v.getLsbD 8))]) ∧ (s.dev.ringsOn
    = true) ∧ (s.dev.mayWrite mid R.TRD_CMD) ∧ (v.toNat % 8 = c.1)) ∧
    (∃ (s : State), ∃ (mid : Nat), (s.dev.ringsOn = true) ∧ (s.dev.mayWrite mid R.WRP_RXMSG_CTL)) ∧
    (∃ (s : State), ∃ (mid : Nat), ∃ (k : Nat), (s.dev.ringsOn = true) ∧ (k % 4 ≠ 0) ∧ (k < blocks * 0x10000) ∧ (s.dev.mayWrite mid k) ∧
    (s.dev.log.queue.length < 64)) ∧
    (∃ (s : State), ∃ (mid : Nat), (s.dev.ringsOn = true) ∧ (s.dev.mayWrite mid R.LOM_EVENTS)) := by
  refine ⟨⟨wit id [(F.LOM_EVENTS_HALT, 1)], midMGT, R.LOM_EVENTS,
      by repeat' first | exact rfl | decide +kernel | refine And.intro ?_ ?_⟩,
    ⟨State.reset.dev, R.LOG_CTL,
      by repeat' first | exact rfl | decide +kernel | refine And.intro ?_ ?_⟩,
    ⟨State.reset, midMGT, 2, (2, Instr.stop),
      by repeat' first | exact rfl | decide +kernel | refine And.intro ?_ ?_⟩,
    ⟨State.reset, midMGT,
      by repeat' first | exact rfl | decide +kernel | refine And.intro ?_ ?_⟩,
    ⟨State.reset, midMGT, 0x1CFFFF,
      by repeat' first | exact rfl | decide +kernel | refine And.intro ?_ ?_⟩,
    ⟨wit id [(F.LOM_EVENTS_HALT, 1)], midMGT,
      by repeat' first | exact rfl | decide +kernel | refine And.intro ?_ ?_⟩⟩

theorem witness_AccessCodesHold_2 :
    (∃ (s : State), ∃ (mid : Nat), (s.dev.ringsOn = true) ∧ (s.dev.mayWrite mid R.PTP_JUMP_LIMIT)) ∧
    (∃ (s : State), ∃ (mid : Nat), (s.dev.ringsOn = true) ∧ (s.dev.mayWrite mid R.HBM_HASH_SEED) ∧ (s.dev.rwlOk (s.dev.who mid) = true)) ∧
    (∃ (s : State), ∃ (mid : Nat), ∃ (v : Word), (s.dev.ringsOn = true) ∧ (s.dev.mayWrite mid R.HBM_HASH_SEED) ∧ (s.dev.rwlOk (s.dev.who
    mid) = false) ∧ (v ≠ s.dev.reg R.HBM_HASH_SEED) ∧ (s.dev.log.queue.length < 64)) := by
  refine ⟨⟨State.reset, midMGT,
      by repeat' first | exact rfl | decide +kernel | refine And.intro ?_ ?_⟩,
    ⟨wit id [(F.MGT_LOCK_UNLOCK, 1)], midMGT,
      by repeat' first | exact rfl | decide +kernel | refine And.intro ?_ ?_⟩,
    ⟨State.reset, midMGT, 5,
      by repeat' first | exact rfl | decide +kernel | refine And.intro ?_ ?_⟩⟩

theorem witness_EthernetPorts :
    (∃ (s : State), ∃ (port : Nat), ∃ (fec : Nat), (s.dev.on = true) ∧ (port < 2) ∧ ((s.dev.ethCfg port).mode ≠ 0) ∧ ((s.dev.ethCfg
    port).mode < 4) ∧ (s.dev.plat.pllUp.testBit 15 = true) ∧ (fecFits (s.dev.ethCfg port).mode (s.dev.ethCfg port).fec fec = true) ∧
    (fec < 4)) ∧
    (∃ (s : State), ∃ (port : Nat), (s.dev.on = true) ∧ (port < 2)) ∧
    (∃ (s : State), ∃ (port : Nat), (s.dev.on = true) ∧ (s.dev.ethUp port = true)) ∧
    (∃ (s : State), ∃ (port : Nat), ∃ (msg : List Byte), (s.dev.on = true) ∧ (s.dev.ethUp port = true) ∧ (msg.length + 38 ≤ maxFrame)) ∧
    (∃ (s : State), ∃ (port : Nat), (s.dev.on = true) ∧ (s.dev.ethUp port = true)) ∧
    (∃ (s : State), ∃ (port : Nat), ∃ (mac : Nat), ∃ (ip : Nat), ∃ (target : Nat), ∃ f, (f ∈ [EthFrame.other, EthFrame.arp mac ip
    target]) ∧ (s.dev.on = true) ∧ (s.dev.ethUp port = true) ∧ (target ≠ (s.dev.ethCfg port).ip)) := by
  refine ⟨⟨(wEth id []).ofDev (fun d => { d with plat := { d.plat with pllUp := 2 ^ 15 } }), 1, 1,
      by repeat' first | exact rfl | decide +kernel | refine And.intro ?_ ?_⟩,
    ⟨wEth (fun d => { d with eth := { d.eth with paused := [(0, 5)] } }) [], 0,
      by repeat' first | exact rfl | decide +kernel | refine And.intro ?_ ?_⟩,
    ⟨wEth id [], 0,
      by repeat' first | exact rfl | decide +kernel | refine And.intro ?_ ?_⟩,
    ⟨wEth id [], 0, [1, 2, 3, 4],
      by repeat' first | exact rfl | decide +kernel | refine And.intro ?_ ?_⟩,
    ⟨wEth id [], 0,
      by repeat' first | exact rfl | decide +kernel | refine And.intro ?_ ?_⟩,
    ⟨wEth id [], 0, 3, 4, 5, EthFrame.arp 3 4 5,
      by repeat' first | exact rfl | decide +kernel | refine And.intro ?_ ?_⟩⟩

theorem witness_DatagramsAreAccepted :
    (∃ (s : State), ∃ (port : Nat), ∃ (ip : Nat), ∃ (data : List Byte), (s.dev.on = true) ∧ (s.dev.ethUp port = true) ∧ (data.length +
    46 ≤ maxFrame) ∧ (s.dev.ethFilter port ip = none)) ∧
    (∃ (s : State), ∃ (port : Nat), ∃ (ip : Nat), ∃ (data : List Byte), ∃ f, (s.dev.on = true) ∧ (s.dev.ethUp port = true) ∧
    (data.length + 46 ≤ maxFrame) ∧ (s.dev.ethFilter port ip = some f) ∧ (s.dev.fld F.PWR_WAKE_CFG_ETH = 0) ∧ (headerOk data = true)
    ∧ (leAt data 4 2 ≠ 0) ∧ (leAt data 4 2 ≤ 7) ∧ ((s.dev.ethQueue port).length < 64)) ∧
    (∃ (s : State), ∃ (port : Nat), ∃ (ip : Nat), ∃ (data : List Byte), ∃ f, (s.dev.on = true) ∧ (s.dev.ethUp port = true) ∧
    (data.length + 46 ≤ maxFrame) ∧ (s.dev.ethFilter port ip = some f) ∧ (s.dev.fld F.PWR_WAKE_CFG_ETH = 0) ∧ (headerOk data = true)
    ∧ (leAt data 4 2 ≠ 0) ∧ (leAt data 4 2 ≤ 7) ∧ (64 ≤ (s.dev.ethQueue port).length) ∧ (SMap.get 0 s.dev.eth.paused port = 0)) := by
  refine ⟨⟨wEth id [], 0, 0x0B000000, [],
      by repeat' first | exact rfl | decide +kernel | refine And.intro ?_ ?_⟩,
    ⟨wEth id [], 0, 0x0AFFFFFF, ctlReq 7 9 [], ⟨0x0A000000, 8, 3, 31⟩,
      by repeat' first | exact rfl | decide +kernel | refine And.intro ?_ ?_⟩,
    ⟨wEth (fun d => { d with eth := { d.eth with queue0 := List.replicate 64 (ethReq 1 1 []) } }) [], 0, 0x0A000000, ctlReq 1 9 [],
    ⟨0x0A000000, 8, 3, 31⟩,
      by repeat' first | exact rfl | decide +kernel | refine And.intro ?_ ?_⟩⟩

theorem witness_LoomControlReads :
    (∃ (s : State), ∃ (port : Nat), ∃ (q : EthReq), ∃ (d : Dev), (s.dev.on = true) ∧ (s.dev.ethRuns port = true) ∧ ((s.dev.ethQueue
    port).head? = some q) ∧ (q.rights.testBit 0 = true) ∧ (q.op = 1) ∧ (q.body = []) ∧ (d = s.dev.setEthQueue port (s.dev.ethQueue
    port).tail)) ∧
    (∃ (s : State), ∃ (port : Nat), ∃ (q : EthReq), ∃ (d : Dev), ∃ (k : Nat), (s.dev.on = true) ∧ (s.dev.ethRuns port = true) ∧
    ((s.dev.ethQueue port).head? = some q) ∧ (s.dev.ringsOn = true) ∧ (q.rights.testBit 0 = true) ∧ (q.op = 2) ∧ (q.body = leBytes 4
    k) ∧ (k < 2 ^ 32) ∧ (offsetBad k = 0) ∧ (d = s.dev.setEthQueue port (s.dev.ethQueue port).tail)) ∧
    (∃ (s : State), ∃ (port : Nat), ∃ (q : EthReq), ∃ (d : Dev), ∃ (bs : List Byte), (s.dev.on = true) ∧ (s.dev.ethRuns port = true) ∧
    ((s.dev.ethQueue port).head? = some q) ∧ (s.dev.ringsOn = true) ∧ (q.rights.testBit 0 = true) ∧ (q.op = 4) ∧ (q.body.length =
    12) ∧ (leAt q.body 0 8 % 8 = 0) ∧ (leAt q.body 8 4 % 8 = 0) ∧ (leAt q.body 8 4 ≤ s.dev.mtu - 44) ∧ ((s.dev.setEthQueue port
    (s.dev.ethQueue port).tail).busReadMany (midETH + port) (leAt q.body 0 8) (leAt q.body 8 4) = (d, stOK, bs))) ∧
    (∃ (s : State), ∃ (port : Nat), ∃ (q : EthReq), (s.dev.on = true) ∧ (s.dev.ethRuns port = true) ∧ ((s.dev.ethQueue port).head? =
    some q) ∧ (s.dev.ringsOn = true) ∧ (q.rights.testBit 0 = true) ∧ (q.op = 6) ∧ (q.body.length = 4) ∧ (leAt q.body 0 2 < 4096) ∧
    (0 < leAt q.body 2 2) ∧ (leAt q.body 2 2 ≤ 64)) ∧
    (∃ (s : State), ∃ (port : Nat), ∃ (q : EthReq), (s.dev.on = true) ∧ (s.dev.ethRuns port = true) ∧ ((s.dev.ethQueue port).head? =
    some q) ∧ (q.rights.testBit 0 = true) ∧ (q.op = 7) ∧ (q.body.length = 3) ∧ (leAt q.body 0 2 ≠ 0) ∧ ((∀ x ∈ s.dev.eth.subs,
    ¬(x.port = port ∧ x.ip = q.ip ∧ x.udp = q.udp))) ∧ (s.dev.eth.subs.length < 4)) ∧
    (∃ (s : State), ∃ (port : Nat), ∃ (q : EthReq), ∃ c, (c ∈ [(1, Instr.info port), (2, .regRead port), (4, .memRead port), (6,
    .logRead port), (7, .subscribe port)]) ∧ (s.dev.on = true) ∧ (s.dev.ethRuns port = true) ∧ ((s.dev.ethQueue port).head? = some
    q) ∧ (s.dev.ringsOn = true) ∧ (q.rights.testBit 0 = false) ∧ (q.op = c.1)) := by
  refine ⟨⟨wReq 31 1 [] id, 0, ethReq 31 1 [], (wReq 31 1 [] id).dev.setEthQueue 0 [],
      by repeat' first | exact rfl | decide +kernel | refine And.intro ?_ ?_⟩,
    ⟨wReq 31 2 (leBytes 4 R.LOM_DEPTH) id, 0, ethReq 31 2 (leBytes 4 R.LOM_DEPTH), (wReq 31 2 (leBytes 4 R.LOM_DEPTH)
    id).dev.setEthQueue 0 [], R.LOM_DEPTH,
      by repeat' first | exact rfl | decide +kernel | refine And.intro ?_ ?_⟩,
    ⟨wReq 31 4 (leBytes 8 0 ++ leBytes 4 8) id, 0, ethReq 31 4 (leBytes 8 0 ++ leBytes 4 8), (((wReq 31 4 (leBytes 8 0 ++ leBytes 4 8)
    id).dev.setEthQueue 0 []).busReadMany midETH 0 8).1, (((wReq 31 4 (leBytes 8 0 ++ leBytes 4 8) id).dev.setEthQueue 0
    []).busReadMany midETH 0 8).2.2,
      by repeat' first | exact rfl | decide +kernel | refine And.intro ?_ ?_⟩,
    ⟨wReq 31 6 (leBytes 2 4095 ++ leBytes 2 64) id, 0, ethReq 31 6 (leBytes 2 4095 ++ leBytes 2 64),
      by repeat' first | exact rfl | decide +kernel | refine And.intro ?_ ?_⟩,
    ⟨wReq 31 7 (leBytes 2 1 ++ leBytes 1 0) id, 0, ethReq 31 7 (leBytes 2 1 ++ leBytes 1 0),
      by repeat' first | exact rfl | decide +kernel | refine And.intro ?_ ?_⟩,
    ⟨wReq 30 2 (leBytes 4 0) id, 0, ethReq 30 2 (leBytes 4 0), (2, Instr.regRead 0),
      by repeat' first | exact rfl | decide +kernel | refine And.intro ?_ ?_⟩⟩

theorem witness_LoomControlWrites :
    (∃ (s : State), ∃ (port : Nat), ∃ (q : EthReq), ∃ (r : Nat), ∃ (d : Dev), (s.dev.ringsOn = true) ∧ (s.dev.ethRuns port = true) ∧
    ((s.dev.ethQueue port).head? = some q) ∧ (q.op = 3) ∧ (s.dev.ethKept q = none) ∧ (q.body.length = 8) ∧ (offsetBad (leAt q.body 0
    4) = 0) ∧ (rightOf (leAt q.body 0 4) = some r) ∧ (q.rights.testBit r = true) ∧ (d = s.dev.setEthQueue port (s.dev.ethQueue
    port).tail)) ∧
    (∃ (s : State), ∃ (port : Nat), ∃ (q : EthReq), ∃ (d : Dev), (s.dev.ringsOn = true) ∧ (s.dev.ethRuns port = true) ∧ ((s.dev.ethQueue
    port).head? = some q) ∧ (q.op = 5) ∧ (s.dev.ethKept q = none) ∧ (q.rights.testBit 3 = true) ∧ (8 ≤ q.body.length) ∧ (leAt q.body
    0 8 % 8 = 0) ∧ (q.body.length % 8 = 0) ∧ ((s.dev.setEthQueue port (s.dev.ethQueue port).tail).busWriteMany (midETH + port) (leAt
    q.body 0 8) (q.body.drop 8) = (d, stOK))) ∧
    (∃ (s : State), ∃ (port : Nat), ∃ (q : EthReq), ∃ (st : Nat), ∃ c, (c ∈ [(3, Instr.regWrite port), (5, .memWrite port)]) ∧
    (s.dev.ringsOn = true) ∧ (s.dev.ethRuns port = true) ∧ ((s.dev.ethQueue port).head? = some q) ∧ (s.dev.ethKept q = some st) ∧
    (q.op = c.1)) := by
  refine ⟨⟨wReq 31 3 (leBytes 4 R.TRD_START_AT ++ leBytes 4 5) id, 0, ethReq 31 3 (leBytes 4 R.TRD_START_AT ++ leBytes 4 5), 2, (wReq 31 3
    (leBytes 4 R.TRD_START_AT ++ leBytes 4 5) id).dev.setEthQueue 0 [],
      by repeat' first | exact rfl | decide +kernel | refine And.intro ?_ ?_⟩,
    ⟨wReq 31 5 (leBytes 8 0 ++ leBytes 8 5) id, 0, ethReq 31 5 (leBytes 8 0 ++ leBytes 8 5), (((wReq 31 5 (leBytes 8 0 ++ leBytes 8 5)
    id).dev.setEthQueue 0 []).busWriteMany midETH 0 (leBytes 8 5)).1,
      by repeat' first | exact rfl | decide +kernel | refine And.intro ?_ ?_⟩,
    ⟨wReq 31 5 [] (fun d => { d with eth := { d.eth with srcs := [⟨0x0A000002, 5000, [(9, 0)]⟩] } }), 0, ethReq 31 5 [], 0, (5,
    Instr.memWrite 0),
      by repeat' first | exact rfl | decide +kernel | refine And.intro ?_ ?_⟩⟩

theorem witness_ManagementRequests_1 :
    (∃ (s : State), ∃ (f : MgtFrame), ∃ (a : Nat), ∃ (n : Nat), ∃ (ws : List Word), ∃ c, (c ∈ [Instr.mgtRead f a n, .mgtWrite f a ws,
    .mgtStatus ⟨f, n, a⟩]) ∧ (s.dev.mgtServes = true) ∧ (s.dev.mgtMine f = false)) ∧
    (∃ (s : State), ∃ (f : MgtFrame), ∃ (a : Nat), ∃ (n : Nat), ∃ (ws : List Word), ∃ c, (c ∈ [Instr.mgtRead f a n, .mgtWrite f a ws,
    .mgtStatus ⟨f, n, a⟩]) ∧ (s.dev.mgtServes = true) ∧ (s.dev.mgtMine f = true) ∧ (f.intact = false)) ∧
    (∃ (s : State), ∃ (f : MgtFrame), ∃ (a : Nat), ∃ (n : Nat), ∃ (ws : List Word), ∃ c, (c ∈ [Instr.mgtRead f a n, .mgtWrite f a ws,
    .mgtStatus ⟨f, n, a⟩]) ∧ (s.dev.mgtServes = true) ∧ (s.dev.mgtMine f = true) ∧ (f.intact = true) ∧ (f.running = true)) ∧
    (∃ (s : State), ∃ (f : MgtFrame), ∃ (a : Nat), ∃ (n : Nat), ∃ (ws : List Word), (s.dev.mgtServes = true) ∧ (s.dev.mgtMine f = true)
    ∧ (f.intact = true) ∧ (f.running = false) ∧ (f.via < 3) ∧ (s.dev.hubAnswers = false) ∧ (aonWord a = false) ∧ (0 < n) ∧ (ws ≠
    [])) ∧
    (∃ (s : State), ∃ (f : MgtFrame), ∃ k, (s.dev.mgtServes = true) ∧ (s.dev.mgtMine f = true) ∧ (f.intact = true) ∧ (f.running = false)
    ∧ (f.via < 3) ∧ (s.dev.hubAnswers = false) ∧ (aonWord (regBase + k) = true)) ∧
    (∃ (s : State), ∃ (f : MgtFrame), ∃ (a : Nat), ∃ (n : Nat), ∃ (d : Dev), ∃ (st : Nat), ∃ (bs : List Byte), (s.dev.mgtServes = true)
    ∧ (s.dev.mgtMine f = true) ∧ (f.intact = true) ∧ (f.running = false) ∧ (f.via < 3) ∧ (s.dev.hubAnswers = true) ∧
    (s.dev.mgReadWords midMGT a n = (d, st, bs))) := by
  refine ⟨⟨wAon id [], ⟨1, 0x57, true, false⟩, 0, 1, [], Instr.mgtRead (⟨1, 0x57, true, false⟩) (0) (1),
      by repeat' first | exact rfl | decide +kernel | refine And.intro ?_ ?_⟩,
    ⟨wAon id [], ⟨2, 0, false, false⟩, 0, 1, [], .mgtWrite (⟨2, 0, false, false⟩) (0) ([]),
      by repeat' first | exact rfl | decide +kernel | refine And.intro ?_ ?_⟩,
    ⟨wAon id [], ⟨0, 0, true, true⟩, 0, 1, [], .mgtStatus ⟨(⟨0, 0, true, true⟩), (1), (0)⟩,
      by repeat' first | exact rfl | decide +kernel | refine And.intro ?_ ?_⟩,
    ⟨(wAon id []).ofDev (fun d => { d with plat := { d.plat with pllUp := 0 } }), ⟨2, 0, true, false⟩, 0, 1, [5],
      by repeat' first | exact rfl | decide +kernel | refine And.intro ?_ ?_⟩,
    ⟨(wAon id []).ofDev (fun d => { d with plat := { d.plat with pllUp := 0 } }), ⟨2, 0, true, false⟩, R.LOG_COUNT,
      by repeat' first | exact rfl | decide +kernel | refine And.intro ?_ ?_⟩,
    ⟨wAon id [], ⟨2, 0, true, false⟩, regBase, 1, ((wAon id []).dev.mgReadWords midMGT regBase 1).1, ((wAon id []).dev.mgReadWords
    midMGT regBase 1).2.1, ((wAon id []).dev.mgReadWords midMGT regBase 1).2.2,
      by repeat' first | exact rfl | decide +kernel | refine And.intro ?_ ?_⟩⟩

theorem witness_ManagementRequests_2 :
    (∃ (s : State), ∃ (f : MgtFrame), ∃ (k : Nat), (s.dev.mgtServes = true) ∧ (s.dev.mgtMine f = true) ∧ (f.intact = true) ∧ (f.running
    = false) ∧ (f.via < 3) ∧ (s.dev.hubAnswers = true) ∧ (k % 4 = 0) ∧ (k < blocks * 0x10000)) ∧
    (∃ (s : State), ∃ (f : MgtFrame), (s.dev.mgtServes = true) ∧ (s.dev.mgtMine f = true) ∧ (f.intact = true) ∧ (f.running = false) ∧
    (f.via < 3)) ∧
    (∃ (s : State), ∃ (f : MgtFrame), ∃ n, ∃ a, (s.dev.mgtServes = true) ∧ (s.dev.mgtMine f = true) ∧ (f.intact = true) ∧ (f.running =
    false) ∧ (f.via < 3) ∧ ((n ≠ 0 ∨ a ≠ 0))) ∧
    (∃ (s : State), (s.dev.plat.porst = true) ∧ (s.dev.jtagOwner = true)) := by
  refine ⟨⟨wAon id [], ⟨2, 0, true, false⟩, R.LOM_DEPTH,
      by repeat' first | exact rfl | decide +kernel | refine And.intro ?_ ?_⟩,
    ⟨wAon id [], ⟨2, 0, true, false⟩,
      by repeat' first | exact rfl | decide +kernel | refine And.intro ?_ ?_⟩,
    ⟨wAon id [], ⟨2, 0, true, false⟩, 0, 1,
      by repeat' first | exact rfl | decide +kernel | refine And.intro ?_ ?_⟩,
    ⟨wEth id [],
      by repeat' first | exact rfl | decide +kernel | refine And.intro ?_ ?_⟩⟩

theorem witness_LockOpensAndCloses :
    (∃ (s : State), ∃ (t : Nat), (s.dev.ringsOn = true) ∧ (s.dev.hubAnswers = true) ∧ (s.dev.unlocked = false) ∧ (t < 65536) ∧
    (s.dev.log.queue.length < 64)) ∧
    (∃ (s : State), (s.dev.on = true) ∧ (s.dev.unlocked = true) ∧ (s.dev.log.queue.length < 64)) := by
  refine ⟨⟨wAon id [], 65535,
      by repeat' first | exact rfl | decide +kernel | refine And.intro ?_ ?_⟩,
    ⟨wAon id [(F.MGT_LOCK_UNLOCK, 1)],
      by repeat' first | exact rfl | decide +kernel | refine And.intro ?_ ?_⟩⟩

theorem witness_PtpMessages :
    (∃ (s : State), ∃ (port : Nat), ∃ (x : List Byte), ∃ (frame : List Byte), ∃ (d1 : Dev), ∃ st, (s.dev.ringsOn = true) ∧ (s.dev.ethUp
    port = true) ∧ (s.dev.ptpFits port frame = true) ∧ (frame.length + 4 ≤ maxFrame) ∧ (s.dev.busRead (midETH + port) gkREAD
    (s.dev.ringAddr (2 * port)) 32 = (d1, st, x)) ∧ ((st ≠ stOK ∨ leAt x 10 1 % 2 = 0))) ∧
    (∃ (s : State), ∃ (port : Nat), ∃ (x : List Byte), ∃ (frame : List Byte), ∃ (d1 : Dev), ∃ (d2 : Dev), (s.dev.ringsOn = true) ∧
    (s.dev.ethUp port = true) ∧ (s.dev.ptpFits port frame = true) ∧ (frame.length + 4 ≤ maxFrame) ∧ (s.dev.busRead (midETH + port)
    gkREAD (s.dev.ringAddr (2 * port)) 32 = (d1, stOK, x)) ∧ (leAt x 10 1 % 2 = 1) ∧ (d1.busWriteMany (midETH + port) (leAt x 0 8)
    frame = (d2, stOK))) ∧
    (∃ (s : State), ∃ (port : Nat), ∃ (frame : List Byte), (s.dev.ringsOn = true) ∧ (s.dev.ethUp port = true) ∧ (s.dev.ptpFits port
    frame = false)) ∧
    (∃ (s : State), ∃ (port : Nat), ∃ (x : List Byte), ∃ (d1 : Dev), (s.dev.ringsOn = true) ∧ (s.dev.ethUp port = true) ∧ (s.dev.busRead
    (midETH + port) gkREAD (s.dev.ringAddr (2 * port + 1)) 32 = (d1, stOK, x)) ∧ (leAt x 10 1 % 2 = 0) ∧ (SMap.get 0
    s.dev.eth.paused port = 0)) ∧
    (∃ (s : State), ∃ (port : Nat), (s.dev.ringsOn = true) ∧ (s.dev.ethUp port = true) ∧ (SMap.get 0 s.dev.eth.paused port ≠ 0)) ∧
    (∃ (s : State), ∃ (port : Nat), ∃ (x : List Byte), ∃ (frame : List Byte), ∃ (d1 : Dev), ∃ (d2 : Dev), (s.dev.ringsOn = true) ∧
    (s.dev.ethUp port = true) ∧ (s.dev.busRead (midETH + port) gkREAD (s.dev.ringAddr (2 * port + 1)) 32 = (d1, stOK, x)) ∧ (leAt x
    10 1 = 1) ∧ (SMap.get 0 s.dev.eth.paused port = 0) ∧ (d1.busReadMany (midETH + port) (leAt x 0 8) (leAt x 8 2) = (d2, stOK,
    frame))) := by
  refine ⟨⟨wRing (fun d => d), 0, List.replicate 32 0, ptpFrame, ((wRing (fun d => d)).dev.busRead midETH gkREAD ((wRing (fun d =>
    d)).dev.ringAddr 0) 32).1, 0,
      by repeat' first | exact rfl | decide +kernel | refine And.intro ?_ ?_⟩,
    ⟨wRing (fun d => d.setBytes 0 ((leBytes 8 0x1000 ++ leBytes 2 0 ++ [1]) ++ List.replicate 21 0)), 0, (leBytes 8 0x1000 ++ leBytes 2
    0 ++ [1]) ++ List.replicate 21 0, ptpFrame, ((wRing (fun d => d.setBytes 0 ((leBytes 8 0x1000 ++ leBytes 2 0 ++ [1]) ++
    List.replicate 21 0))).dev.busRead midETH gkREAD ((wRing (fun d => d.setBytes 0 ((leBytes 8 0x1000 ++ leBytes 2 0 ++ [1]) ++
    List.replicate 21 0))).dev.ringAddr 0) 32).1, ((((wRing (fun d => d.setBytes 0 ((leBytes 8 0x1000 ++ leBytes 2 0 ++ [1]) ++
    List.replicate 21 0))).dev.busRead midETH gkREAD ((wRing (fun d => d.setBytes 0 ((leBytes 8 0x1000 ++ leBytes 2 0 ++ [1]) ++
    List.replicate 21 0))).dev.ringAddr 0) 32).1).busWriteMany midETH 0x1000 ptpFrame).1,
      by repeat' first | exact rfl | decide +kernel | refine And.intro ?_ ?_⟩,
    ⟨wRing (fun d => d), 0, [1, 2],
      by repeat' first | exact rfl | decide +kernel | refine And.intro ?_ ?_⟩,
    ⟨wRing (fun d => d), 0, List.replicate 32 0, ((wRing (fun d => d)).dev.busRead midETH gkREAD ((wRing (fun d => d)).dev.ringAddr 1)
    32).1,
      by repeat' first | exact rfl | decide +kernel | refine And.intro ?_ ?_⟩,
    ⟨wRing (fun d => { d with eth := { d.eth with paused := [(0, 1)] } }), 0,
      by repeat' first | exact rfl | decide +kernel | refine And.intro ?_ ?_⟩,
    ⟨wRing (fun d => d.setBytes 0x2000 ((leBytes 8 0x1000 ++ leBytes 2 8 ++ [1]) ++ List.replicate 21 0)), 0, (leBytes 8 0x1000 ++
    leBytes 2 8 ++ [1]) ++ List.replicate 21 0, List.replicate 8 0, ((wRing (fun d => d.setBytes 0x2000 ((leBytes 8 0x1000 ++
    leBytes 2 8 ++ [1]) ++ List.replicate 21 0))).dev.busRead midETH gkREAD ((wRing (fun d => d.setBytes 0x2000 ((leBytes 8 0x1000
    ++ leBytes 2 8 ++ [1]) ++ List.replicate 21 0))).dev.ringAddr 1) 32).1, ((((wRing (fun d => d.setBytes 0x2000 ((leBytes 8 0x1000
    ++ leBytes 2 8 ++ [1]) ++ List.replicate 21 0))).dev.busRead midETH gkREAD ((wRing (fun d => d.setBytes 0x2000 ((leBytes 8
    0x1000 ++ leBytes 2 8 ++ [1]) ++ List.replicate 21 0))).dev.ringAddr 1) 32).1).busReadMany midETH 0x1000 8).1,
      by repeat' first | exact rfl | decide +kernel | refine And.intro ?_ ?_⟩⟩

theorem witness_ClocksComeUp :
    (∃ (s : State), (s.dev.plat.aonUp = true) ∧ (s.dev.plat.crystalDone = false)) ∧
    (∃ (s : State), (s.dev.plat.aonPll = 1)) ∧
    (∃ (s : State), (s.dev.plat.aonPll = 1) ∧ (s.dev.log.queue.length < 64)) ∧
    (∃ (s : State), ∃ (dom : Nat), (dom ∈ pllDomains) ∧ (s.dev.plat.pllStarted = true) ∧ (s.dev.plat.pllUp.testBit dom = false) ∧
    (s.dev.plat.pllBad.testBit dom = false)) := by
  refine ⟨⟨wit (fun d => { d with plat := { d.plat with crystalDone := false } }) [],
      by repeat' first | exact rfl | decide +kernel | refine And.intro ?_ ?_⟩,
    ⟨wit (fun d => { d with plat := { d.plat with aonPll := 1, stage := 2 } }) [],
      by repeat' first | exact rfl | decide +kernel | refine And.intro ?_ ?_⟩,
    ⟨wit (fun d => { d with plat := { d.plat with aonPll := 1 } }) [],
      by repeat' first | exact rfl | decide +kernel | refine And.intro ?_ ?_⟩,
    ⟨wit (fun d => { d with plat := { d.plat with pllStarted := true } }) [], 15,
      by repeat' first | exact rfl | decide +kernel | refine And.intro ?_ ?_⟩⟩

theorem witness_PorstRises :
    (∃ (s : State), ∃ (straps : Nat), (s.dev.plat.aonUp = true) ∧ (s.dev.plat.porst = false) ∧ (straps < 16)) :=
  ⟨wit (fun d => { d with plat := { d.plat with porst := false } }) [], 15,
      by repeat' first | exact rfl | decide +kernel | refine And.intro ?_ ?_⟩

theorem witness_CharterIsRead :
    (∃ (s : State), ∃ (c : Charter), (s.dev.on = true) ∧ (1 ≤ s.dev.plat.stage) ∧ (s.dev.plat.stage ≤ 3) ∧ (s.dev.plat.crystalDone =
    true) ∧ (2 ≤ s.dev.plat.aonPll) ∧ (s.dev.copyAt copyA = .ok c) ∧ (c.writes = []) ∧ (c.filters = []) ∧ (c.rules = []) ∧
    (c.gpio.length ≤ 48) ∧ (c.role < 3) ∧ (c.position < 16) ∧ (s.dev.plat.warm = false) ∧ (s.dev.log.queue.length < 64)) ∧
    (∃ (s : State), ∃ (r : Nat), ∃ (q : Nat), (s.dev.on = true) ∧ (1 ≤ s.dev.plat.stage) ∧ (s.dev.plat.stage ≤ 3) ∧
    (s.dev.plat.crystalDone = true) ∧ (2 ≤ s.dev.plat.aonPll) ∧ (s.dev.copyAt copyA = .error r) ∧ (s.dev.copyAt copyB = .error q)) := by
  refine ⟨⟨wChr chrFlash, charterOf 7 chrRecs,
      by repeat' first | decide +kernel | (refine @of_decide_eq_true _ (decExc _ _) ?_; decide +kernel) | refine pairFst ?_ | refine Prod.ext (Eq.refl _) ?_ | exact rfl | refine And.intro ?_ ?_⟩,
    ⟨wChr [], 1, 1,
      by repeat' first | decide +kernel | (refine @of_decide_eq_true _ (decExc _ _) ?_; decide +kernel) | refine pairFst ?_ | refine Prod.ext (Eq.refl _) ?_ | exact rfl | refine And.intro ?_ ?_⟩⟩

theorem witness_HbmTrains :
    (∃ (s : State), (s.dev.on = true) ∧ (s.dev.plat.stage = 7) ∧ (s.dev.loom.atCommit = []) ∧ (s.dev.charter.isSome = true)) ∧
    (∃ (s : State), ∃ (failed : Nat), (s.dev.on = true) ∧ (s.dev.plat.stage = 7) ∧ (failed ≠ 0) ∧ (failed < 256)) := by
  refine ⟨⟨wit (fun d => { d with charter := some (chartOf 0), plat := { d.plat with stage := 7 } }) [],
      by repeat' first | exact rfl | decide +kernel | refine And.intro ?_ ?_⟩,
    ⟨wit (fun d => { d with plat := { d.plat with stage := 7 } }) [], 255,
      by repeat' first | exact rfl | decide +kernel | refine And.intro ?_ ?_⟩⟩

theorem witness_WarmReset :
    (∃ (s : State), (s.dev.plat.wrst = true) ∧ (s.dev.plat.porst = true) ∧ (s.dev.fld F.PWR_STATUS_DEV ≠ 2)) ∧
    (∃ (s : State), (s.dev.plat.wrst = false) ∧ (s.dev.plat.porst = true) ∧ (s.dev.plat.crystalDone = true) ∧ (2 ≤ s.dev.plat.aonPll) ∧
    (s.dev.fld F.PWR_STATUS_DEV ≠ 2)) ∧
    (∃ (s : State), (s.dev.plat.wrst = true) ∧ (s.dev.plat.porst = true) ∧ (s.dev.fld F.PWR_STATUS_DEV = 2)) ∧
    (∃ (s : State), (s.dev.plat.wrst = false) ∧ (s.dev.plat.porst = true) ∧ (s.dev.fld F.PWR_STATUS_DEV = 2)) := by
  refine ⟨⟨wit (fun d => d.setBytes 0 [5]) [(F.LOM_DEPTH_D, 64)],
      by repeat' first | exact rfl | decide +kernel | refine And.intro ?_ ?_⟩,
    ⟨wit (fun d => { d with plat := { d.plat with wrst := false, crystalDone := true, aonPll := 2 } }) [],
      by repeat' first | exact rfl | decide +kernel | refine And.intro ?_ ?_⟩,
    ⟨wit id [(F.PWR_STATUS_DEV, 2)],
      by repeat' first | exact rfl | decide +kernel | refine And.intro ?_ ?_⟩,
    ⟨wit (fun d => { d with plat := { d.plat with wrst := false } }) [(F.PWR_STATUS_DEV, 2)],
      by repeat' first | exact rfl | decide +kernel | refine And.intro ?_ ?_⟩⟩

theorem witness_LoadsStartAndAbort :
    (∃ (s : State), (s.dev.ringsOn = true) ∧ ((s.dev.ldr.load.isSome = true ∨ ¬(s.dev.ts = tsIdle ∨ s.dev.ts = tsArmed ∨ s.dev.ts =
    tsHalted) ∨ s.dev.plat.hbmReady = false))) ∧
    (∃ (s : State), ∃ (slot : Nat), (s.dev.ringsOn = true) ∧ (s.dev.ldr.load = none) ∧ ((s.dev.ts = tsIdle ∨ s.dev.ts = tsArmed ∨
    s.dev.ts = tsHalted)) ∧ (s.dev.plat.hbmReady = true) ∧ (s.dev.slotUsed slot = false)) ∧
    (∃ (s : State), ∃ (slot : Nat), (s.dev.ringsOn = true) ∧ (s.dev.ldr.load = none) ∧ ((s.dev.ts = tsIdle ∨ s.dev.ts = tsArmed ∨
    s.dev.ts = tsHalted)) ∧ (s.dev.plat.hbmReady = true) ∧ (s.dev.slotUsed slot = true) ∧ (slot < 256) ∧ (s.dev.loom.atCommit = [])) ∧
    (∃ (s : State), (s.dev.ringsOn = true) ∧ (s.dev.ldr.load = none)) ∧
    (∃ (s : State), ∃ (x : LoadSt), (s.dev.ringsOn = true) ∧ (s.dev.ldr.load = some x) ∧ (x.written = false)) := by
  refine ⟨⟨State.reset,
      by repeat' first | exact rfl | decide +kernel | refine And.intro ?_ ?_⟩,
    ⟨wit (fun d => { d with plat := { d.plat with hbmReady := true } }) [], 0xFF,
      by repeat' first | exact rfl | decide +kernel | refine And.intro ?_ ?_⟩,
    ⟨wLdr (fun d => d.setBytes 0 [5]) [(fTs, tsHalted)], 0,
      by repeat' first | exact rfl | decide +kernel | refine And.intro ?_ ?_⟩,
    ⟨State.reset,
      by repeat' first | exact rfl | decide +kernel | refine And.intro ?_ ?_⟩,
    ⟨wLdr (fun d => d.onLdr (fun r => { r with load := some load0 })) [], load0,
      by repeat' first | exact rfl | decide +kernel | refine And.intro ?_ ?_⟩⟩

theorem witness_LoadAttempts :
    (∃ (s : State), ∃ (m : List Byte), ∃ (x : LoadSt), ∃ (c : CatEntry), ∃ (img : Image), ∃ (l : Loom), ∃ (lo : Nat), ∃ (hi : Nat),
    (s.dev.ringsOn = true) ∧ (s.dev.ldr.load = some x) ∧ (x.ready = none) ∧ (s.dev.catEntry x.slot x.entry = some c) ∧
    (s.dev.tryEntry m c x.base = .ok (img, l, (lo, hi))) ∧ (s.dev.loom.hashMode ≠ 1)) ∧
    (∃ (s : State), ∃ (m : List Byte), ∃ (x : LoadSt), ∃ (c : CatEntry), ∃ (f : LoadFail), (s.dev.ringsOn = true) ∧ (s.dev.ldr.load =
    some x) ∧ (x.ready = none) ∧ (x.entry = 0) ∧ (s.dev.catEntry x.slot 0 = some c) ∧ ((s.dev.catEntry x.slot 1).isSome = true) ∧
    (s.dev.tryEntry m c x.base = .error f)) ∧
    (∃ (s : State), ∃ (x : LoadSt), (s.dev.on = true) ∧ (s.dev.ldr.load = some x) ∧ (x.ready = none) ∧ (x.retries < 3)) ∧
    (∃ (s : State), ∃ (b : BaySt), ∃ (slot : Nat), (s.dev.on = true) ∧ (s.dev.ldr.load = none) ∧ (s.dev.ldr.bay = some b) ∧ (b.phase =
    1) ∧ (b.slot = some slot) ∧ (b.retries < 3)) := by
  refine ⟨⟨wLdr (fun d => d.onLdr (fun r => { r with load := some load0 })) [], imgBytes, load0, catC, (imgOf ((wLdr (fun d => d.onLdr (fun r
    => { r with load := some load0 })) []).dev.tryEntry imgBytes catC 0)).1, (imgOf ((wLdr (fun d => d.onLdr (fun r =>
    { r with load := some load0 })) []).dev.tryEntry imgBytes catC 0)).2.1, (imgOf ((wLdr (fun d => d.onLdr (fun r =>
    { r with load := some load0 })) []).dev.tryEntry imgBytes catC 0)).2.2.1, (imgOf ((wLdr (fun d => d.onLdr (fun r =>
    { r with load := some load0 })) []).dev.tryEntry imgBytes catC 0)).2.2.2,
      by repeat' first | decide +kernel | (refine @of_decide_eq_true _ (decExc _ _) ?_; decide +kernel) | refine pairFst ?_ | refine Prod.ext (Eq.refl _) ?_ | exact rfl | refine And.intro ?_ ?_⟩,
    ⟨wLdr (fun d => d.onLdr (fun r => { r with load := some load0 })) [], [], load0, catC, errOf ((wLdr (fun d => d.onLdr (fun r =>
    { r with load := some load0 })) []).dev.tryEntry [] catC 0),
      by repeat' first | decide +kernel | (refine @of_decide_eq_true _ (decExc _ _) ?_; decide +kernel) | refine pairFst ?_ | refine Prod.ext (Eq.refl _) ?_ | exact rfl | refine And.intro ?_ ?_⟩,
    ⟨wLdr (fun d => d.onLdr (fun r => { r with load := some { load0 with retries := 2 } })) [], { load0 with retries := 2 },
      by repeat' first | decide +kernel | (refine @of_decide_eq_true _ (decExc _ _) ?_; decide +kernel) | refine pairFst ?_ | refine Prod.ext (Eq.refl _) ?_ | exact rfl | refine And.intro ?_ ?_⟩,
    ⟨wLdr (fun d => d.onLdr (fun r => { r with bay := some ⟨31, some 0, 1, [], 2, 0⟩ })) [], ⟨31, some 0, 1, [], 2, 0⟩, 0,
      by repeat' first | decide +kernel | (refine @of_decide_eq_true _ (decExc _ _) ?_; decide +kernel) | refine pairFst ?_ | refine Prod.ext (Eq.refl _) ?_ | exact rfl | refine And.intro ?_ ?_⟩⟩

theorem witness_LoadCompletes :
    (∃ (s : State), ∃ (x : LoadSt), ∃ (img : Image), ∃ (l : Loom), (s.dev.ringsOn = true) ∧ (s.dev.ldr.load = some x) ∧ (x.ready = some
    img) ∧ (x.written = false) ∧ (s.dev.placeAndCheck img.header img.sections x.base (s.dev.fld F.LDR_CACHE_BASE_BASE * 256,
    s.dev.fld F.LDR_CACHE_BASE_BASE * 256 + s.dev.fld F.LDR_CACHE_SIZE_SIZE * 2 ^ 28) = .ok l) ∧ (s.dev.loomAwake l = true) ∧
    (s.dev.event8Over = true)) ∧
    (∃ (s : State), ∃ (x : LoadSt), ∃ (img : Image), ∃ (l : Loom), (s.dev.ringsOn = true) ∧ (s.dev.ldr.load = some x) ∧ (x.ready = some
    img) ∧ (x.written = false) ∧ (s.dev.placeAndCheck img.header img.sections x.base (s.dev.fld F.LDR_CACHE_BASE_BASE * 256,
    s.dev.fld F.LDR_CACHE_BASE_BASE * 256 + s.dev.fld F.LDR_CACHE_SIZE_SIZE * 2 ^ 28) = .ok l) ∧ (s.dev.loomAwake l = true) ∧
    (s.dev.event8Over = false)) ∧
    (∃ (s : State), ∃ (x : LoadSt), ∃ (img : Image), (s.dev.ringsOn = true) ∧ (s.dev.ldr.load = some x) ∧ (x.ready = some img) ∧
    (x.written = false) ∧ (x.entry = 0) ∧ ((s.dev.catEntry x.slot 1).isSome = true)) := by
  refine ⟨⟨wLdr (fun d => d.onLdr (fun r => { r with load := some { load0 with step := 4, ready := some img0 } })) [],
    { load0 with step := 4, ready := some img0 }, img0, loomOf ((wLdr (fun d => d.onLdr (fun r =>
    { r with load := some { load0 with step := 4, ready := some img0 } })) []).dev.placeAndCheck img0.header img0.sections 0 (0,
    0)),
      by repeat' first | decide +kernel | (refine @of_decide_eq_true _ (decExc _ _) ?_; decide +kernel) | refine pairFst ?_ | refine Prod.ext (Eq.refl _) ?_ | exact rfl | refine And.intro ?_ ?_⟩,
    ⟨wLdr (fun d => (d.onLane 9 (fun y => { y with boot := true })).onLdr (fun r =>
    { r with load := some { load0 with step := 4, ready := some img0 } })) [], { load0 with step := 4, ready := some img0 }, img0,
    loomOf ((wLdr (fun d => (d.onLane 9 (fun y => { y with boot := true })).onLdr (fun r =>
    { r with load := some { load0 with step := 4, ready := some img0 } })) []).dev.placeAndCheck img0.header img0.sections 0 (0,
    0)),
      by repeat' first | decide +kernel | (refine @of_decide_eq_true _ (decExc _ _) ?_; decide +kernel) | refine pairFst ?_ | refine Prod.ext (Eq.refl _) ?_ | exact rfl | refine And.intro ?_ ?_⟩,
    ⟨wLdr (fun d => d.onLdr (fun r => { r with load := some { load0 with step := 4, ready := some img0 } })) [],
    { load0 with step := 4, ready := some img0 }, img0,
      by repeat' first | decide +kernel | (refine @of_decide_eq_true _ (decExc _ _) ?_; decide +kernel) | refine pairFst ?_ | refine Prod.ext (Eq.refl _) ?_ | exact rfl | refine And.intro ?_ ?_⟩⟩

theorem witness_DoneIsFollowed :
    (∃ (s : State), (s.dev.on = true) ∧ (s.dev.fld F.LDR_DONE_CFG_SRC = 0) ∧ (s.dev.plat.doneLow = false) ∧ (s.dev.fld F.LDR_DONE_SEEN =
    0) ∧ (s.dev.ldr.doneNew = true)) ∧
    (∃ (s : State), (s.dev.ringsOn = true) ∧ (s.dev.trd.autoWait = true)) ∧
    (∃ (s : State), ∃ (timed : Bool), (s.dev.on = true) ∧ (s.dev.trd.autoWait = true) ∧ (timed = (s.dev.fld F.TRD_START_CFG_SRC == 1)) ∧
    (s.dev.panelsAwake = true) ∧ (s.dev.startRefusal false = 0) ∧ ((s.dev.fld F.TRD_CTL_MODE = 1 → s.dev.armCompute.arm.2 = true)) ∧
    ((s.dev.role = roSingle ∨ (s.dev.role = roLeader ∧ s.dev.others ≠ [])))) ∧
    (∃ (s : State), (s.dev.on = true) ∧ (s.dev.plat.doneLow = false) ∧ (s.dev.fld F.LDR_DONE_SEEN = 0) ∧ (s.dev.ldr.doneNew = true) ∧
    (s.dev.alerts.testBit alDone = false) ∧ (s.dev.fld F.LDR_DONE_CFG_SRC = 0)) ∧
    (∃ (s : State), (s.dev.on = true) ∧ (s.dev.fld F.LDR_DONE_SEEN = 1) ∧ (s.dev.fld F.LDR_DONE_CFG_SRC = 0) ∧ (s.dev.log.queue.length <
    64) ∧ ((s.dev.ts = tsArmed ∨ s.dev.ts = tsHalted ∨ s.dev.ts = tsBeat))) ∧
    (∃ (s : State), (s.dev.on = true) ∧ (s.dev.fld F.LDR_DONE_SEEN = 1) ∧ (s.dev.fld F.LDR_DONE_CFG_SRC = 0) ∧ (s.dev.ts = tsStarting) ∧
    (s.dev.trd.stopPend = false)) := by
  refine ⟨⟨wLdr (fun d => { d with ldr := { d.ldr with doneNew := true }, plat := { d.plat with doneLow := false } }) [(fTs, tsArmed)],
      by repeat' first | exact rfl | decide +kernel | refine And.intro ?_ ?_⟩,
    ⟨wit (fun d => d.onTrd (fun t => { t with autoWait := true })) [],
      by repeat' first | exact rfl | decide +kernel | refine And.intro ?_ ?_⟩,
    ⟨wit (fun d => d.onTrd (fun t => { t with autoWait := true })) [(fTs, tsArmed), (F.TRD_START_CFG_SRC, 1)], true,
      by repeat' first | exact rfl | decide +kernel | refine And.intro ?_ ?_⟩,
    ⟨wLdr (fun d => { d with ldr := { d.ldr with doneNew := true }, plat := { d.plat with doneLow := false } }) [(fTs, tsArmed)],
      by repeat' first | exact rfl | decide +kernel | refine And.intro ?_ ?_⟩,
    ⟨wit (fun d => d.onLoom (fun l => { l with phase := .running })) [(fTs, tsBeat), (F.LDR_DONE_SEEN, 1), (F.LDR_DONE_PIN, 1)],
      by repeat' first | exact rfl | decide +kernel | refine And.intro ?_ ?_⟩,
    ⟨wit id [(fTs, tsStarting), (F.LDR_DONE_SEEN, 1), (F.LDR_DONE_PIN, 1)],
      by repeat' first | exact rfl | decide +kernel | refine And.intro ?_ ?_⟩⟩

theorem witness_BayReloads_1 :
    (∃ (s : State), ∃ (bay : Nat), (s.dev.ringsOn = true) ∧ (s.dev.loom.bayBeams bay = [])) ∧
    (∃ (s : State), ∃ (bay : Nat), (s.dev.ringsOn = true) ∧ (s.dev.loom.bayBeams bay ≠ []) ∧ (s.dev.ldr.bay.isSome = true)) ∧
    (∃ (s : State), ∃ (bay : Nat), (s.dev.ringsOn = true) ∧ (s.dev.loom.bayBeams bay ≠ []) ∧ (s.dev.ldr.bay = none) ∧ (s.dev.ts ∈
    [tsArmed, tsStarting, tsBeat, tsWaiting, tsHalted]) ∧ ((∀ gb ∈ s.dev.loom.bayBeams bay, s.dev.panelUp (s.dev.panelOf gb) =
    true))) ∧
    (∃ (s : State), ∃ (b : BaySt), (s.dev.ringsOn = true) ∧ (s.dev.ldr.bay = some b) ∧ (b.phase = 1) ∧ (b.slot = none) ∧ (s.dev.ts =
    tsBeat)) ∧
    (∃ (s : State), (s.dev.ringsOn = true) ∧ (s.dev.ldr.bay = none)) ∧
    (∃ (s : State), ∃ (b : BaySt), (s.dev.ringsOn = true) ∧ (s.dev.ldr.bay = some b) ∧ (b.phase ≤ 2)) := by
  refine ⟨⟨State.reset, 0,
      by repeat' first | exact rfl | decide +kernel | refine And.intro ?_ ?_⟩,
    ⟨wit (fun d => (d.onLoom (fun l => { l with bay := [(0, 1)] })).onLdr (fun r => { r with bay := some ⟨0, none, 1, [], 0, 0⟩ })) [],
    0,
      by repeat' first | exact rfl | decide +kernel | refine And.intro ?_ ?_⟩,
    ⟨wit (fun d => d.onLoom (fun l => { l with bay := [(127, 32)], need := [(127, 1)] })) [(fTs, tsHalted)], 31,
      by repeat' first | exact rfl | decide +kernel | refine And.intro ?_ ?_⟩,
    ⟨wLdr (fun d => d.onLdr (fun r => { r with cache := some img0, bay := some ⟨31, none, 1, [], 0, 0⟩ })) [(fTs, tsBeat)], ⟨31, none,
    1, [], 0, 0⟩,
      by repeat' first | exact rfl | decide +kernel | refine And.intro ?_ ?_⟩,
    ⟨State.reset,
      by repeat' first | exact rfl | decide +kernel | refine And.intro ?_ ?_⟩,
    ⟨wit (fun d => d.onLdr (fun r => { r with bay := some ⟨31, none, 2, [], 0, 0⟩ })) [], ⟨31, none, 2, [], 0, 0⟩,
      by repeat' first | exact rfl | decide +kernel | refine And.intro ?_ ?_⟩⟩

theorem witness_BayReloads_2 :
    (∃ (s : State), ∃ (b : BaySt), (s.dev.ringsOn = true) ∧ (s.dev.ldr.bay = some b) ∧ (b.phase = 3) ∧ ((∀ gb ∈ s.dev.loom.bayBeams
    b.bay, s.dev.panelUp (s.dev.panelOf gb) = true))) :=
  ⟨wLdr (fun d => (d.onLoom (fun l => { l with bay := [(127, 32)], need := [(127, 1)] })).onLdr (fun r =>
    { r with cache := some img0, bay := some ⟨31, none, 3, [], 0, 0⟩ })) [(fTs, tsBeat)], ⟨31, none, 3, [], 0, 0⟩,
      by repeat' first | exact rfl | decide +kernel | refine And.intro ?_ ?_⟩

theorem witness_FlashCommands :
    (∃ (s : State), ∃ (a : Nat), ∃ mid, (s.dev.ringsOn = true) ∧ (a = s.dev.fld F.CHR_FL_ADDR_ADDR / 4 * 4) ∧ (s.dev.ownerMay mid
    R.CHR_FL_CMD) ∧ (s.dev.fld F.CHR_FL_STATUS_BUSY = 0)) ∧
    (∃ (s : State), ∃ (a : Nat), ∃ mid, (s.dev.ringsOn = true) ∧ (a = s.dev.fld F.CHR_FL_ADDR_ADDR / 4 * 4) ∧ (s.dev.ownerMay mid
    R.CHR_FL_CMD) ∧ (s.dev.fld F.CHR_FL_STATUS_BUSY = 0) ∧ (a < 0x80000) ∧ ((∀ i < 4, s.dev.flashByte (a + i) = 0xFF))) ∧
    (∃ (s : State), ∃ (a : Nat), ∃ mid, (s.dev.ringsOn = true) ∧ (a = s.dev.fld F.CHR_FL_ADDR_ADDR / 4 * 4) ∧ (s.dev.ownerMay mid
    R.CHR_FL_CMD) ∧ (s.dev.fld F.CHR_FL_STATUS_BUSY = 0) ∧ (a < 0xF0000)) ∧
    (∃ (s : State), ∃ (a : Nat), ∃ mid, (s.dev.ringsOn = true) ∧ (a = s.dev.fld F.CHR_FL_ADDR_ADDR / 4 * 4) ∧ (s.dev.ownerMay mid
    R.CHR_FL_CMD) ∧ (s.dev.fld F.CHR_FL_STATUS_BUSY = 0) ∧ (0x80000 ≤ a) ∧ (a < 0xF0000)) ∧
    (∃ (s : State), ∃ (a : Nat), ∃ mid, ∃ c, (s.dev.ringsOn = true) ∧ (a = s.dev.fld F.CHR_FL_ADDR_ADDR / 4 * 4) ∧ (s.dev.ownerMay mid
    R.CHR_FL_CMD) ∧ (s.dev.fld F.CHR_FL_STATUS_BUSY = 1) ∧ (c ∈ [Instr.flashRead mid, .flashProgram mid, .flashErase mid])) ∧
    (∃ (s : State), ∃ (x : Nat), (s.dev.aonOn = true) ∧ (s.dev.ldr.flashCmd = 2 + 4 * x) ∧ (x < 0x80000) ∧ (s.dev.log.queue.length <
    64)) := by
  refine ⟨⟨wit id [(F.CHR_FL_ADDR_ADDR, 0xFFFFC)], 0xFFFFC, midMGT,
      by repeat' first | exact rfl | decide +kernel | refine And.intro ?_ ?_⟩,
    ⟨wit (fun d => d.setReg R.CHR_FL_DATA 5) [(F.CHR_FL_ADDR_ADDR, 0x7FFFC)], 0x7FFFC, midMGT,
      by repeat' first | exact rfl | decide +kernel | refine And.intro ?_ ?_⟩,
    ⟨wit (fun d => { d with flash := [(0xEFFFC, 5), (0xF0000, 5)] }) [(F.CHR_FL_ADDR_ADDR, 0xEFFFC)], 0xEFFFC, midMGT,
      by repeat' first | exact rfl | decide +kernel | refine And.intro ?_ ?_⟩,
    ⟨wit (fun d => d.setReg R.CHR_FL_DATA 5) [(F.CHR_FL_ADDR_ADDR, 0xEFFFC)], 0xEFFFC, midMGT,
      by repeat' first | exact rfl | decide +kernel | refine And.intro ?_ ?_⟩,
    ⟨wit id [(F.CHR_FL_STATUS_BUSY, 1)], 0, midMGT, Instr.flashErase midMGT,
      by repeat' first | exact rfl | decide +kernel | refine And.intro ?_ ?_⟩,
    ⟨wAon (fun d => { d with ldr := { d.ldr with flashCmd := 2 + 4 * 0x7FFFC } }) [(F.CHR_FL_STATUS_BUSY, 1)], 0x7FFFC,
      by repeat' first | exact rfl | decide +kernel | refine And.intro ?_ ?_⟩⟩

theorem witness_RepairsAreApplied :
    (∃ (s : State), (s.dev.on = true) ∧ (s.dev.plat.stage = 5)) ∧
    (∃ (s : State), (s.dev.on = true) ∧ (s.dev.plat.stage = 6)) := by
  refine ⟨⟨wit (fun d => { d with plat := { d.plat with stage := 5 }, rel := { d.rel with hard := [repairWord 2 127 65 0] } }) [],
      by repeat' first | exact rfl | decide +kernel | refine And.intro ?_ ?_⟩,
    ⟨wit (fun d => { d with plat := { d.plat with stage := 6 } }) [],
      by repeat' first | exact rfl | decide +kernel | refine And.intro ?_ ?_⟩⟩

theorem witness_SelfTestRuns :
    (∃ (s : State), ∃ (mid : Nat), ∃ (targets : Nat), (s.dev.ringsOn = true) ∧ (s.dev.ownerMay mid R.BST_CMD) ∧ (targets < 16) ∧
    (s.dev.ts = tsIdle) ∧ (s.dev.rel.bistRun = none)) ∧
    (∃ (s : State), ∃ (mid : Nat), ∃ (targets : Nat), (s.dev.ringsOn = true) ∧ (s.dev.ownerMay mid R.BST_CMD) ∧ (targets < 16) ∧
    (s.dev.ts ≠ tsIdle) ∧ (s.dev.rel.bistRun = none)) ∧
    (∃ (s : State), ∃ (t : Nat), ∃ c, (c ∈ [(Instr.bistRunComplete [], 2), (.bistAbort, 3)]) ∧ (s.dev.on = true) ∧ (s.dev.rel.bistRun =
    some t) ∧ ((c.2 = 3 → s.dev.ringsOn = true))) ∧
    (∃ (s : State), (s.dev.ringsOn = true) ∧ (s.dev.rel.bistRun = none)) := by
  refine ⟨⟨State.reset, midMGT, 15,
      by repeat' first | exact rfl | decide +kernel | refine And.intro ?_ ?_⟩,
    ⟨wit id [(fTs, tsArmed)], midMGT, 15,
      by repeat' first | exact rfl | decide +kernel | refine And.intro ?_ ?_⟩,
    ⟨wit (fun d => d.setBytes 0 [5] |>.onRel (fun r => { r with bistRun := some 15 })) [], 15, (Instr.bistRunComplete [], 2),
      by repeat' first | exact rfl | decide +kernel | refine And.intro ?_ ?_⟩,
    ⟨State.reset,
      by repeat' first | exact rfl | decide +kernel | refine And.intro ?_ ?_⟩⟩

theorem witness_FusesAndShadow :
    (∃ (s : State), ∃ (mid : Nat), ∃ c, (c ∈ [(Instr.burnData mid, 1), (.burnValid mid, 2), (.shadowAppend mid, 3), (.shadowErase mid,
    4), (.fuseRead mid, 5)]) ∧ (s.dev.ringsOn = true) ∧ (s.dev.ownerMay mid R.FUS_CMD) ∧ (s.dev.fld F.FUS_STATUS_BUSY = 0) ∧ ((c.2 =
    1 → s.dev.fuse (s.dev.fld F.FUS_ADDR_WORD) = 0)) ∧ ((c.2 = 2 → (s.dev.fuse (s.dev.fld F.FUS_ADDR_WORD)).toNat % 2 ^ 31 =
    (s.dev.reg R.FUS_DATA).toNat % 2 ^ 31)) ∧ ((c.2 = 3 → s.dev.freeShadow.isSome = true))) ∧
    (∃ (s : State), ∃ (mid : Nat), (s.dev.ringsOn = true) ∧ (s.dev.ownerMay mid R.FUS_CMD) ∧ (s.dev.fld F.FUS_STATUS_BUSY = 0) ∧
    (s.dev.fuse (s.dev.fld F.FUS_ADDR_WORD) ≠ 0)) ∧
    (∃ (s : State), (s.dev.on = true) ∧ (s.dev.rel.fuseCmd = 1)) ∧
    (∃ (s : State), ∃ (i : Nat), (s.dev.on = true) ∧ (s.dev.rel.fuseCmd = 3) ∧ (s.dev.freeShadow = some i)) ∧
    (∃ (s : State), (s.dev.on = true) ∧ (s.dev.rel.fuseCmd = 4)) := by
  refine ⟨⟨wit (fun d => (d.setReg R.FUS_DATA 5).onRel (fun r => { r with fuses := [(127, 5)] })) [(F.FUS_ADDR_WORD, 127)], midMGT,
    (Instr.burnValid midMGT, 2),
      by repeat' first | exact rfl | decide +kernel | refine And.intro ?_ ?_⟩,
    ⟨wit (fun d => d.onRel (fun r => { r with fuses := [(127, 5)] })) [(F.FUS_ADDR_WORD, 127)], midMGT,
      by repeat' first | exact rfl | decide +kernel | refine And.intro ?_ ?_⟩,
    ⟨wit (fun d => d.onRel (fun r => { r with fuseCmd := 1, fuseWord := 127, fuseData := 0xFFFFFFFF })) [(F.FUS_STATUS_BUSY, 1)],
      by repeat' first | exact rfl | decide +kernel | refine And.intro ?_ ?_⟩,
    ⟨wit (fun d => d.onRel (fun r => { r with fuseCmd := 3, fuseData := 5 })) [(F.FUS_STATUS_BUSY, 1)], 0,
      by repeat' first | exact rfl | decide +kernel | refine And.intro ?_ ?_⟩,
    ⟨wit (fun d => { d.onRel (fun r => { r with fuseCmd := 4, fuseData := 5 }) with flash := [(0xEFFFF, 1), (0xF0000, 1)] })
    [(F.FUS_STATUS_BUSY, 1)],
      by repeat' first | exact rfl | decide +kernel | refine And.intro ?_ ?_⟩⟩

theorem witness_RepairsAreRecorded :
    (∃ (s : State), ∃ (w : Word), ∃ (t : List Word), (s.dev.on = true) ∧ (s.dev.rel.toRecord = w :: t) ∧ (s.dev.fld
    F.FUS_REPAIR_CFG_AUTO = 0)) ∧
    (∃ (s : State), ∃ (w : Word), ∃ (t : List Word), ∃ i, (s.dev.on = true) ∧ (s.dev.rel.toRecord = w :: t) ∧ (s.dev.fld
    F.FUS_REPAIR_CFG_AUTO = 1) ∧ (s.dev.shadowWords.contains w = false) ∧ (s.dev.freeShadow = some i)) := by
  refine ⟨⟨wit (fun d => d.onRel (fun r => { r with toRecord := [repairWord 2 1 2 0] })) [(F.FUS_REPAIR_CFG_AUTO, 0)], repairWord 2 1 2 0, [],
      by repeat' first | exact rfl | decide +kernel | refine And.intro ?_ ?_⟩,
    ⟨wit (fun d => d.onRel (fun r => { r with toRecord := [repairWord 2 1 2 0] })) [(F.FUS_REPAIR_CFG_AUTO, 1)], repairWord 2 1 2 0, [],
    0,
      by repeat' first | exact rfl | decide +kernel | refine And.intro ?_ ?_⟩⟩

theorem witness_RollingTestSwaps :
    (∃ (s : State), ∃ (pgb : Nat), (s.dev.ringsOn = true) ∧ ((s.dev.rollOf pgb).phase = 1)) ∧
    (∃ (s : State), ∃ (pgb : Nat), ∃ (gb : Nat), ∃ (r : Roll), (s.dev.on = true) ∧ (s.dev.rollOf pgb = r) ∧ (r.phase = 3) ∧
    (s.dev.rel.grant = pgb + 1) ∧ (s.dev.beamOn pgb = some gb)) ∧
    (∃ (s : State), ∃ (pgb : Nat), ∃ (r : Roll), (s.dev.on = true) ∧ (s.dev.rollOf pgb = r) ∧ (r.phase = 6) ∧ (s.dev.slotUsable pgb r.ph
    = true) ∧ (s.dev.fld F.BST_CFG_ROLL_EN = 0)) := by
  refine ⟨⟨wit (fun d => d.onRel (fun r => { r with roll := [(127, ⟨1, 0, 64, 0⟩)] })) [], 127,
      by repeat' first | exact rfl | decide +kernel | refine And.intro ?_ ?_⟩,
    ⟨wRun [] (fun l => { l with spare := [(64, true)], phase := .none }) [] |>.ofDev (fun d => d.onRel (fun r =>
    { r with grant := 1, roll := [(0, ⟨3, 0, 64, 0⟩)] })), 0, 0, ⟨3, 0, 64, 0⟩,
      by repeat' first | exact rfl | decide +kernel | refine And.intro ?_ ?_⟩,
    ⟨wit (fun d => d.onRel (fun r => { r with roll := [(127, ⟨6, 0, 65, 1⟩)] })) [(F.BST_CFG_ROLL_EN, 0)], 127, ⟨6, 0, 65, 1⟩,
      by repeat' first | exact rfl | decide +kernel | refine And.intro ?_ ?_⟩⟩

theorem witness_ReplaceEnds :
    (∃ (s : State), ∃ (x : Bool), ∃ (hn : Nat), ∃ (hits : List Hit), ∃ (d : Dev), ∃ (d1 : Dev), ∃ (d2 : Dev), ∃ (l : Loom), ∃ (h : Nat),
    ∃ (k : Nat), ∃ (p : Nat), (s.dev.ringsOn = true) ∧ (d = s.dev.hitAll hits) ∧ (s.dev.ldr.replace = some (x, hn)) ∧ (s.dev.ldr.bay
    = none) ∧ (d1 = d.onRel (fun r =>
    { r.mark (repairWord 2 (d.loom.pgb (hn / 64)) (d.loom.ph hn) 0) with toRecord := r.toRecord ++ [repairWord 2 (d.loom.pgb (hn / 64)) (d.loom.ph hn) 0] }))
    ∧ (d1.fits d1.loom (hn / 64) (d1.loom.pgb (hn / 64)) = true) ∧ (l = d1.placeBeam d1.loom (hn / 64) (d1.loom.pgb (hn / 64))) ∧
    ((d1.addFld F.BST_BAD_CNT_BAD (d1.rel.slotsBad - d.rel.slotsBad)).rebuildMoved (hn / 64) l = some d2) ∧ (d.panelUp (d.loom.pgb
    (hn / 64) / 32) = true) ∧ (d.fld F.FUS_REPAIR_CFG_RESTART = 0) ∧ (h < 64) ∧ (k < 33) ∧ (p < 2048)) :=
  ⟨wLdr (fun d => (d.onLoom (fun l => { l with need := [(0, 1)] })).onLdr (fun r =>
    { r with cache := some img0, replace := some (false, 0) })) [(fTs, tsHalted), (F.FUS_REPAIR_CFG_RESTART, 0)], false, 0, [.shed 0
    3 0 70], (wLdr (fun d => (d.onLoom (fun l => { l with need := [(0, 1)] })).onLdr (fun r =>
    { r with cache := some img0, replace := some (false, 0) })) [(fTs, tsHalted), (F.FUS_REPAIR_CFG_RESTART, 0)]).dev.hitAll ([.shed
    0 3 0 70]), ((wLdr (fun d => (d.onLoom (fun l => { l with need := [(0, 1)] })).onLdr (fun r =>
    { r with cache := some img0, replace := some (false, 0) })) [(fTs, tsHalted), (F.FUS_REPAIR_CFG_RESTART, 0)]).dev.hitAll ([.shed
    0 3 0 70])).onRel (fun r =>
    { r.mark (repairWord 2 (((wLdr (fun d => (d.onLoom (fun l => { l with need := [(0, 1)] })).onLdr (fun r => { r with cache := some img0, replace := some (false, 0) })) [(fTs, tsHalted), (F.FUS_REPAIR_CFG_RESTART, 0)]).dev.hitAll ([.shed 0 3 0 70])).loom.pgb (0 / 64)) (((wLdr (fun d => (d.onLoom (fun l => { l with need := [(0, 1)] })).onLdr (fun r => { r with cache := some img0, replace := some (false, 0) })) [(fTs, tsHalted), (F.FUS_REPAIR_CFG_RESTART, 0)]).dev.hitAll ([.shed 0 3 0 70])).loom.ph 0) 0) with toRecord := r.toRecord ++ [repairWord 2 (((wLdr (fun d => (d.onLoom (fun l => { l with need := [(0, 1)] })).onLdr (fun r => { r with cache := some img0, replace := some (false, 0) })) [(fTs, tsHalted), (F.FUS_REPAIR_CFG_RESTART, 0)]).dev.hitAll ([.shed 0 3 0 70])).loom.pgb (0 / 64)) (((wLdr (fun d => (d.onLoom (fun l => { l with need := [(0, 1)] })).onLdr (fun r => { r with cache := some img0, replace := some (false, 0) })) [(fTs, tsHalted), (F.FUS_REPAIR_CFG_RESTART, 0)]).dev.hitAll ([.shed 0 3 0 70])).loom.ph 0) 0] }),
    (((((wLdr (fun d => (d.onLoom (fun l => { l with need := [(0, 1)] })).onLdr (fun r =>
    { r with cache := some img0, replace := some (false, 0) })) [(fTs, tsHalted), (F.FUS_REPAIR_CFG_RESTART, 0)]).dev.hitAll ([.shed
    0 3 0 70])).onRel (fun r =>
    { r.mark (repairWord 2 (((wLdr (fun d => (d.onLoom (fun l => { l with need := [(0, 1)] })).onLdr (fun r => { r with cache := some img0, replace := some (false, 0) })) [(fTs, tsHalted), (F.FUS_REPAIR_CFG_RESTART, 0)]).dev.hitAll ([.shed 0 3 0 70])).loom.pgb (0 / 64)) (((wLdr (fun d => (d.onLoom (fun l => { l with need := [(0, 1)] })).onLdr (fun r => { r with cache := some img0, replace := some (false, 0) })) [(fTs, tsHalted), (F.FUS_REPAIR_CFG_RESTART, 0)]).dev.hitAll ([.shed 0 3 0 70])).loom.ph 0) 0) with toRecord := r.toRecord ++ [repairWord 2 (((wLdr (fun d => (d.onLoom (fun l => { l with need := [(0, 1)] })).onLdr (fun r => { r with cache := some img0, replace := some (false, 0) })) [(fTs, tsHalted), (F.FUS_REPAIR_CFG_RESTART, 0)]).dev.hitAll ([.shed 0 3 0 70])).loom.pgb (0 / 64)) (((wLdr (fun d => (d.onLoom (fun l => { l with need := [(0, 1)] })).onLdr (fun r => { r with cache := some img0, replace := some (false, 0) })) [(fTs, tsHalted), (F.FUS_REPAIR_CFG_RESTART, 0)]).dev.hitAll ([.shed 0 3 0 70])).loom.ph 0) 0] })).addFld
    F.BST_BAD_CNT_BAD ((((wLdr (fun d => (d.onLoom (fun l => { l with need := [(0, 1)] })).onLdr (fun r =>
    { r with cache := some img0, replace := some (false, 0) })) [(fTs, tsHalted), (F.FUS_REPAIR_CFG_RESTART, 0)]).dev.hitAll ([.shed
    0 3 0 70])).onRel (fun r =>
    { r.mark (repairWord 2 (((wLdr (fun d => (d.onLoom (fun l => { l with need := [(0, 1)] })).onLdr (fun r => { r with cache := some img0, replace := some (false, 0) })) [(fTs, tsHalted), (F.FUS_REPAIR_CFG_RESTART, 0)]).dev.hitAll ([.shed 0 3 0 70])).loom.pgb (0 / 64)) (((wLdr (fun d => (d.onLoom (fun l => { l with need := [(0, 1)] })).onLdr (fun r => { r with cache := some img0, replace := some (false, 0) })) [(fTs, tsHalted), (F.FUS_REPAIR_CFG_RESTART, 0)]).dev.hitAll ([.shed 0 3 0 70])).loom.ph 0) 0) with toRecord := r.toRecord ++ [repairWord 2 (((wLdr (fun d => (d.onLoom (fun l => { l with need := [(0, 1)] })).onLdr (fun r => { r with cache := some img0, replace := some (false, 0) })) [(fTs, tsHalted), (F.FUS_REPAIR_CFG_RESTART, 0)]).dev.hitAll ([.shed 0 3 0 70])).loom.pgb (0 / 64)) (((wLdr (fun d => (d.onLoom (fun l => { l with need := [(0, 1)] })).onLdr (fun r => { r with cache := some img0, replace := some (false, 0) })) [(fTs, tsHalted), (F.FUS_REPAIR_CFG_RESTART, 0)]).dev.hitAll ([.shed 0 3 0 70])).loom.ph 0) 0] })).rel.slotsBad
    - ((wLdr (fun d => (d.onLoom (fun l => { l with need := [(0, 1)] })).onLdr (fun r =>
    { r with cache := some img0, replace := some (false, 0) })) [(fTs, tsHalted), (F.FUS_REPAIR_CFG_RESTART, 0)]).dev.hitAll ([.shed
    0 3 0 70])).rel.slotsBad)).rebuildMoved (0 / 64) ((((wLdr (fun d => (d.onLoom (fun l => { l with need := [(0, 1)] })).onLdr (fun
    r => { r with cache := some img0, replace := some (false, 0) })) [(fTs, tsHalted), (F.FUS_REPAIR_CFG_RESTART, 0)]).dev.hitAll
    ([.shed 0 3 0 70])).onRel (fun r =>
    { r.mark (repairWord 2 (((wLdr (fun d => (d.onLoom (fun l => { l with need := [(0, 1)] })).onLdr (fun r => { r with cache := some img0, replace := some (false, 0) })) [(fTs, tsHalted), (F.FUS_REPAIR_CFG_RESTART, 0)]).dev.hitAll ([.shed 0 3 0 70])).loom.pgb (0 / 64)) (((wLdr (fun d => (d.onLoom (fun l => { l with need := [(0, 1)] })).onLdr (fun r => { r with cache := some img0, replace := some (false, 0) })) [(fTs, tsHalted), (F.FUS_REPAIR_CFG_RESTART, 0)]).dev.hitAll ([.shed 0 3 0 70])).loom.ph 0) 0) with toRecord := r.toRecord ++ [repairWord 2 (((wLdr (fun d => (d.onLoom (fun l => { l with need := [(0, 1)] })).onLdr (fun r => { r with cache := some img0, replace := some (false, 0) })) [(fTs, tsHalted), (F.FUS_REPAIR_CFG_RESTART, 0)]).dev.hitAll ([.shed 0 3 0 70])).loom.pgb (0 / 64)) (((wLdr (fun d => (d.onLoom (fun l => { l with need := [(0, 1)] })).onLdr (fun r => { r with cache := some img0, replace := some (false, 0) })) [(fTs, tsHalted), (F.FUS_REPAIR_CFG_RESTART, 0)]).dev.hitAll ([.shed 0 3 0 70])).loom.ph 0) 0] })).placeBeam
    (((wLdr (fun d => (d.onLoom (fun l => { l with need := [(0, 1)] })).onLdr (fun r =>
    { r with cache := some img0, replace := some (false, 0) })) [(fTs, tsHalted), (F.FUS_REPAIR_CFG_RESTART, 0)]).dev.hitAll ([.shed
    0 3 0 70])).onRel (fun r =>
    { r.mark (repairWord 2 (((wLdr (fun d => (d.onLoom (fun l => { l with need := [(0, 1)] })).onLdr (fun r => { r with cache := some img0, replace := some (false, 0) })) [(fTs, tsHalted), (F.FUS_REPAIR_CFG_RESTART, 0)]).dev.hitAll ([.shed 0 3 0 70])).loom.pgb (0 / 64)) (((wLdr (fun d => (d.onLoom (fun l => { l with need := [(0, 1)] })).onLdr (fun r => { r with cache := some img0, replace := some (false, 0) })) [(fTs, tsHalted), (F.FUS_REPAIR_CFG_RESTART, 0)]).dev.hitAll ([.shed 0 3 0 70])).loom.ph 0) 0) with toRecord := r.toRecord ++ [repairWord 2 (((wLdr (fun d => (d.onLoom (fun l => { l with need := [(0, 1)] })).onLdr (fun r => { r with cache := some img0, replace := some (false, 0) })) [(fTs, tsHalted), (F.FUS_REPAIR_CFG_RESTART, 0)]).dev.hitAll ([.shed 0 3 0 70])).loom.pgb (0 / 64)) (((wLdr (fun d => (d.onLoom (fun l => { l with need := [(0, 1)] })).onLdr (fun r => { r with cache := some img0, replace := some (false, 0) })) [(fTs, tsHalted), (F.FUS_REPAIR_CFG_RESTART, 0)]).dev.hitAll ([.shed 0 3 0 70])).loom.ph 0) 0] })).loom
    (0 / 64) ((((wLdr (fun d => (d.onLoom (fun l => { l with need := [(0, 1)] })).onLdr (fun r =>
    { r with cache := some img0, replace := some (false, 0) })) [(fTs, tsHalted), (F.FUS_REPAIR_CFG_RESTART, 0)]).dev.hitAll ([.shed
    0 3 0 70])).onRel (fun r =>
    { r.mark (repairWord 2 (((wLdr (fun d => (d.onLoom (fun l => { l with need := [(0, 1)] })).onLdr (fun r => { r with cache := some img0, replace := some (false, 0) })) [(fTs, tsHalted), (F.FUS_REPAIR_CFG_RESTART, 0)]).dev.hitAll ([.shed 0 3 0 70])).loom.pgb (0 / 64)) (((wLdr (fun d => (d.onLoom (fun l => { l with need := [(0, 1)] })).onLdr (fun r => { r with cache := some img0, replace := some (false, 0) })) [(fTs, tsHalted), (F.FUS_REPAIR_CFG_RESTART, 0)]).dev.hitAll ([.shed 0 3 0 70])).loom.ph 0) 0) with toRecord := r.toRecord ++ [repairWord 2 (((wLdr (fun d => (d.onLoom (fun l => { l with need := [(0, 1)] })).onLdr (fun r => { r with cache := some img0, replace := some (false, 0) })) [(fTs, tsHalted), (F.FUS_REPAIR_CFG_RESTART, 0)]).dev.hitAll ([.shed 0 3 0 70])).loom.pgb (0 / 64)) (((wLdr (fun d => (d.onLoom (fun l => { l with need := [(0, 1)] })).onLdr (fun r => { r with cache := some img0, replace := some (false, 0) })) [(fTs, tsHalted), (F.FUS_REPAIR_CFG_RESTART, 0)]).dev.hitAll ([.shed 0 3 0 70])).loom.ph 0) 0] })).loom.pgb
    (0 / 64)))).getD (((wLdr (fun d => (d.onLoom (fun l => { l with need := [(0, 1)] })).onLdr (fun r =>
    { r with cache := some img0, replace := some (false, 0) })) [(fTs, tsHalted), (F.FUS_REPAIR_CFG_RESTART, 0)]).dev.hitAll ([.shed
    0 3 0 70])).onRel (fun r =>
    { r.mark (repairWord 2 (((wLdr (fun d => (d.onLoom (fun l => { l with need := [(0, 1)] })).onLdr (fun r => { r with cache := some img0, replace := some (false, 0) })) [(fTs, tsHalted), (F.FUS_REPAIR_CFG_RESTART, 0)]).dev.hitAll ([.shed 0 3 0 70])).loom.pgb (0 / 64)) (((wLdr (fun d => (d.onLoom (fun l => { l with need := [(0, 1)] })).onLdr (fun r => { r with cache := some img0, replace := some (false, 0) })) [(fTs, tsHalted), (F.FUS_REPAIR_CFG_RESTART, 0)]).dev.hitAll ([.shed 0 3 0 70])).loom.ph 0) 0) with toRecord := r.toRecord ++ [repairWord 2 (((wLdr (fun d => (d.onLoom (fun l => { l with need := [(0, 1)] })).onLdr (fun r => { r with cache := some img0, replace := some (false, 0) })) [(fTs, tsHalted), (F.FUS_REPAIR_CFG_RESTART, 0)]).dev.hitAll ([.shed 0 3 0 70])).loom.pgb (0 / 64)) (((wLdr (fun d => (d.onLoom (fun l => { l with need := [(0, 1)] })).onLdr (fun r => { r with cache := some img0, replace := some (false, 0) })) [(fTs, tsHalted), (F.FUS_REPAIR_CFG_RESTART, 0)]).dev.hitAll ([.shed 0 3 0 70])).loom.ph 0) 0] })),
    (((wLdr (fun d => (d.onLoom (fun l => { l with need := [(0, 1)] })).onLdr (fun r =>
    { r with cache := some img0, replace := some (false, 0) })) [(fTs, tsHalted), (F.FUS_REPAIR_CFG_RESTART, 0)]).dev.hitAll ([.shed
    0 3 0 70])).onRel (fun r =>
    { r.mark (repairWord 2 (((wLdr (fun d => (d.onLoom (fun l => { l with need := [(0, 1)] })).onLdr (fun r => { r with cache := some img0, replace := some (false, 0) })) [(fTs, tsHalted), (F.FUS_REPAIR_CFG_RESTART, 0)]).dev.hitAll ([.shed 0 3 0 70])).loom.pgb (0 / 64)) (((wLdr (fun d => (d.onLoom (fun l => { l with need := [(0, 1)] })).onLdr (fun r => { r with cache := some img0, replace := some (false, 0) })) [(fTs, tsHalted), (F.FUS_REPAIR_CFG_RESTART, 0)]).dev.hitAll ([.shed 0 3 0 70])).loom.ph 0) 0) with toRecord := r.toRecord ++ [repairWord 2 (((wLdr (fun d => (d.onLoom (fun l => { l with need := [(0, 1)] })).onLdr (fun r => { r with cache := some img0, replace := some (false, 0) })) [(fTs, tsHalted), (F.FUS_REPAIR_CFG_RESTART, 0)]).dev.hitAll ([.shed 0 3 0 70])).loom.pgb (0 / 64)) (((wLdr (fun d => (d.onLoom (fun l => { l with need := [(0, 1)] })).onLdr (fun r => { r with cache := some img0, replace := some (false, 0) })) [(fTs, tsHalted), (F.FUS_REPAIR_CFG_RESTART, 0)]).dev.hitAll ([.shed 0 3 0 70])).loom.ph 0) 0] })).placeBeam
    (((wLdr (fun d => (d.onLoom (fun l => { l with need := [(0, 1)] })).onLdr (fun r =>
    { r with cache := some img0, replace := some (false, 0) })) [(fTs, tsHalted), (F.FUS_REPAIR_CFG_RESTART, 0)]).dev.hitAll ([.shed
    0 3 0 70])).onRel (fun r =>
    { r.mark (repairWord 2 (((wLdr (fun d => (d.onLoom (fun l => { l with need := [(0, 1)] })).onLdr (fun r => { r with cache := some img0, replace := some (false, 0) })) [(fTs, tsHalted), (F.FUS_REPAIR_CFG_RESTART, 0)]).dev.hitAll ([.shed 0 3 0 70])).loom.pgb (0 / 64)) (((wLdr (fun d => (d.onLoom (fun l => { l with need := [(0, 1)] })).onLdr (fun r => { r with cache := some img0, replace := some (false, 0) })) [(fTs, tsHalted), (F.FUS_REPAIR_CFG_RESTART, 0)]).dev.hitAll ([.shed 0 3 0 70])).loom.ph 0) 0) with toRecord := r.toRecord ++ [repairWord 2 (((wLdr (fun d => (d.onLoom (fun l => { l with need := [(0, 1)] })).onLdr (fun r => { r with cache := some img0, replace := some (false, 0) })) [(fTs, tsHalted), (F.FUS_REPAIR_CFG_RESTART, 0)]).dev.hitAll ([.shed 0 3 0 70])).loom.pgb (0 / 64)) (((wLdr (fun d => (d.onLoom (fun l => { l with need := [(0, 1)] })).onLdr (fun r => { r with cache := some img0, replace := some (false, 0) })) [(fTs, tsHalted), (F.FUS_REPAIR_CFG_RESTART, 0)]).dev.hitAll ([.shed 0 3 0 70])).loom.ph 0) 0] })).loom
    (0 / 64) ((((wLdr (fun d => (d.onLoom (fun l => { l with need := [(0, 1)] })).onLdr (fun r =>
    { r with cache := some img0, replace := some (false, 0) })) [(fTs, tsHalted), (F.FUS_REPAIR_CFG_RESTART, 0)]).dev.hitAll ([.shed
    0 3 0 70])).onRel (fun r =>
    { r.mark (repairWord 2 (((wLdr (fun d => (d.onLoom (fun l => { l with need := [(0, 1)] })).onLdr (fun r => { r with cache := some img0, replace := some (false, 0) })) [(fTs, tsHalted), (F.FUS_REPAIR_CFG_RESTART, 0)]).dev.hitAll ([.shed 0 3 0 70])).loom.pgb (0 / 64)) (((wLdr (fun d => (d.onLoom (fun l => { l with need := [(0, 1)] })).onLdr (fun r => { r with cache := some img0, replace := some (false, 0) })) [(fTs, tsHalted), (F.FUS_REPAIR_CFG_RESTART, 0)]).dev.hitAll ([.shed 0 3 0 70])).loom.ph 0) 0) with toRecord := r.toRecord ++ [repairWord 2 (((wLdr (fun d => (d.onLoom (fun l => { l with need := [(0, 1)] })).onLdr (fun r => { r with cache := some img0, replace := some (false, 0) })) [(fTs, tsHalted), (F.FUS_REPAIR_CFG_RESTART, 0)]).dev.hitAll ([.shed 0 3 0 70])).loom.pgb (0 / 64)) (((wLdr (fun d => (d.onLoom (fun l => { l with need := [(0, 1)] })).onLdr (fun r => { r with cache := some img0, replace := some (false, 0) })) [(fTs, tsHalted), (F.FUS_REPAIR_CFG_RESTART, 0)]).dev.hitAll ([.shed 0 3 0 70])).loom.ph 0) 0] })).loom.pgb
    (0 / 64)), 0, 32, 63,
      by repeat' first | exact rfl | decide +kernel | refine And.intro ?_ ?_⟩

theorem witness_ScrubAndRefresh :
    (∃ (s : State), ∃ (stack : Nat), (s.dev.on = true) ∧ (stack < 8)) ∧
    (∃ (s : State), ∃ (a : Nat), (s.dev.on = true) ∧ (s.dev.fld F.HBM_SCRUB_CFG_PERIOD ≠ 0) ∧ (a < hbmEnd) ∧ (s.dev.memCheck (a / 32 *
    32) = .clean 0)) ∧
    (∃ (s : State), ∃ (a : Nat), (s.dev.on = true) ∧ (s.dev.fld F.ECC_SCRUB_CFG_PERIOD ≠ 0) ∧ (beamMemBase ≤ a) ∧ (s.dev.memCheck a =
    .clean 0)) ∧
    (∃ (s : State), (s.dev.on = true)) ∧
    (∃ (s : State), ∃ (cls : Nat), ∃ (a : Nat), (s.dev.on = true) ∧ ((tmtRegion cls a).isSome = true) ∧ ((s.dev.fld
    F.BST_TMT_CFG_CLASS).testBit cls = true) ∧ (s.dev.fld F.BST_TMT_CFG_RATE ≠ 0)) := by
  refine ⟨⟨State.reset, 7,
      by repeat' first | exact rfl | decide +kernel | refine And.intro ?_ ?_⟩,
    ⟨wit id [(F.HBM_SCRUB_CFG_PERIOD, 1)], hbmEnd - 1,
      by repeat' first | exact rfl | decide +kernel | refine And.intro ?_ ?_⟩,
    ⟨wit id [(F.ECC_SCRUB_CFG_PERIOD, 1)], beamMemBase,
      by repeat' first | exact rfl | decide +kernel | refine And.intro ?_ ?_⟩,
    ⟨State.reset,
      by repeat' first | exact rfl | decide +kernel | refine And.intro ?_ ?_⟩,
    ⟨wit id [(F.BST_TMT_CFG_CLASS, 8), (F.BST_TMT_CFG_RATE, 1)], 3, clusterBase,
      by repeat' first | exact rfl | decide +kernel | refine And.intro ?_ ?_⟩⟩

theorem witness_InjectionFlipsBits :
    (∃ (s : State), ∃ (mid : Nat), ∃ (hn : Nat), ∃ (st : Nat), ∃ (p : Nat), ∃ (a : Nat), ∃ (b : Nat), (s.dev.ringsOn = true) ∧
    (s.dev.ownerMay mid R.ECC_INJ_CMD) ∧ (s.dev.unlocked = true) ∧ (hn = hnOf (s.dev.fld F.ECC_INJ_POS_GB) (s.dev.fld
    F.ECC_INJ_POS_HARNESS)) ∧ (st = s.dev.fld F.ECC_INJ_POS_STREAM) ∧ (p = s.dev.fld F.ECC_INJ_POS_PICK) ∧ (s.dev.loom.mapped hn =
    true) ∧ (st ≤ 32) ∧ (p < s.dev.depth) ∧ (s.dev.fld F.ECC_INJ_BITS_EN0 = 1) ∧ (s.dev.fld F.ECC_INJ_BITS_EN1 = 1) ∧ (a = s.dev.fld
    F.ECC_INJ_BITS_BIT0) ∧ (b = s.dev.fld F.ECC_INJ_BITS_BIT1) ∧ (a < 80) ∧ (b < 80)) :=
  ⟨wRun [] id [(F.MGT_LOCK_UNLOCK, 1), (F.ECC_INJ_POS_STREAM, 32), (F.ECC_INJ_POS_PICK, 63), (F.ECC_INJ_BITS_EN0, 1),
    (F.ECC_INJ_BITS_EN1, 1), (F.ECC_INJ_BITS_BIT0, 79)], midMGT, 0, 32, 63, 79, 0,
      by repeat' first | exact rfl | decide +kernel | refine And.intro ?_ ?_⟩

theorem witness_LogIsWrittenAndCleared :
    (∃ (s : State), ∃ (x : LogWord), ∃ (t : List LogWord), (s.dev.aonOn = true) ∧ (s.dev.log.queue = x :: t) ∧ (s.dev.logFull = false) ∧
    (s.dev.eth.subs = []) ∧ ((∀ i < 64, s.dev.trigEn i trLOG = false))) ∧
    (∃ (s : State), ∃ (mid : Nat), (s.dev.on = true) ∧ (s.dev.ownerMay mid R.LOG_CTL)) := by
  refine ⟨⟨wAon (fun d => { d with log := ⟨[], [5], false⟩ }) [(F.LOG_STATUS_IDX, 4095)], 5, [],
      by repeat' first | exact rfl | decide +kernel | refine And.intro ?_ ?_⟩,
    ⟨wit (fun d => { d with log := ⟨[(4095, 5)], [7], false⟩ }) [(F.LOG_STATUS_IDX, 4095)], midMGT,
      by repeat' first | exact rfl | decide +kernel | refine And.intro ?_ ?_⟩⟩

theorem witness_LanesTrain_1 :
    (∃ (s : State), ∃ (ph : Nat), (s.dev.on = true) ∧ (ph < 144) ∧ (s.dev.laneEn ph = true) ∧ (s.dev.lanePwr ph < 2) ∧ ((s.dev.lane
    ph).rxWaits = false)) ∧
    (∃ (s : State), ∃ (ph : Nat), (s.dev.on = true) ∧ (ph < 144) ∧ (s.dev.laneEn ph = true) ∧ ((s.dev.lane ph).rxWaits = true)) ∧
    (∃ (s : State), ∃ (ph : Nat), (s.dev.on = true) ∧ (ph < 144) ∧ (s.dev.laneEn ph = false)) ∧
    (∃ (s : State), ∃ (ph : Nat), (s.dev.on = true) ∧ (ph < 144) ∧ (s.dev.laneState ph = lnUp) ∧ (s.dev.lanePwr ph < 2) ∧ ((128 ≤ ph →
    s.dev.linkUp ((ph - 128) / 4) = false))) ∧
    (∃ (s : State), ∃ (ph : Nat), ∃ (t : Train), (s.dev.on = true) ∧ (ph < 144) ∧ (s.dev.laneState ph = lnTraining) ∧ ((s.dev.lane
    ph).lock = true) ∧ (t.req % 128 = 0) ∧ ((s.dev.lane ph).phase = 0) ∧ (t.rate = (s.dev.lane ph).rate)) ∧
    (∃ (s : State), ∃ (ph : Nat), ∃ (t : Train), (s.dev.on = true) ∧ (ph < 144) ∧ (s.dev.laneState ph = lnTraining) ∧ ((s.dev.lane
    ph).lock = true) ∧ (t.req % 128 = 0) ∧ (t.phase = 2) ∧ ((s.dev.lane ph).phase = 2) ∧ ((s.dev.lane ph).phase2 = 15)) := by
  refine ⟨⟨wLink 4 (fun x => x) [(F.WFT_LINK_CFG_EN.at 0, 1)], 128,
      by repeat' first | exact rfl | decide +kernel | refine And.intro ?_ ?_⟩,
    ⟨wLane 127 lnUp (fun x => { x with rxWaits := true }) [(F.WRP_LANE_CFG_EN.at 127, 1), (F.WRP_LANE_STATUS_PWR.at 127, 3)], 127,
      by repeat' first | exact rfl | decide +kernel | refine And.intro ?_ ?_⟩,
    ⟨State.reset, 143,
      by repeat' first | exact rfl | decide +kernel | refine And.intro ?_ ?_⟩,
    ⟨wLane 143 lnUp (fun x => { x with lock := true }) [], 143,
      by repeat' first | exact rfl | decide +kernel | refine And.intro ?_ ?_⟩,
    ⟨wLane 127 lnTraining (fun x => { x with lock := true, rate := 1 }) [], 127, ⟨0, 0, 3, 1, 2, 5, 1⟩,
      by repeat' first | exact rfl | decide +kernel | refine And.intro ?_ ?_⟩,
    ⟨wLane 127 lnTraining (fun x => { x with lock := true, phase := 2, phase2 := 15, txq := [frame 3] }) [], 127, ⟨2, 0, 3, 1, 2, 5, 0⟩,
      by repeat' first | exact rfl | decide +kernel | refine And.intro ?_ ?_⟩⟩

theorem witness_LanesTrain_2 :
    (∃ (s : State), ∃ (ph : Nat), ∃ (t : Train), (s.dev.on = true) ∧ (ph < 144) ∧ (s.dev.laneState ph = lnRetrain) ∧ ((s.dev.lane
    ph).lock = true) ∧ (t.req % 128 = 0) ∧ (t.phase = 2) ∧ ((s.dev.lane ph).phase2 = 15)) ∧
    (∃ (s : State), ∃ (ph : Nat), ∃ (t : Train), (s.dev.on = true) ∧ (ph < 144) ∧ (s.dev.laneState ph = lnRetrain) ∧ ((s.dev.lane
    ph).lock = true) ∧ (t.req % 128 = 0)) ∧
    (∃ (s : State), ∃ (ph : Nat), ∃ (t : Train), ∃ (p : Nat), (s.dev.on = true) ∧ (ph < 144) ∧ (s.dev.laneState ph = lnTraining) ∧
    ((s.dev.lane ph).lock = false) ∧ ((s.dev.lane ph).resp = 0) ∧ (p < 5) ∧ (t.req = 16 * (p + 1))) ∧
    (∃ (s : State), ∃ (ph : Nat), (s.dev.on = true) ∧ (ph < 144) ∧ (s.dev.laneState ph = lnTraining)) ∧
    (∃ (s : State), ∃ (ph : Nat), ∃ c, (c ∈ [(lnDown, Instr.trainingRetryTimer ph), (lnRetrain, .fastRetrainTimeout ph)]) ∧ (s.dev.on =
    true) ∧ (ph < 144) ∧ (s.dev.laneEn ph = true) ∧ (s.dev.fld F.PWR_STATUS_DEV = 0) ∧ (s.dev.plat.txIdle = false) ∧ ((128 ≤ ph →
    s.dev.linkState ((ph - 128) / 4) ≠ 1)) ∧ (s.dev.laneState ph = c.1)) := by
  refine ⟨⟨wLane 128 lnRetrain (fun x => { x with lock := true, phase2 := 15, txq := [frame 3] }) [], 128, ⟨2, 0, 3, 1, 2, 5, 0⟩,
      by repeat' first | exact rfl | decide +kernel | refine And.intro ?_ ?_⟩,
    ⟨wLane 127 lnRetrain (fun x => { x with lock := true, txq := [frame 3] }) [], 127, ⟨1, 0, 3, 1, 2, 5, 0⟩,
      by repeat' first | exact rfl | decide +kernel | refine And.intro ?_ ?_⟩,
    ⟨wLane 127 lnTraining (fun x => x) [], 127, ⟨0, 80, 3, 1, 2, 5, 0⟩, 4,
      by repeat' first | exact rfl | decide +kernel | refine And.intro ?_ ?_⟩,
    ⟨wLane 127 lnTraining (fun x => { x with phase := 1 }) [], 127,
      by repeat' first | exact rfl | decide +kernel | refine And.intro ?_ ?_⟩,
    ⟨wLane 127 lnRetrain (fun x => x) [(F.WRP_LANE_CFG_EN.at 127, 1)] |>.ofDev (fun d =>
    { d with plat := { d.plat with txIdle := false } }), 127, (lnRetrain, Instr.fastRetrainTimeout 127),
      by repeat' first | exact rfl | decide +kernel | refine And.intro ?_ ?_⟩⟩

theorem witness_LaneBlocksAndResends_1 :
    (∃ (s : State), ∃ (ph : Nat), ∃ (ack : Nat), ∃ (status : Nat), ∃ (i : Nat), (s.dev.on = true) ∧ (ph < 128) ∧ (s.dev.laneState ph =
    lnUp) ∧ (status % 4 = 0) ∧ ((s.dev.lane ph).txq.findIdx? (fun f => f.seq == ack) = some i) ∧ ((∀ f ∈ (s.dev.lane ph).txq, f.msg
    = 0)) ∧ ((s.dev.lane ph).pwrPend = 0) ∧ ((s.dev.lane ph).txWaits = false) ∧ ((∀ en < 16, (s.dev.msg en).due = false))) ∧
    (∃ (s : State), ∃ (ph : Nat), ∃ (ack : Nat), ∃ (i : Nat), (s.dev.on = true) ∧ (128 ≤ ph) ∧ (s.dev.laneState ph = lnUp) ∧
    ((s.dev.link ((ph - 128) / 4)).txq.findIdx? (fun f => f.seq == ack % 65536) = some i) ∧ ((s.dev.link ((ph - 128) / 4)).due =
    [])) ∧
    (∃ (s : State), ∃ (ph : Nat), (s.dev.on = true) ∧ (ph < 128) ∧ (s.dev.laneEn ph = true)) ∧
    (∃ (s : State), ∃ (ph : Nat), (s.dev.on = true) ∧ (ph < 144) ∧ (s.dev.laneEn ph = false)) ∧
    (∃ (s : State), ∃ (ph : Nat), (s.dev.on = true) ∧ (128 ≤ ph) ∧ (ph < 144) ∧ (s.dev.laneEn ph = true)) ∧
    (∃ (s : State), ∃ ph, (s.dev.on = true) ∧ (ph < 128) ∧ (s.dev.laneState ph = lnUp) ∧ ((s.dev.lane ph).txq ≠ [])) := by
  refine ⟨⟨wLane 127 lnUp (fun x => { x with txq := [frame 3, frame 4, frame 5] }) [], 127, 4, 0, 1,
      by repeat' first | exact rfl | decide +kernel | refine And.intro ?_ ?_⟩,
    ⟨wLink 4 (fun x => { x with txq := [⟨5, 3, 0, 0, 0⟩] }) [], 128, 65539, 0,
      by repeat' first | exact rfl | decide +kernel | refine And.intro ?_ ?_⟩,
    ⟨wit id [(F.WRP_LANE_CFG_EN.at 127, 1)], 127,
      by repeat' first | exact rfl | decide +kernel | refine And.intro ?_ ?_⟩,
    ⟨State.reset, 127,
      by repeat' first | exact rfl | decide +kernel | refine And.intro ?_ ?_⟩,
    ⟨wLink 4 (fun x => x) [(F.WFT_LINK_CFG_EN.at 0, 1)], 128,
      by repeat' first | exact rfl | decide +kernel | refine And.intro ?_ ?_⟩,
    ⟨wLane 127 lnUp (fun x => { x with txq := [frame 3] }) [(F.WRP_RETRY_CFG_MAX, 1)], 127,
      by repeat' first | exact rfl | decide +kernel | refine And.intro ?_ ?_⟩⟩

theorem witness_LaneBlocksAndResends_2 :
    (∃ (s : State), ∃ ph, (s.dev.on = true) ∧ (ph < 128) ∧ (s.dev.laneEn ph = true) ∧ (s.dev.log.queue.length < 64)) ∧
    (∃ (s : State), ∃ l, (s.dev.on = true) ∧ (s.dev.ts ∈ [tsIdle, tsArmed, tsStarting, tsHalted]) ∧ (s.dev.fld F.TRD_CTL_MODE ≠ 1) ∧
    (s.dev.plat.txIdle = false) ∧ (s.dev.warp.mapped = true) ∧ (s.dev.namedLanes = [l]) ∧ (s.dev.laneState (s.dev.phys l) = lnUp) ∧
    (s.dev.lanePwr (s.dev.phys l) = 0) ∧ (s.dev.txqLen (s.dev.phys l) < 64)) ∧
    (∃ (s : State), (s.dev.on = true) ∧ (s.dev.ts = tsBeat) ∧ (s.dev.trd.recovery = 0)) := by
  refine ⟨⟨wit id [(F.WRP_LANE_CFG_EN.at 127, 1)], 127,
      by repeat' first | exact rfl | decide +kernel | refine And.intro ?_ ?_⟩,
    ⟨wLane 127 lnUp (fun x => x) [] |>.ofDev (fun d =>
    { d with warp := { d.warp with mapped := true, ports := [BitVec.ofNat 64 (2 ^ 60 + 127 * 2 ^ 53)] }, plat := { d.plat with txIdle := false } }),
    127,
      by repeat' first | exact rfl | decide +kernel | refine And.intro ?_ ?_⟩,
    ⟨wit id [(fTs, tsBeat)],
      by repeat' first | exact rfl | decide +kernel | refine And.intro ?_ ?_⟩⟩

theorem witness_ResponsesAreDelivered :
    (∃ (s : State), ∃ (ph : Nat), ∃ (seq : Nat), ∃ (ack : Nat), ∃ (status : Nat), ∃ (beat : Nat), ∃ (bm1 : Nat), ∃ (ns : Nat), ∃ (b :
    Nat), ∃ (rest : List (Nat × Nat)), (s.dev.on = true) ∧ (ph < 128) ∧ (s.dev.laneState ph = lnUp) ∧ ((s.dev.lane ph).unanswered =
    (beat % 65536, b) :: rest) ∧ ((s.dev.lane ph).txq.findIdx? (fun f => f.seq == ack) = none) ∧ (status % 4 = 0) ∧ (seq =
    ((s.dev.lane ph).lastAcc + 1) % 256) ∧ (b = bm1) ∧ (ns ≤ 2 * (bm1 + 1))) ∧
    (∃ (s : State), ∃ (ph : Nat), ∃ (seq : Nat), ∃ (ack : Nat), ∃ (status : Nat), ∃ (beat : Nat), ∃ (bm1 : Nat), ∃ (b : Nat), ∃ (rest :
    List (Nat × Nat)), (s.dev.on = true) ∧ (ph < 128) ∧ (s.dev.laneState ph = lnUp) ∧ ((s.dev.lane ph).unanswered = (beat % 65536,
    b) :: rest) ∧ ((s.dev.lane ph).txq.findIdx? (fun f => f.seq == ack) = none) ∧ (status % 4 = 0) ∧ (seq = ((s.dev.lane ph).lastAcc
    + 1) % 256) ∧ (b ≠ bm1) ∧ (s.dev.log.queue.length < 63)) ∧
    (∃ (s : State), ∃ (ph : Nat), ∃ (seq : Nat), ∃ (ack : Nat), ∃ (status : Nat), ∃ (beat : Nat), ∃ (b : Nat), ∃ (rest : List (Nat ×
    Nat)), (s.dev.on = true) ∧ (ph < 128) ∧ (s.dev.laneState ph = lnUp) ∧ ((s.dev.lane ph).unanswered = (beat % 65536, b) :: rest) ∧
    ((s.dev.lane ph).txq.findIdx? (fun f => f.seq == ack) = none) ∧ (status % 4 = 0) ∧ (seq ≠ ((s.dev.lane ph).lastAcc + 1) % 256) ∧
    (s.dev.laneEn ph = true)) := by
  refine ⟨⟨wLane 127 lnUp (fun x => { x with unanswered := [(65535, 0)], resps := List.replicate 4 ⟨1, true, 0, [], false, false⟩ }) [], 127,
    0, 9, 0, 65535, 0, 2, 0, [],
      by repeat' first | exact rfl | decide +kernel | refine And.intro ?_ ?_⟩,
    ⟨wLane 127 lnUp (fun x => { x with unanswered := [(65535, 1)] }) [], 127, 0, 9, 0, 65535, 0, 1, [],
      by repeat' first | exact rfl | decide +kernel | refine And.intro ?_ ?_⟩,
    ⟨wLane 127 lnUp (fun x => { x with unanswered := [(65535, 1)] }) [(F.WRP_LANE_CFG_EN.at 127, 1)], 127, 1, 9, 0, 65535, 1, [],
      by repeat' first | exact rfl | decide +kernel | refine And.intro ?_ ?_⟩⟩

theorem witness_LanePowerAndLoopbacks_1 :
    (∃ (s : State), ∃ (ph : Nat), (s.dev.on = true) ∧ (ph < 128) ∧ (s.dev.laneEn ph = true)) ∧
    (∃ (s : State), ∃ (ph : Nat), (s.dev.on = true) ∧ (ph < 128) ∧ (s.dev.fld (F.WRP_LANE_CFG_REMOTE_LB_OK.at ph) = 1) ∧ (s.dev.isNamed
    ph = false) ∧ (s.dev.laneState ph = lnUp)) ∧
    (∃ (s : State), ∃ (ph : Nat), (s.dev.on = true) ∧ (ph < 128) ∧ ((s.dev.fld (F.WRP_LANE_CFG_REMOTE_LB_OK.at ph) = 0 ∨ s.dev.isNamed
    ph = true))) ∧
    (∃ (s : State), ∃ (ph : Nat), (s.dev.on = true) ∧ (ph < 128) ∧ ((s.dev.lane ph).remoteLoop = true) ∧ (s.dev.laneEn ph = true) ∧
    (s.dev.txMute = false)) ∧
    (∃ (s : State), ∃ (ph : Nat), ∃ req, (req < 4) ∧ (s.dev.on = true) ∧ (ph < 128) ∧ (s.dev.ringsOn = true) ∧ (s.dev.isNamed ph = true)
    ∧ (s.dev.ts = tsBeat)) ∧
    (∃ (s : State), ∃ (ph : Nat), ∃ req, (req < 4) ∧ (s.dev.on = true) ∧ (ph < 128) ∧ (s.dev.ringsOn = true) ∧ (s.dev.isNamed ph =
    false) ∧ (s.dev.lanePwr ph = 0) ∧ ((s.dev.lane ph).pwrSaved = 0) ∧ ((req % 2 = 0 ∨ (s.dev.lane ph).txq = []))) := by
  refine ⟨⟨wit id [(F.WRP_LANE_CFG_EN.at 127, 1)], 127,
      by repeat' first | exact rfl | decide +kernel | refine And.intro ?_ ?_⟩,
    ⟨wLane 127 lnUp (fun x => x) [(F.WRP_LANE_CFG_REMOTE_LB_OK.at 127, 1)], 127,
      by repeat' first | exact rfl | decide +kernel | refine And.intro ?_ ?_⟩,
    ⟨State.reset, 127,
      by repeat' first | exact rfl | decide +kernel | refine And.intro ?_ ?_⟩,
    ⟨(wLane 127 lnLoopback (fun x => { x with remoteLoop := true }) [(F.WRP_LANE_CFG_EN.at 127, 1)]).ofDev (fun d =>
    { d with plat := { d.plat with txIdle := false } }), 127,
      by repeat' first | exact rfl | decide +kernel | refine And.intro ?_ ?_⟩,
    ⟨(wLane 127 lnUp (fun x => x) [(fTs, tsBeat)]).ofDev (fun d =>
    { d with warp := { d.warp with mapped := true, ports := [BitVec.ofNat 64 (2 ^ 60 + 127 * 2 ^ 53)] } }), 127, 3,
      by repeat' first | exact rfl | decide +kernel | refine And.intro ?_ ?_⟩,
    ⟨wLane 127 lnUp (fun x => x) [], 127, 3,
      by repeat' first | exact rfl | decide +kernel | refine And.intro ?_ ?_⟩⟩

theorem witness_LanePowerAndLoopbacks_2 :
    (∃ (s : State), ∃ (ph : Nat), (s.dev.on = true) ∧ (ph < 128) ∧ (s.dev.ringsOn = true) ∧ (s.dev.isNamed ph = false) ∧ (s.dev.lanePwr
    ph = 3) ∧ ((s.dev.lane ph).pwrSaved = 0)) ∧
    (∃ (s : State), ∃ (ph : Nat), ∃ req, (req < 4) ∧ (s.dev.on = true) ∧ (ph < 128) ∧ (s.dev.ringsOn = true) ∧ (s.dev.isNamed ph =
    false) ∧ (req % 2 = 1) ∧ ((s.dev.lane ph).pwrSaved = 0) ∧ ((s.dev.lane ph).txq ≠ [])) ∧
    (∃ (s : State), ∃ (ph : Nat), ∃ req, (req < 4) ∧ (s.dev.on = true) ∧ (ph < 128) ∧ (s.dev.ringsOn = true) ∧ (s.dev.isNamed ph =
    false) ∧ ((s.dev.lane ph).pwrSaved ≠ 0)) ∧
    (∃ (s : State), ∃ (ph : Nat), ∃ (mode : Nat), (s.dev.on = true) ∧ (ph < 128) ∧ (s.dev.ringsOn = true) ∧ (mode ≠ 0) ∧ (mode < 4) ∧
    (s.dev.isNamed ph = true)) ∧
    (∃ (s : State), ∃ (ph : Nat), ∃ (mode : Nat), (s.dev.on = true) ∧ (ph < 128) ∧ (s.dev.ringsOn = true) ∧ (mode ≠ 0) ∧ (mode < 4) ∧
    (s.dev.isNamed ph = false)) ∧
    (∃ (s : State), ∃ (ph : Nat), (s.dev.on = true) ∧ (ph < 128) ∧ (s.dev.ringsOn = true) ∧ (s.dev.fld (F.WRP_LANE_LB_MODE.at ph) ≠ 0) ∧
    (s.dev.laneEn ph = true) ∧ (s.dev.txMute = false)) := by
  refine ⟨⟨wLane 127 lnUp (fun x => x) [(F.WRP_LANE_STATUS_PWR.at 127, 3)], 127,
      by repeat' first | exact rfl | decide +kernel | refine And.intro ?_ ?_⟩,
    ⟨wLane 127 lnUp (fun x => { x with txq := [frame 3] }) [], 127, 3,
      by repeat' first | exact rfl | decide +kernel | refine And.intro ?_ ?_⟩,
    ⟨wLane 127 lnUp (fun x => { x with pwrSaved := 1 }) [(F.WRP_LANE_STATUS_PWR.at 127, 3)], 127, 2,
      by repeat' first | exact rfl | decide +kernel | refine And.intro ?_ ?_⟩,
    ⟨(wLane 127 lnUp (fun x => x) []).ofDev (fun d =>
    { d with warp := { d.warp with mapped := true, ports := [BitVec.ofNat 64 (2 ^ 60 + 127 * 2 ^ 53)] } }), 127, 3,
      by repeat' first | exact rfl | decide +kernel | refine And.intro ?_ ?_⟩,
    ⟨State.reset, 127, 3,
      by repeat' first | exact rfl | decide +kernel | refine And.intro ?_ ?_⟩,
    ⟨(wLane 127 lnLoopback (fun x => x) [(F.WRP_LANE_CFG_EN.at 127, 1), (F.WRP_LANE_LB_MODE.at 127, 3)]).ofDev (fun d =>
    { d with plat := { d.plat with txIdle := false } }), 127,
      by repeat' first | exact rfl | decide +kernel | refine And.intro ?_ ?_⟩⟩

theorem witness_Messages_1 :
    (∃ (s : State), ∃ (en : Nat), ∃ lane, ∃ len, (s.dev.ringsOn = true) ∧ (s.dev.fld F.WRP_MSG_SEL_ENTRY = en) ∧ (s.dev.fld
    (F.WRP_MSG_STATUS_STATUS.at en) ≠ 1) ∧ (len < 64) ∧ (s.dev.laneL0 (s.dev.phys lane) = true) ∧ (64 ≤ s.dev.txqLen (s.dev.phys
    lane))) ∧
    (∃ (s : State), ∃ (en : Nat), ∃ lane, ∃ len, (s.dev.ringsOn = true) ∧ (s.dev.fld F.WRP_MSG_SEL_ENTRY = en) ∧ (s.dev.fld
    (F.WRP_MSG_STATUS_STATUS.at en) ≠ 1) ∧ (len < 64) ∧ (s.dev.laneL0 (s.dev.phys lane) = true) ∧ (s.dev.txqLen (s.dev.phys lane) <
    64)) ∧
    (∃ (s : State), ∃ (en : Nat), ∃ lane, ∃ len, (s.dev.ringsOn = true) ∧ (s.dev.fld F.WRP_MSG_SEL_ENTRY = en) ∧ (s.dev.fld
    (F.WRP_MSG_STATUS_STATUS.at en) ≠ 1) ∧ (len < 64) ∧ (s.dev.laneL0 (s.dev.phys lane) = true) ∧ (s.dev.tooLate (s.dev.reg (instKey
    R.WRP_MSG_AT en)) = false)) ∧
    (∃ (s : State), ∃ (en : Nat), ∃ lane, ∃ len, (s.dev.ringsOn = true) ∧ (s.dev.fld F.WRP_MSG_SEL_ENTRY = en) ∧ (s.dev.fld
    (F.WRP_MSG_STATUS_STATUS.at en) ≠ 1) ∧ ((64 ≤ len ∨ s.dev.laneL0 (s.dev.phys lane) = false))) ∧
    (∃ (s : State), ∃ (en : Nat), (s.dev.ringsOn = true) ∧ (s.dev.fld F.WRP_MSG_SEL_ENTRY = en) ∧ (s.dev.fld (F.WRP_MSG_STATUS_STATUS.at
    en) = 1) ∧ (((s.dev.msg en).wait = true ∨ (s.dev.msg en).due = true))) ∧
    (∃ (s : State), ∃ (en : Nat), (s.dev.ringsOn = true) ∧ (s.dev.fld F.WRP_MSG_SEL_ENTRY = en) ∧ ((s.dev.fld
    (F.WRP_MSG_STATUS_STATUS.at en) ≠ 1 ∨ ((s.dev.msg en).wait = false ∧ (s.dev.msg en).due = false ∧ ∀ f ∈ (s.dev.lane (s.dev.phys
    (s.dev.msg en).lane)).txq, f.sent = true)))) := by
  refine ⟨⟨wLane 127 lnUp (fun x => { x with txq := List.replicate 64 (frame 3) }) [(F.WRP_MSG_SEL_ENTRY, 15)], 15, 127, 63,
      by repeat' first | exact rfl | decide +kernel | refine And.intro ?_ ?_⟩,
    ⟨wLane 127 lnUp (fun x => { x with txq := [frame 3] }) [(F.WRP_MSG_SEL_ENTRY, 15)], 15, 127, 63,
      by repeat' first | exact rfl | decide +kernel | refine And.intro ?_ ?_⟩,
    ⟨wLane 127 lnUp (fun x => { x with txq := [frame 3] }) [(F.WRP_MSG_SEL_ENTRY, 15)] |>.ofDev (fun d => d.setReg (instKey R.WRP_MSG_AT
    15) 5), 15, 127, 63,
      by repeat' first | exact rfl | decide +kernel | refine And.intro ?_ ?_⟩,
    ⟨State.reset, 0, 0, 64,
      by repeat' first | exact rfl | decide +kernel | refine And.intro ?_ ?_⟩,
    ⟨wit (fun d => { d with warp := { d.warp with msgs := [(15, ⟨[1], 127, 0, true, false⟩)] } }) [(F.WRP_MSG_SEL_ENTRY, 15),
    (F.WRP_MSG_STATUS_STATUS.at 15, 1)], 15,
      by repeat' first | exact rfl | decide +kernel | refine And.intro ?_ ?_⟩,
    ⟨State.reset, 0,
      by repeat' first | exact rfl | decide +kernel | refine And.intro ?_ ?_⟩⟩

theorem witness_Messages_2 :
    (∃ (s : State), ∃ (en : Nat), (s.dev.ringsOn = true) ∧ (s.dev.fld F.WRP_MSG_SEL_ENTRY = en) ∧ (s.dev.warp.msgPtr < 64)) ∧
    (∃ (s : State), ∃ (en : Nat), (s.dev.ringsOn = true) ∧ (s.dev.fld F.WRP_MSG_SEL_ENTRY = en) ∧ (64 ≤ s.dev.warp.msgPtr)) ∧
    (∃ (s : State), ∃ (en : Nat), (s.dev.ringsOn = true) ∧ (s.dev.fld F.WRP_MSG_SEL_ENTRY = en)) ∧
    (∃ (s : State), ∃ (en : Nat), (s.dev.ringsOn = true) ∧ (s.dev.fld F.WRP_MSG_SEL_ENTRY = en) ∧ (s.dev.warp.rx ≠ [])) ∧
    (∃ (s : State), ∃ (ph : Nat), ∃ (seq : Nat), ∃ (ack : Nat), ∃ (status : Nat), (s.dev.on = true) ∧ (s.dev.laneState ph = lnUp) ∧ (seq
    = ((s.dev.lane ph).lastAcc + 1) % 256) ∧ ((s.dev.lane ph).txq.findIdx? (fun f => f.seq == ack) = none) ∧ (status % 4 = 0) ∧
    (s.dev.log.queue.length < 64) ∧ (ph < 128)) := by
  refine ⟨⟨wit (fun d => { d with warp := { d.warp with msgPtr := 63 } }) [(F.WRP_MSG_SEL_ENTRY, 15)], 15,
      by repeat' first | exact rfl | decide +kernel | refine And.intro ?_ ?_⟩,
    ⟨wit (fun d => { d with warp := { d.warp with msgPtr := 64 } }) [(F.WRP_MSG_SEL_ENTRY, 15)], 15,
      by repeat' first | exact rfl | decide +kernel | refine And.intro ?_ ?_⟩,
    ⟨State.reset, 0,
      by repeat' first | exact rfl | decide +kernel | refine And.intro ?_ ?_⟩,
    ⟨wit (fun d => { d with warp := { d.warp with rx := [(1, [5])] } }) [], 0,
      by repeat' first | exact rfl | decide +kernel | refine And.intro ?_ ?_⟩,
    ⟨(wLane 127 lnUp (fun x => x) []).ofDev (fun d => { d with warp := { d.warp with rx := List.replicate 16 (1, []) } }), 127, 0, 9, 0,
      by repeat' first | exact rfl | decide +kernel | refine And.intro ?_ ?_⟩⟩

theorem witness_LinksComeAndGo_1 :
    (∃ (s : State), ∃ (p : Nat), (s.dev.on = true) ∧ (p < 4) ∧ (s.dev.lanesUp p = true) ∧ (s.dev.linkUp p = false) ∧ ((s.dev.joins
    (s.dev.logLink p)) = none)) ∧
    (∃ (s : State), ∃ (p : Nat), (s.dev.on = true) ∧ (p < 4) ∧ (s.dev.lanesUp p = true) ∧ (s.dev.linkUp p = false) ∧ ((s.dev.joins
    (s.dev.logLink p)).isSome = true) ∧ ((s.dev.link p).due = []) ∧ ((s.dev.link p).bytes + 24 ≤ 65536)) ∧
    (∃ (s : State), ∃ (p : Nat), (s.dev.on = true) ∧ (p < 4) ∧ (s.dev.lanesUp p = false) ∧ (s.dev.linkUp p = false) ∧ (s.dev.linkState p
    = 2) ∧ ((s.dev.link p).was ≠ 0) ∧ ((∃ i < 4, s.dev.laneState (128 + 4 * p + i) = lnDown))) ∧
    (∃ (s : State), ∃ (p : Nat), ∃ c, (c ∈ [Instr.alignBlockRx p true, .linkDown p]) ∧ (s.dev.on = true) ∧ (p < 4) ∧ (s.dev.linkUp p =
    true) ∧ ((c = .linkDown p → s.dev.lanesUp p = false))) ∧
    (∃ (s : State), ∃ (p : Nat), (s.dev.on = true) ∧ (p < 4)) ∧
    (∃ (s : State), ∃ (p : Nat), (s.dev.on = true) ∧ (p < 4) ∧ (s.dev.linkUp p = true) ∧ ((s.dev.link p).txq ≠ []) ∧ ((s.dev.link
    p).episodes + 1 < max 1 (s.dev.fld F.WFT_RETRY_CFG_MAX))) := by
  refine ⟨⟨wLink 1 (fun x => x) [(F.TRD_WEAVE_ROLE, 0)], 0,
      by repeat' first | exact rfl | decide +kernel | refine And.intro ?_ ?_⟩,
    ⟨wLink 2 (fun x => x) [], 0,
      by repeat' first | exact rfl | decide +kernel | refine And.intro ?_ ?_⟩,
    ⟨wLink 2 (fun x => { x with was := 4 }) [] |>.ofDev (fun d => d.setFld (F.WRP_LANE_STATUS_STATE.at 131) lnDown), 0,
      by repeat' first | exact rfl | decide +kernel | refine And.intro ?_ ?_⟩,
    ⟨wLink 4 (fun x => x) [], 0, Instr.alignBlockRx (0) true,
      by repeat' first | exact rfl | decide +kernel | refine And.intro ?_ ?_⟩,
    ⟨State.reset, 3,
      by repeat' first | exact rfl | decide +kernel | refine And.intro ?_ ?_⟩,
    ⟨wLink 4 (fun x => { x with txq := [⟨5, 3, 0, 0, 0⟩] }) [(F.WFT_RETRY_CFG_MAX, 2)], 0,
      by repeat' first | exact rfl | decide +kernel | refine And.intro ?_ ?_⟩⟩

theorem witness_LinksComeAndGo_2 :
    (∃ (s : State), ∃ (p : Nat), (s.dev.on = true) ∧ (p < 4) ∧ (s.dev.linkUp p = true) ∧ ((s.dev.link p).txq ≠ []) ∧ (max 1 (s.dev.fld
    F.WFT_RETRY_CFG_MAX) ≤ (s.dev.link p).episodes + 1)) ∧
    (∃ (s : State), ∃ (p : Nat), (s.dev.on = true) ∧ (p < 4) ∧ ((s.dev.joins (s.dev.logLink p)).isSome = true) ∧ (s.dev.linkState p < 3)
    ∧ (s.dev.ts = tsWaiting) ∧ ((s.dev.unmet6 = 2 ∨ s.dev.unmet6 = 3))) := by
  refine ⟨⟨wLink 4 (fun x => { x with txq := [⟨5, 3, 0, 0, 0⟩], episodes := 1 }) [(F.WFT_RETRY_CFG_MAX, 2)], 0,
      by repeat' first | exact rfl | decide +kernel | refine And.intro ?_ ?_⟩,
    ⟨wLink 1 (fun x => x) [(fTs, tsWaiting)] |>.ofDev (fun d => d.onLoom (fun l => { l with beat := 1 })), 0,
      by repeat' first | exact rfl | decide +kernel | refine And.intro ?_ ?_⟩⟩

theorem witness_WeftFrames_1 :
    (∃ (s : State), ∃ (p : Nat), ∃ (seq : Nat), ∃ (ack : Nat), ∃ beat, (s.dev.on = true) ∧ (p < 4) ∧ (s.dev.linkOpen p = true) ∧ (seq =
    ((s.dev.link p).lastAcc + 1) % 65536) ∧ ((s.dev.link p).txq.findIdx? (fun f => f.seq == ack % 65536) = none) ∧ (beat % 16 =
    s.dev.stageBeat)) ∧
    (∃ (s : State), ∃ (p : Nat), ∃ (seq : Nat), ∃ (ack : Nat), ∃ beat, (s.dev.on = true) ∧ (p < 4) ∧ (s.dev.linkOpen p = true) ∧ (seq =
    ((s.dev.link p).lastAcc + 1) % 65536) ∧ ((s.dev.link p).txq.findIdx? (fun f => f.seq == ack % 65536) = none) ∧ (beat % 16 =
    (s.dev.stageBeat + 1) % 16) ∧ ((s.dev.link p).early = [])) ∧
    (∃ (s : State), ∃ (p : Nat), ∃ (seq : Nat), ∃ (ack : Nat), ∃ (origin : Nat), ∃ (beat : Nat), (s.dev.on = true) ∧ (p < 4) ∧
    (s.dev.linkOpen p = true) ∧ (seq = ((s.dev.link p).lastAcc + 1) % 65536) ∧ ((s.dev.link p).txq.findIdx? (fun f => f.seq == ack %
    65536) = none) ∧ (s.dev.ts = tsBeat) ∧ (s.dev.weft.start = .idle) ∧ (origin ≠ s.dev.position) ∧ (SMap.get 0 s.dev.weft.fwdMark
    (2 * origin) < beat + 1)) ∧
    (∃ (s : State), ∃ (p : Nat), ∃ (seq : Nat), ∃ (ack : Nat), ∃ (origin : Nat), ∃ (gen : Nat), (s.dev.on = true) ∧ (p < 4) ∧
    (s.dev.linkOpen p = true) ∧ (seq = ((s.dev.link p).lastAcc + 1) % 65536) ∧ ((s.dev.link p).txq.findIdx? (fun f => f.seq == ack %
    65536) = none) ∧ (origin ≠ s.dev.position) ∧ (origin < 16) ∧ (gen < 256) ∧ (SMap.get 0 s.dev.weft.done origin = 0)) ∧
    (∃ (s : State), ∃ (p : Nat), ∃ (seq : Nat), ∃ (ack : Nat), ∃ (src : Nat), ∃ (tag : Nat), (s.dev.on = true) ∧ (p < 4) ∧
    (s.dev.linkOpen p = true) ∧ (seq = ((s.dev.link p).lastAcc + 1) % 65536) ∧ ((s.dev.link p).txq.findIdx? (fun f => f.seq == ack %
    65536) = none) ∧ (s.dev.linkInUse p = true) ∧ (s.dev.ts = tsBeat) ∧ (s.dev.weft.start = .idle) ∧ (src ≠ s.dev.position) ∧
    (s.dev.weft.fwdPeer.contains (src, tag) = false)) ∧
    (∃ (s : State), ∃ (p : Nat), ∃ (seq : Nat), ∃ (ack : Nat), ∃ (src : Nat), ∃ (tag : Nat), (s.dev.on = true) ∧ (p < 4) ∧
    (s.dev.linkOpen p = true) ∧ (seq = ((s.dev.link p).lastAcc + 1) % 65536) ∧ ((s.dev.link p).txq.findIdx? (fun f => f.seq == ack %
    65536) = none) ∧ (src ≠ s.dev.position) ∧ (src < 16) ∧ (s.dev.weft.fwdPeer.contains (src, tag) = false) ∧
    (s.dev.log.queue.length < 64)) := by
  refine ⟨⟨wLink 4 (fun x => x) [(fTs, tsBeat)], 0, 0, 9, 16,
      by repeat' first | exact rfl | decide +kernel | refine And.intro ?_ ?_⟩,
    ⟨wLink 4 (fun x => x) [(fTs, tsBeat)], 0, 0, 9, 1,
      by repeat' first | exact rfl | decide +kernel | refine And.intro ?_ ?_⟩,
    ⟨wLink 4 (fun x => x) [(fTs, tsBeat)], 0, 0, 9, 1, 0,
      by repeat' first | exact rfl | decide +kernel | refine And.intro ?_ ?_⟩,
    ⟨wLink 4 (fun x => x) [], 0, 0, 9, 1, 255,
      by repeat' first | exact rfl | decide +kernel | refine And.intro ?_ ?_⟩,
    ⟨wLink 4 (fun x => x) [(fTs, tsBeat)], 0, 0, 9, 1, 255,
      by repeat' first | exact rfl | decide +kernel | refine And.intro ?_ ?_⟩,
    ⟨wLink 4 (fun x => x) [], 0, 0, 9, 15, 255,
      by repeat' first | exact rfl | decide +kernel | refine And.intro ?_ ?_⟩⟩

theorem witness_WeftFrames_2 :
    (∃ (s : State), ∃ (p : Nat), ∃ (seq : Nat), ∃ (ack : Nat), ∃ (pos : Nat), ∃ (n : Nat × Nat), (s.dev.on = true) ∧ (p < 4) ∧
    (s.dev.linkState p = 3) ∧ (seq = ((s.dev.link p).lastAcc + 1) % 65536) ∧ ((s.dev.link p).txq.findIdx? (fun f => f.seq == ack %
    65536) = none) ∧ (s.dev.joins (s.dev.logLink p) = some n) ∧ (pos < 16)) ∧
    (∃ (s : State), (s.dev.on = true)) ∧
    (∃ (s : State), (s.dev.on = true) ∧ (SMap.get 0 s.dev.weft.done s.dev.position ≠ 0)) := by
  refine ⟨⟨wLink 3 (fun x => x) [], 0, 0, 9, 1, (1, 1),
      by repeat' first | exact rfl | decide +kernel | refine And.intro ?_ ?_⟩,
    ⟨wLink 4 (fun x => x) [],
      by repeat' first | exact rfl | decide +kernel | refine And.intro ?_ ?_⟩,
    ⟨wLink 4 (fun x => x) [] |>.ofDev (fun d => { d with weft := { d.weft with done := [(0, 3)] } }),
      by repeat' first | exact rfl | decide +kernel | refine And.intro ?_ ?_⟩⟩

theorem witness_CaptureUnitsFollowCommands :
    (∃ (s : State), ∃ (u : Nat), (s.dev.on = true) ∧ (u < 16) ∧ (s.dev.ringsOn = true) ∧ ((s.dev.capState u = cpIdle ∨ s.dev.capState u
    = cpEnded)) ∧ (s.dev.capMode u ≠ 0) ∧ ((s.dev.capMode u = 2 → s.dev.capFld F.CAP_TRIG_CFG_KIND u ≠ 1 ∧ s.dev.capFld
    F.CAP_TRIG_CFG_KIND u ≠ 2)) ∧ (s.dev.capFld F.CAP_TRIG_CFG_KIND u < 6)) ∧
    (∃ (s : State), ∃ (u : Nat), (s.dev.on = true) ∧ (u < 16) ∧ (s.dev.ringsOn = true) ∧ ((s.dev.capState u = cpIdle ∨ s.dev.capState u
    = cpEnded)) ∧ ((s.dev.capMode u = 0 ∨ 6 ≤ s.dev.capFld F.CAP_TRIG_CFG_KIND u))) ∧
    (∃ (s : State), ∃ (u : Nat), (s.dev.on = true) ∧ (u < 16) ∧ (s.dev.ringsOn = true) ∧ (s.dev.capState u = cpRun) ∧
    (s.dev.log.queue.length < 64)) ∧
    (∃ (s : State), ∃ (u : Nat), ∃ (b : Nat), ∃ (first : Nat), (s.dev.on = true) ∧ (u < 16) ∧ (s.dev.ringsOn = true) ∧ (s.dev.capState u
    ∈ [cpArmed, cpPre, cpWait, cpPost]) ∧ (s.dev.log.queue.length < 64) ∧ (b = (if (s.dev.cu u).closing = true then ((s.dev.cu
    u).queue.getLast?.map (fun x => x.1 + 1)).getD s.dev.loom.beat else ((s.dev.cu u).pend.head?.map CapRec.beat).getD
    s.dev.loom.beat)) ∧ (first = s.dev.firstLost u b)) ∧
    (∃ (s : State), ∃ (u : Nat), (s.dev.on = true) ∧ (u < 16) ∧ ((s.dev.capState u = cpPre ∨ s.dev.capState u = cpWait))) ∧
    (∃ (s : State), ∃ (u : Nat), ∃ c, (c ∈ [(Instr.arm u, [cpArmed, cpPre, cpWait, cpPost, cpRun]), (.capStop u, [cpIdle, cpEnded]),
    (.trigger u, [cpIdle, cpArmed, cpPost, cpRun, cpEnded])]) ∧ (s.dev.on = true) ∧ (u < 16) ∧ ((c.1 = .trigger u ∨ s.dev.ringsOn =
    true)) ∧ (s.dev.capState u ∈ c.2)) := by
  refine ⟨⟨wCap cpEnded (fun u => { u with seq := 4 }) [(F.CAP_TRIG_CFG_KIND.at 15, 5)], 15,
      by repeat' first | exact rfl | decide +kernel | refine And.intro ?_ ?_⟩,
    ⟨wCap cpIdle id [(F.CAP_UNIT_CFG_MODE.at 15, 3)], 15,
      by repeat' first | exact rfl | decide +kernel | refine And.intro ?_ ?_⟩,
    ⟨wCap cpRun (fun u => { u with pend := [capRec []] }) [], 15,
      by repeat' first | exact rfl | decide +kernel | refine And.intro ?_ ?_⟩,
    ⟨wCap cpPost (fun u => { u with pend := [capRec []] }) [], 15, 9, 9,
      by repeat' first | exact rfl | decide +kernel | refine And.intro ?_ ?_⟩,
    ⟨wCap cpWait id [], 15,
      by repeat' first | exact rfl | decide +kernel | refine And.intro ?_ ?_⟩,
    ⟨wCap cpRun id [], 15, (Instr.trigger 15, [cpIdle, cpArmed, cpPost, cpRun, cpEnded]),
      by repeat' first | exact rfl | decide +kernel | refine And.intro ?_ ?_⟩⟩

theorem witness_RecordsAreMadeAndWritten_1 :
    (∃ (s : State), ∃ (u : Nat), (s.dev.on = true) ∧ (u < 16) ∧ (s.dev.cap.quiet = true)) ∧
    (∃ (s : State), ∃ (u : Nat), (s.dev.on = true) ∧ (u < 16) ∧ (s.dev.cap.quiet = true) ∧ (s.dev.ringsOn = true)) ∧
    (∃ (s : State), ∃ (u : Nat), ∃ (r : CapRec), ∃ (t : List CapRec), (s.dev.on = true) ∧ (u < 16) ∧ (s.dev.cap.quiet = false) ∧
    (s.dev.capState u = cpRun) ∧ (s.dev.capMode u = 1) ∧ ((s.dev.cu u).closing = false) ∧ ((s.dev.cu u).pend = r :: t) ∧ (r.waits =
    []) ∧ (s.dev.capFld F.CAP_TRIG_CFG_KIND u ≠ 4) ∧ (s.dev.log.queue.length < 64) ∧ (queueBytes (s.dev.cu u).queue + 16 + (pad16
    (leBytes (4 * (s.dev.capFld F.CAP_UNIT_CFG_WIDTH u + 1)) r.bits)).length ≤ 65536)) ∧
    (∃ (s : State), ∃ (u : Nat), ∃ (r : CapRec), ∃ (t : List CapRec), (s.dev.on = true) ∧ (u < 16) ∧ (s.dev.cap.quiet = false) ∧
    (s.dev.capState u = cpWait) ∧ (s.dev.capMode u = 1) ∧ ((s.dev.cu u).closing = false) ∧ ((s.dev.cu u).pend = r :: t) ∧ (r.waits =
    []) ∧ (r.missing = false) ∧ (s.dev.capFld F.CAP_TRIG_CFG_KIND u = 0) ∧ (s.dev.capFld F.CAP_TRIG_CFG_COUNT u ≤ 1) ∧ ((s.dev.cu
    u).hits = 0) ∧ ((s.dev.reg (instKey R.CAP_PRE u)).toNat ≤ (s.dev.cu u).made) ∧ ((s.dev.cu u).queue = []) ∧ ((∀ v < 16,
    s.dev.capState v ≠ cpArmed)) ∧ (s.dev.log.queue.length < 64)) ∧
    (∃ (s : State), ∃ (u : Nat), ∃ (r : CapRec), ∃ (t : List CapRec), (s.dev.on = true) ∧ (u < 16) ∧ ((s.dev.cu u).pend = r :: t) ∧
    (r.waits ≠ []) ∧ ((∀ c ∈ t, c.beat ≠ r.beat))) ∧
    (∃ (s : State), ∃ (u : Nat), ∃ (r : CapRec), ∃ (t : List CapRec), (s.dev.on = true) ∧ (u < 16) ∧ ((s.dev.cu u).pend = r :: t) ∧
    (r.waits ≠ [])) := by
  refine ⟨⟨wCap cpRun (fun u => { u with pend := [capRec []] }) [] |>.ofDev (fun d => { d with cap := { d.cap with quiet := true } }), 15,
      by repeat' first | exact rfl | decide +kernel | refine And.intro ?_ ?_ | refine allFrom ?_⟩,
    ⟨wCap cpRun (fun u => { u with queue := [(9, List.replicate 32 7)] }) [] |>.ofDev (fun d =>
    { d with cap := { d.cap with quiet := true } }), 15,
      by repeat' first | exact rfl | decide +kernel | refine And.intro ?_ ?_ | refine allFrom ?_⟩,
    ⟨wCap cpRun (fun u => { u with pend := [capRec []] }) [], 15, capRec [], [],
      by repeat' first | exact rfl | decide +kernel | refine And.intro ?_ ?_ | refine allFrom ?_⟩,
    ⟨wCap cpWait (fun u => { u with pend := [capRec []] }) [], 15, capRec [], [],
      by repeat' first | exact rfl | decide +kernel | refine And.intro ?_ ?_ | refine allFrom ?_⟩,
    ⟨wCap cpRun (fun u => { u with pend := [capRec [127]] }) [], 15, capRec [127], [],
      by repeat' first | exact rfl | decide +kernel | refine And.intro ?_ ?_ | refine allFrom ?_⟩,
    ⟨wCap cpRun (fun u => { u with pend := [capRec [127]] }) [], 15, capRec [127], [],
      by repeat' first | exact rfl | decide +kernel | refine And.intro ?_ ?_ | refine allFrom ?_⟩⟩

theorem witness_RecordsAreMadeAndWritten_2 :
    (∃ (s : State), ∃ (u : Nat), ∃ (b : Nat), ∃ (bs : List Byte), ∃ (q : List (Nat × List Byte)), (s.dev.on = true) ∧ (u < 16) ∧
    (s.dev.cap.quiet = false) ∧ (s.dev.ringsOn = true) ∧ (s.dev.mayFill u) ∧ ((s.dev.cu u).queue = (b, bs) :: q) ∧
    (s.dev.log.queue.length < 64) ∧ (bs.length ≤ 2 ^ s.dev.capFld F.CAP_UNIT_CFG_SIZE u)) ∧
    (∃ (s : State), ∃ (u : Nat), ∃ (m : Nat × Nat), (s.dev.on = true) ∧ (u < 16) ∧ (s.dev.cap.quiet = false) ∧ (s.dev.ringsOn = true) ∧
    (s.dev.mayFill u) ∧ ((s.dev.cu u).mark = some m) ∧ ((s.dev.cu u).queue = [])) ∧
    (∃ (s : State), ∃ (u : Nat), (s.dev.on = true) ∧ (u < 16) ∧ (s.dev.ringsOn = true) ∧ ((s.dev.cap.quiet = true ∨ (s.dev.cu u).mark =
    none ∨ (s.dev.cu u).queue ≠ []))) := by
  refine ⟨⟨wCap cpPost (fun u => { u with queue := [(9, List.replicate 32 7)], closing := true }) [] |>.ofDev (fun d =>
    { (d.setReg (instKey R.CAP_WPTR 15) 48) with plat := { d.plat with hbmReady := true } }), 15, 9, List.replicate 32 7, [],
      by repeat' first | exact rfl | decide +kernel | refine And.intro ?_ ?_ | refine allFrom ?_⟩,
    ⟨wCap cpRun (fun u => { u with mark := some (9, 2) }) [] |>.ofDev (fun d =>
    { (d.setReg (instKey R.CAP_WPTR 15) 48) with plat := { d.plat with hbmReady := true } }), 15, (9, 2),
      by repeat' first | exact rfl | decide +kernel | refine And.intro ?_ ?_ | refine allFrom ?_⟩,
    ⟨wCap cpRun id [], 15,
      by repeat' first | exact rfl | decide +kernel | refine And.intro ?_ ?_ | refine allFrom ?_⟩⟩

theorem witness_FailMapsCollect_1 :
    (∃ (s : State), ∃ (r : FailRec), ∃ (a : Nat), (s.dev.ringsOn = true) ∧ (s.dev.cap.applying = [r]) ∧ (s.dev.loom.failStage = []) ∧
    (s.dev.failBlocked r = false) ∧ (s.dev.mapValid r.map = true) ∧ (r.addr < 2 ^ s.dev.mapBits r.map) ∧ (r.addr < 2 ^ 32) ∧
    (s.dev.chk = []) ∧ (s.dev.bad = []) ∧ (s.dev.fld F.ECC_TEST_EN = 0) ∧ (a = s.dev.mapBase r.map + 4 * r.addr)) ∧
    (∃ (s : State), ∃ (r : FailRec), (s.dev.ringsOn = true) ∧ (s.dev.cap.applying = [r]) ∧ (s.dev.loom.failStage = []) ∧
    (s.dev.failBlocked r = false) ∧ (s.dev.mapValid r.map = false)) ∧
    (∃ (s : State), ∃ (m : Nat), (s.dev.ringsOn = true) ∧ (m = s.dev.fld F.FMP_SEL_MAP) ∧ (s.dev.mapValid m = true) ∧ (SMap.get 0
    s.dev.cap.clearing m = 0) ∧ (s.dev.inBeat = true) ∧ (s.dev.cap.clearPend.contains m = false)) ∧
    (∃ (s : State), ∃ (m : Nat), (s.dev.ringsOn = true) ∧ (m = s.dev.fld F.FMP_SEL_MAP) ∧ (s.dev.mapValid m = true) ∧ (SMap.get 0
    s.dev.cap.clearing m = 0) ∧ (s.dev.inBeat = false)) ∧
    (∃ (s : State), ∃ (m : Nat), (s.dev.ringsOn = true) ∧ (m = s.dev.fld F.FMP_SEL_MAP) ∧ ((s.dev.mapValid m = false ∨ SMap.get 0
    s.dev.cap.clearing m ≠ 0))) ∧
    (∃ (s : State), ∃ (m : Nat), (s.dev.ringsOn = true) ∧ (SMap.get 0 s.dev.cap.clearing m ≠ 0) ∧ (s.dev.cap.applying = []) ∧
    (s.dev.loom.failStage = []) ∧ (s.dev.log.queue.length < 64)) := by
  refine ⟨⟨wMap (fun d => { d with cap := { d.cap with applying := [⟨3, 7, 6, 9, 0, 0, 0⟩] } }.setBytes 540 [2]) [], ⟨3, 7, 6, 9, 0, 0, 0⟩,
    540,
      by repeat' first | exact rfl | decide +kernel | refine And.intro ?_ ?_⟩,
    ⟨wMap (fun d => { d with cap := { d.cap with applying := [⟨4, 7, 6, 9, 0, 0, 0⟩] } }) [], ⟨4, 7, 6, 9, 0, 0, 0⟩,
      by repeat' first | exact rfl | decide +kernel | refine And.intro ?_ ?_⟩,
    ⟨wMap id [(fTs, tsBeat)], 3,
      by repeat' first | exact rfl | decide +kernel | refine And.intro ?_ ?_⟩,
    ⟨wMap id [], 3,
      by repeat' first | exact rfl | decide +kernel | refine And.intro ?_ ?_⟩,
    ⟨wMap (fun d => { d with cap := { d.cap with clearing := [(3, 8)] } }) [], 3,
      by repeat' first | exact rfl | decide +kernel | refine And.intro ?_ ?_⟩,
    ⟨wMap (fun d => { d with cap := { d.cap with clearing := [(3, 8)] } }.setBytes 510 (List.replicate 40 7)) [], 3,
      by repeat' first | exact rfl | decide +kernel | refine And.intro ?_ ?_⟩⟩

theorem witness_FailMapsCollect_2 :
    (∃ (s : State), (s.dev.ringsOn = true)) :=
  ⟨State.reset,
      by repeat' first | exact rfl | decide +kernel | refine And.intro ?_ ?_⟩

theorem witness_ShuttleWordsSpellOneInstruction :
    (∃ (v : Word), ∃ (w : Word), ∃ (o : ShOp), (shDecode v = some o) ∧ (shDecode w = some o)) :=
  ⟨shw 1 3 1 2 0, shw 1 3 1 2 0, ShOp.sum 3 1 2,
      by repeat' first | exact rfl | decide +kernel | refine And.intro ?_ ?_⟩

theorem witness_ShuttleArithmetic :
    (∃ (st : State), ∃ (s : Nat), ∃ (w : Word), ∃ (d : Dev), ∃ (rd : Nat), ∃ (ra : Nat), ∃ (rb : Nat), ∃ (k : Nat), ∃ (x : Shuttle), ∃
    (a : BitVec 64), ∃ (b : BitVec 64), ∃ c, (c ∈ [(ShOp.sum rd ra rb, Instr.sum s, a + b), (.dif rd ra rb, .dif s, a - b), (.conj
    rd ra rb, .conj s, a &&& b), (.disj rd ra rb, .disj s, a ||| b), (.excl rd ra rb, .excl s, a ^^^ b), (.shl rd ra rb, .shl s, a
    <<< (b.toNat % 64)), (.shr rd ra rb, .shr s, a >>> (b.toNat % 64)), (.sha rd ra rb, .sha s, a.sshiftRight (b.toNat % 64)),
    (.less rd ra rb, .less s, if a.toInt < b.toInt then 1 else 0), (.lessu rd ra rb, .lessu s, if a.toNat < b.toNat then 1 else 0),
    (.prod rd ra rb, .prod s, a * b), (.prodhs rd ra rb, .prodhs s, BitVec.ofInt 64 (a.toInt * b.toInt / 2 ^ 64)), (.prodhu rd ra
    rb, .prodhu s, BitVec.ofNat 64 (a.toNat * b.toNat / 2 ^ 64)), (.sumk rd ra k, .sumk s, a + sext 17 k), (.conjk rd ra k, .conjk
    s, a &&& BitVec.ofNat 64 k), (.disjk rd ra k, .disjk s, a ||| BitVec.ofNat 64 k), (.exclk rd ra k, .exclk s, a ^^^ BitVec.ofNat
    64 k), (.lessk rd ra k, .lessk s, if a.toInt < (sext 17 k).toInt then 1 else 0), (.topk rd k, .topk s, sext 17 k <<< 17)]) ∧
    (st.dev.on = true) ∧ (st.dev.shGets d s w) ∧ (x = d.sh s) ∧ (a = x.reg ra) ∧ (b = x.reg rb) ∧ (shDecode w = some c.1)) :=
  ⟨wSh (shw 1 31 1 2 0) id, 0, shw 1 31 1 2 0, (wSh (shw 1 31 1 2 0) id).fetched, 31, 1, 2, 0, ((wSh (shw 1 31 1 2 0) id).fetched).sh
    0, (((wSh (shw 1 31 1 2 0) id).fetched).sh 0).reg 1, (((wSh (shw 1 31 1 2 0) id).fetched).sh 0).reg 2, (ShOp.sum (31) (1) (2),
    Instr.sum (0), ((((wSh (shw 1 31 1 2 0) id).fetched).sh 0).reg 1) + ((((wSh (shw 1 31 1 2 0) id).fetched).sh 0).reg 2)),
      by repeat' first | exact rfl | decide +kernel | refine And.intro ?_ ?_⟩

theorem witness_ShuttleBranchesAndJumps :
    (∃ (st : State), ∃ (s : Nat), ∃ (w : Word), ∃ (d : Dev), ∃ (ra : Nat), ∃ (rb : Nat), ∃ (k : Nat), ∃ (x : Shuttle), ∃ (a : BitVec
    64), ∃ (b : BitVec 64), ∃ c, (c ∈ [(ShOp.ifeq ra rb k, Instr.ifeq s, decide (a = b)), (.ifne ra rb k, .ifne s, decide (a ≠ b)),
    (.iflt ra rb k, .iflt s, decide (a.toInt < b.toInt)), (.ifge ra rb k, .ifge s, decide (b.toInt ≤ a.toInt)), (.iflo ra rb k,
    .iflo s, decide (a.toNat < b.toNat)), (.ifhs ra rb k, .ifhs s, decide (b.toNat ≤ a.toNat))]) ∧ (st.dev.on = true) ∧
    (st.dev.shGets d s w) ∧ (x = d.sh s) ∧ (a = x.reg ra) ∧ (b = x.reg rb) ∧ (shDecode w = some c.1)) ∧
    (∃ (st : State), ∃ (s : Nat), ∃ (w : Word), ∃ (d : Dev), ∃ (rd : Nat), ∃ (ra : Nat), ∃ (rb : Nat), ∃ (k : Nat), ∃ (x : Shuttle), ∃
    (a : BitVec 64), ∃ (b : BitVec 64), (st.dev.on = true) ∧ (st.dev.shGets d s w) ∧ (x = d.sh s) ∧ (a = x.reg ra) ∧ (b = x.reg rb)
    ∧ (shDecode w = some (.leap rd k))) ∧
    (∃ (st : State), ∃ (s : Nat), ∃ (w : Word), ∃ (d : Dev), ∃ (rd : Nat), ∃ (ra : Nat), ∃ (rb : Nat), ∃ (k : Nat), ∃ (x : Shuttle), ∃
    (a : BitVec 64), ∃ (b : BitVec 64), (st.dev.on = true) ∧ (st.dev.shGets d s w) ∧ (x = d.sh s) ∧ (a = x.reg ra) ∧ (b = x.reg rb)
    ∧ (shDecode w = some (.via rd ra k))) := by
  refine ⟨⟨wSh (BitVec.ofNat 32 (10 * 2 ^ 27 + 0 * 2 ^ 24 + 1 * 2 ^ 19 + 2 * 2 ^ 14 + 0x3FFF)) id, 0, BitVec.ofNat 32 (10 * 2 ^ 27 + 0 * 2 ^
    24 + 1 * 2 ^ 19 + 2 * 2 ^ 14 + 0x3FFF), (wSh (BitVec.ofNat 32 (10 * 2 ^ 27 + 0 * 2 ^ 24 + 1 * 2 ^ 19 + 2 * 2 ^ 14 + 0x3FFF))
    id).fetched, 1, 2, 0x3FFF, ((wSh (BitVec.ofNat 32 (10 * 2 ^ 27 + 0 * 2 ^ 24 + 1 * 2 ^ 19 + 2 * 2 ^ 14 + 0x3FFF)) id).fetched).sh
    0, (((wSh (BitVec.ofNat 32 (10 * 2 ^ 27 + 0 * 2 ^ 24 + 1 * 2 ^ 19 + 2 * 2 ^ 14 + 0x3FFF)) id).fetched).sh 0).reg 1, (((wSh
    (BitVec.ofNat 32 (10 * 2 ^ 27 + 0 * 2 ^ 24 + 1 * 2 ^ 19 + 2 * 2 ^ 14 + 0x3FFF)) id).fetched).sh 0).reg 2, (ShOp.ifeq (1) (2)
    (0x3FFF), Instr.ifeq (0), decide (((((wSh (BitVec.ofNat 32 (10 * 2 ^ 27 + 0 * 2 ^ 24 + 1 * 2 ^ 19 + 2 * 2 ^ 14 + 0x3FFF))
    id).fetched).sh 0).reg 1) = ((((wSh (BitVec.ofNat 32 (10 * 2 ^ 27 + 0 * 2 ^ 24 + 1 * 2 ^ 19 + 2 * 2 ^ 14 + 0x3FFF))
    id).fetched).sh 0).reg 2))),
      by repeat' first | exact rfl | decide +kernel | refine And.intro ?_ ?_⟩,
    ⟨wSh (BitVec.ofNat 32 (11 * 2 ^ 27 + 31 * 2 ^ 22 + 0x3FFFFF)) id, 0, BitVec.ofNat 32 (11 * 2 ^ 27 + 31 * 2 ^ 22 + 0x3FFFFF), (wSh
    (BitVec.ofNat 32 (11 * 2 ^ 27 + 31 * 2 ^ 22 + 0x3FFFFF)) id).fetched, 31, 0, 0, 0x3FFFFF, ((wSh (BitVec.ofNat 32 (11 * 2 ^ 27 +
    31 * 2 ^ 22 + 0x3FFFFF)) id).fetched).sh 0, (((wSh (BitVec.ofNat 32 (11 * 2 ^ 27 + 31 * 2 ^ 22 + 0x3FFFFF)) id).fetched).sh
    0).reg 0, (((wSh (BitVec.ofNat 32 (11 * 2 ^ 27 + 31 * 2 ^ 22 + 0x3FFFFF)) id).fetched).sh 0).reg 0,
      by repeat' first | exact rfl | decide +kernel | refine And.intro ?_ ?_⟩,
    ⟨wSh (shw 12 31 2 31 0xFFF) id, 0, shw 12 31 2 31 0xFFF, (wSh (shw 12 31 2 31 0xFFF) id).fetched, 31, 2, 0, 0x1FFFF, ((wSh (shw 12
    31 2 31 0xFFF) id).fetched).sh 0, (((wSh (shw 12 31 2 31 0xFFF) id).fetched).sh 0).reg 2, (((wSh (shw 12 31 2 31 0xFFF)
    id).fetched).sh 0).reg 0,
      by repeat' first | exact rfl | decide +kernel | refine And.intro ?_ ?_⟩⟩

theorem witness_ShuttleMeasureDatapath_1 :
    (∃ (st : State), ∃ (s : Nat), ∃ (w : Word), ∃ (d : Dev), ∃ (x : Shuttle), ∃ (sat : Bool), ∃ (acc : Nat), ∃ (xo : Nat), ∃ (yo : Nat),
    ∃ (xp : Nat), ∃ (yp : Nat), ∃ (xw : Word), ∃ (yw : Word), ∃ (lo : Int), ∃ (hi : Int), ∃ (f : Dev), ∃ (g : Dev), ∃ (y : Shuttle),
    ∃ c, (c ∈ [(ShOp.macd sat acc xo yo xp yp, Instr.macd s, y.accPut sat acc (y.accInt acc + lo + hi)), (.macp sat acc xo yo xp yp,
    .macp s, (y.accPut sat acc (y.accInt acc + lo)).accPut sat (acc ^^^ 1) (y.accInt (acc ^^^ 1) + hi))]) ∧ (st.dev.on = true) ∧
    (st.dev.shGets d s w) ∧ (x = d.sh s) ∧ (d.macWord s (x.reg xp) = (f, .ok xw)) ∧ (f.macWord s (x.reg yp) = (g, .ok yw)) ∧ (y =
    g.sh s) ∧ (lo = sgn 16 xw.toNat * sgn 16 yw.toNat) ∧ (hi = sgn 16 (xw.toNat / 65536) * sgn 16 (yw.toNat / 65536)) ∧ (shDecode w
    = some c.1)) ∧
    (∃ (st : State), ∃ (s : Nat), ∃ (w : Word), ∃ (d : Dev), ∃ (x : Shuttle), ∃ (rd : Nat), ∃ (acc : Nat), ∃ (wd : Nat), ∃ (shift :
    Nat), ∃ (sat : Bool), (st.dev.on = true) ∧ (st.dev.shGets d s w) ∧ (x = d.sh s) ∧ (shDecode w = some (.ext rd sat wd acc
    shift))) := by
  refine ⟨⟨macS, 0, macW, macS.fetched, macS.fetched.sh 0, false, 3, 7, 6, 3, 4, 0xFFFF0005, 0x00030002, 10, -3, macF, macG, macG.sh 0,
    (ShOp.macd (false) (3) (7) (6) (3) (4), Instr.macd (0), (macG.sh 0).accPut (false) (3) ((macG.sh 0).accInt (3) + (10) + (-3))),
      by repeat' first | decide +kernel | (refine @of_decide_eq_true _ (decExc _ _) ?_; decide +kernel) | refine pairFst ?_ | refine Prod.ext (Eq.refl _) ?_ | exact rfl | refine And.intro ?_ ?_⟩,
    ⟨wAcc (extW), 0, extW, (wAcc (extW)).fetched, ((wAcc (extW)).fetched).sh 0, 31, 3, 2, 63, true,
      by repeat' first | decide +kernel | (refine @of_decide_eq_true _ (decExc _ _) ?_; decide +kernel) | refine pairFst ?_ | refine Prod.ext (Eq.refl _) ?_ | exact rfl | refine And.intro ?_ ?_⟩⟩

theorem witness_ShuttleMeasureDatapath_2 :
    (∃ (st : State), ∃ (s : Nat), ∃ (w : Word), ∃ (d : Dev), ∃ (x : Shuttle), ∃ rd, ∃ acc, (st.dev.on = true) ∧ (st.dev.shGets d s w) ∧
    (x = d.sh s) ∧ (shDecode w = some (.mva rd acc))) ∧
    (∃ (st : State), ∃ (s : Nat), ∃ (w : Word), ∃ (d : Dev), ∃ (x : Shuttle), ∃ acc, (st.dev.on = true) ∧ (st.dev.shGets d s w) ∧ (x =
    d.sh s) ∧ (shDecode w = some (.clra acc))) := by
  refine ⟨⟨wAcc (BitVec.ofNat 32 (20 * 2 ^ 27 + 31 * 2 ^ 22 + 3 * 2 ^ 17)), 0, BitVec.ofNat 32 (20 * 2 ^ 27 + 31 * 2 ^ 22 + 3 * 2 ^ 17), (wAcc
    (BitVec.ofNat 32 (20 * 2 ^ 27 + 31 * 2 ^ 22 + 3 * 2 ^ 17))).fetched, ((wAcc (BitVec.ofNat 32 (20 * 2 ^ 27 + 31 * 2 ^ 22 + 3 * 2
    ^ 17))).fetched).sh 0, 31, 3,
      by repeat' first | decide +kernel | (refine @of_decide_eq_true _ (decExc _ _) ?_; decide +kernel) | refine pairFst ?_ | refine Prod.ext (Eq.refl _) ?_ | exact rfl | refine And.intro ?_ ?_⟩,
    ⟨wAcc (BitVec.ofNat 32 (19 * 2 ^ 27 + 3 * 2 ^ 17)), 0, BitVec.ofNat 32 (19 * 2 ^ 27 + 3 * 2 ^ 17), (wAcc (BitVec.ofNat 32 (19 * 2 ^
    27 + 3 * 2 ^ 17))).fetched, ((wAcc (BitVec.ofNat 32 (19 * 2 ^ 27 + 3 * 2 ^ 17))).fetched).sh 0, 3,
      by repeat' first | decide +kernel | (refine @of_decide_eq_true _ (decExc _ _) ?_; decide +kernel) | refine pairFst ?_ | refine Prod.ext (Eq.refl _) ?_ | exact rfl | refine And.intro ?_ ?_⟩⟩

theorem witness_ShuttleMeasureDatapath_3 :
    (∃ (st : State), ∃ (s : Nat), ∃ (w : Word), ∃ (d : Dev), ∃ (x : Shuttle), ∃ acc, ∃ ra, (st.dev.on = true) ∧ (st.dev.shGets d s w) ∧
    (x = d.sh s) ∧ (shDecode w = some (.mvta acc ra))) ∧
    (∃ (st : State), ∃ (s : Nat), ∃ (w : Word), ∃ (d : Dev), ∃ (x : Shuttle), ∃ o, ∃ ra, (st.dev.on = true) ∧ (st.dev.shGets d s w) ∧ (x
    = d.sh s) ∧ (shDecode w = some (.ldo o ra))) := by
  refine ⟨⟨wAcc (shw 21 3 2 0 0), 0, shw 21 3 2 0 0, (wAcc (shw 21 3 2 0 0)).fetched, ((wAcc (shw 21 3 2 0 0)).fetched).sh 0, 3, 2,
      by repeat' first | decide +kernel | (refine @of_decide_eq_true _ (decExc _ _) ?_; decide +kernel) | refine pairFst ?_ | refine Prod.ext (Eq.refl _) ?_ | exact rfl | refine And.intro ?_ ?_⟩,
    ⟨wAcc (shw 22 7 2 0 0), 0, shw 22 7 2 0 0, (wAcc (shw 22 7 2 0 0)).fetched, ((wAcc (shw 22 7 2 0 0)).fetched).sh 0, 7, 2,
      by repeat' first | decide +kernel | (refine @of_decide_eq_true _ (decExc _ _) ?_; decide +kernel) | refine pairFst ?_ | refine Prod.ext (Eq.refl _) ?_ | exact rfl | refine And.intro ?_ ?_⟩⟩

theorem witness_ShuttleLoadsAndStores_1 :
    (∃ (st : State), ∃ (s : Nat), ∃ (w : Word), ∃ (d : Dev), ∃ (x : Shuttle), ∃ (rt : Nat), ∃ (ra : Nat), ∃ (sz : Nat), ∃ (disp : Nat),
    ∃ (bs : List Byte), ∃ (f : Dev), (st.dev.on = true) ∧ (st.dev.shGets d s w) ∧ (x = d.sh s) ∧ (shDecode w = some (.get rt ra sz
    disp)) ∧ (d.shLoad s (x.reg ra + sext 14 disp) (szBytes sz) = (f, .ok bs))) :=
  ⟨wShD (BitVec.ofNat 32 (8 * 2 ^ 27 + 31 * 2 ^ 22 + 2 * 2 ^ 17 + 0 * 2 ^ 14 + 0x3FFD)) id (fun d => d.setBytes 64 [0x81, 0x82, 0x83,
    0x84, 5, 6, 7, 0x88]) [], 0, BitVec.ofNat 32 (8 * 2 ^ 27 + 31 * 2 ^ 22 + 2 * 2 ^ 17 + 0 * 2 ^ 14 + 0x3FFD), (wShD (BitVec.ofNat
    32 (8 * 2 ^ 27 + 31 * 2 ^ 22 + 2 * 2 ^ 17 + 0 * 2 ^ 14 + 0x3FFD)) id (fun d => d.setBytes 64 [0x81, 0x82, 0x83, 0x84, 5, 6, 7,
    0x88]) []).fetched, ((wShD (BitVec.ofNat 32 (8 * 2 ^ 27 + 31 * 2 ^ 22 + 2 * 2 ^ 17 + 0 * 2 ^ 14 + 0x3FFD)) id (fun d =>
    d.setBytes 64 [0x81, 0x82, 0x83, 0x84, 5, 6, 7, 0x88]) []).fetched).sh 0, 31, 2, 0, 0x3FFD, okOf (((wShD (BitVec.ofNat 32 (8 * 2
    ^ 27 + 31 * 2 ^ 22 + 2 * 2 ^ 17 + 0 * 2 ^ 14 + 0x3FFD)) id (fun d => d.setBytes 64 [0x81, 0x82, 0x83, 0x84, 5, 6, 7, 0x88])
    []).fetched).shLoad 0 64 (szBytes 0)), (((wShD (BitVec.ofNat 32 (8 * 2 ^ 27 + 31 * 2 ^ 22 + 2 * 2 ^ 17 + 0 * 2 ^ 14 + 0x3FFD))
    id (fun d => d.setBytes 64 [0x81, 0x82, 0x83, 0x84, 5, 6, 7, 0x88]) []).fetched).shLoad 0 64 (szBytes 0)).1,
      by repeat' first | decide +kernel | (refine @of_decide_eq_true _ (decExc _ _) ?_; decide +kernel) | refine pairFst ?_ | refine Prod.ext (Eq.refl _) ?_ | exact rfl | refine And.intro ?_ ?_⟩

theorem witness_ShuttleLoadsAndStores_2 :
    (∃ (st : State), ∃ (s : Nat), ∃ (w : Word), ∃ (d : Dev), ∃ (x : Shuttle), ∃ (rt : Nat), ∃ (ra : Nat), ∃ (sz : Nat), ∃ (disp : Nat),
    ∃ (f : Dev), (st.dev.on = true) ∧ (st.dev.shGets d s w) ∧ (x = d.sh s) ∧ (shDecode w = some (.sto rt ra sz disp)) ∧ (d.shStore s
    (x.reg ra + sext 14 disp) (leBytes (szBytes sz) (x.reg rt).toNat) = (f, none))) :=
  ⟨wSh (BitVec.ofNat 32 (9 * 2 ^ 27 + 1 * 2 ^ 22 + 2 * 2 ^ 17 + 3 * 2 ^ 14 + 0x3FFD)) id, 0, BitVec.ofNat 32 (9 * 2 ^ 27 + 1 * 2 ^ 22
    + 2 * 2 ^ 17 + 3 * 2 ^ 14 + 0x3FFD), (wSh (BitVec.ofNat 32 (9 * 2 ^ 27 + 1 * 2 ^ 22 + 2 * 2 ^ 17 + 3 * 2 ^ 14 + 0x3FFD))
    id).fetched, ((wSh (BitVec.ofNat 32 (9 * 2 ^ 27 + 1 * 2 ^ 22 + 2 * 2 ^ 17 + 3 * 2 ^ 14 + 0x3FFD)) id).fetched).sh 0, 1, 2, 3,
    0x3FFD, (((wSh (BitVec.ofNat 32 (9 * 2 ^ 27 + 1 * 2 ^ 22 + 2 * 2 ^ 17 + 3 * 2 ^ 14 + 0x3FFD)) id).fetched).shStore 0 64 (leBytes
    8 (2 ^ 63 + 5))).1,
      by repeat' first | decide +kernel | (refine @of_decide_eq_true _ (decExc _ _) ?_; decide +kernel) | refine pairFst ?_ | refine Prod.ext (Eq.refl _) ?_ | exact rfl | refine And.intro ?_ ?_⟩

theorem witness_ShuttleLoadsAndStores_3 :
    (∃ (st : State), ∃ (s : Nat), ∃ (w : Word), ∃ (d : Dev), ∃ (x : Shuttle), ∃ (rt : Nat), ∃ (ra : Nat), ∃ (sz : Nat), ∃ (disp : Nat),
    ∃ (a : Nat), (st.dev.on = true) ∧ (st.dev.shGets d s w) ∧ (x = d.sh s) ∧ (shDecode w = some (.sto rt ra sz disp)) ∧ (a = (x.reg
    ra + sext 14 disp).toNat) ∧ (a % szBytes sz = 0) ∧ (regionOf a = .tablet) ∧ (buffered s a = false) ∧ (d.shBlocked s a = false) ∧
    (d.passes s gkWRITE a)) :=
  ⟨wSh (BitVec.ofNat 32 (9 * 2 ^ 27 + 1 * 2 ^ 22 + 3 * 2 ^ 17 + 3 * 2 ^ 14 + 0)) (fun x =>
    { x with g := [(1, BitVec.ofNat 64 (2 ^ 63 + 5)), (3, BitVec.ofNat 64 tabletBase)] }), 0, BitVec.ofNat 32 (9 * 2 ^ 27 + 1 * 2 ^
    22 + 3 * 2 ^ 17 + 3 * 2 ^ 14 + 0), (wSh (BitVec.ofNat 32 (9 * 2 ^ 27 + 1 * 2 ^ 22 + 3 * 2 ^ 17 + 3 * 2 ^ 14 + 0)) (fun x =>
    { x with g := [(1, BitVec.ofNat 64 (2 ^ 63 + 5)), (3, BitVec.ofNat 64 tabletBase)] })).fetched, ((wSh (BitVec.ofNat 32 (9 * 2 ^
    27 + 1 * 2 ^ 22 + 3 * 2 ^ 17 + 3 * 2 ^ 14 + 0)) (fun x =>
    { x with g := [(1, BitVec.ofNat 64 (2 ^ 63 + 5)), (3, BitVec.ofNat 64 tabletBase)] })).fetched).sh 0, 1, 3, 3, 0, tabletBase,
      by repeat' first | decide +kernel | (refine @of_decide_eq_true _ (decExc _ _) ?_; decide +kernel) | refine pairFst ?_ | refine Prod.ext (Eq.refl _) ?_ | exact rfl | refine And.intro ?_ ?_⟩

theorem witness_ShuttleLoadsAndStores_4 :
    (∃ (st : State), ∃ (s : Nat), ∃ (w : Word), ∃ (d : Dev), ∃ (x : Shuttle), ∃ (rt : Nat), ∃ (ra : Nat), ∃ (sz : Nat), ∃ (disp : Nat),
    ∃ (a : Nat), (st.dev.on = true) ∧ (st.dev.shGets d s w) ∧ (x = d.sh s) ∧ (shDecode w = some (.sto rt ra sz disp)) ∧ (a = (x.reg
    ra + sext 14 disp).toNat) ∧ (a % szBytes sz = 0) ∧ (buffered s a = true) ∧ (d.shBlocked s a = false) ∧ (d.passes s gkWRITE a) ∧
    (a < 2 ^ 48) ∧ ((regionOf a = .regs → szBytes sz = 4)) ∧ (x.wbuf.length < 8)) :=
  ⟨wSh (BitVec.ofNat 32 (9 * 2 ^ 27 + 1 * 2 ^ 22 + 3 * 2 ^ 17 + 3 * 2 ^ 14 + 0)) (fun x =>
    { x with g := [(1, BitVec.ofNat 64 (2 ^ 63 + 5)), (3, BitVec.ofNat 64 (tabletBase + 0x40000))] }), 0, BitVec.ofNat 32 (9 * 2 ^
    27 + 1 * 2 ^ 22 + 3 * 2 ^ 17 + 3 * 2 ^ 14 + 0), (wSh (BitVec.ofNat 32 (9 * 2 ^ 27 + 1 * 2 ^ 22 + 3 * 2 ^ 17 + 3 * 2 ^ 14 + 0))
    (fun x => { x with g := [(1, BitVec.ofNat 64 (2 ^ 63 + 5)), (3, BitVec.ofNat 64 (tabletBase + 0x40000))] })).fetched, ((wSh
    (BitVec.ofNat 32 (9 * 2 ^ 27 + 1 * 2 ^ 22 + 3 * 2 ^ 17 + 3 * 2 ^ 14 + 0)) (fun x =>
    { x with g := [(1, BitVec.ofNat 64 (2 ^ 63 + 5)), (3, BitVec.ofNat 64 (tabletBase + 0x40000))] })).fetched).sh 0, 1, 3, 3, 0,
    tabletBase + 0x40000,
      by repeat' first | decide +kernel | (refine @of_decide_eq_true _ (decExc _ _) ?_; decide +kernel) | refine pairFst ?_ | refine Prod.ext (Eq.refl _) ?_ | exact rfl | refine And.intro ?_ ?_⟩

theorem witness_ShuttleLoadsAndStores_5 :
    (∃ (st : State), ∃ (s : Nat), ∃ (w : Word), ∃ (d : Dev), ∃ (x : Shuttle), ∃ (rt : Nat), ∃ (ra : Nat), ∃ (sz : Nat), ∃ (disp : Nat),
    ∃ (a : Nat), ∃ (l : CLine), (st.dev.on = true) ∧ (st.dev.shGets d s w) ∧ (x = d.sh s) ∧ (shDecode w = some (.sto rt ra sz disp))
    ∧ (a = (x.reg ra + sext 14 disp).toNat) ∧ (a % szBytes sz = 0) ∧ (regionOf a = .hbm) ∧ (d.passes s gkWRITE a) ∧ (findLine
    x.dcache (a / 64) = some l)) :=
  ⟨wSh (BitVec.ofNat 32 (9 * 2 ^ 27 + 1 * 2 ^ 22 + 2 * 2 ^ 17 + 3 * 2 ^ 14 + 0x3FFD)) (fun x =>
    { x with dcache := [⟨1, 0, 0, false⟩] }), 0, BitVec.ofNat 32 (9 * 2 ^ 27 + 1 * 2 ^ 22 + 2 * 2 ^ 17 + 3 * 2 ^ 14 + 0x3FFD), (wSh
    (BitVec.ofNat 32 (9 * 2 ^ 27 + 1 * 2 ^ 22 + 2 * 2 ^ 17 + 3 * 2 ^ 14 + 0x3FFD)) (fun x =>
    { x with dcache := [⟨1, 0, 0, false⟩] })).fetched, ((wSh (BitVec.ofNat 32 (9 * 2 ^ 27 + 1 * 2 ^ 22 + 2 * 2 ^ 17 + 3 * 2 ^ 14 +
    0x3FFD)) (fun x => { x with dcache := [⟨1, 0, 0, false⟩] })).fetched).sh 0, 1, 2, 3, 0x3FFD, 64, ⟨1, 0, 0, false⟩,
      by repeat' first | decide +kernel | (refine @of_decide_eq_true _ (decExc _ _) ?_; decide +kernel) | refine pairFst ?_ | refine Prod.ext (Eq.refl _) ?_ | exact rfl | refine And.intro ?_ ?_⟩

theorem witness_ShuttleLoadsAndStores_6 :
    (∃ (st : State), ∃ (s : Nat), ∃ (w : Word), ∃ (d : Dev), ∃ (x : Shuttle), ∃ (rt : Nat), ∃ (ra : Nat), ∃ (sz : Nat), ∃ (disp : Nat),
    ∃ c, (c ∈ [(ShOp.get rt ra sz disp, Instr.get s), (.sto rt ra sz disp, .sto s)]) ∧ (st.dev.on = true) ∧ (st.dev.shGets d s w) ∧
    (x = d.sh s) ∧ (d.shStalled s = false) ∧ (st.dev.shStalled s = false) ∧ (x.tvec ≠ 0) ∧ (x.fresh = false) ∧ ((x.reg ra + sext 14
    disp).toNat % szBytes sz ≠ 0) ∧ (shDecode w = some c.1)) :=
  ⟨wSh (BitVec.ofNat 32 (8 * 2 ^ 27 + 1 * 2 ^ 22 + 2 * 2 ^ 17 + 3 * 2 ^ 14 + 0)) id, 0, BitVec.ofNat 32 (8 * 2 ^ 27 + 1 * 2 ^ 22 + 2 *
    2 ^ 17 + 3 * 2 ^ 14 + 0), (wSh (BitVec.ofNat 32 (8 * 2 ^ 27 + 1 * 2 ^ 22 + 2 * 2 ^ 17 + 3 * 2 ^ 14 + 0)) id).fetched, ((wSh
    (BitVec.ofNat 32 (8 * 2 ^ 27 + 1 * 2 ^ 22 + 2 * 2 ^ 17 + 3 * 2 ^ 14 + 0)) id).fetched).sh 0, 1, 2, 3, 0, (ShOp.get (1) (2) (3)
    (0), Instr.get (0)),
      by repeat' first | decide +kernel | (refine @of_decide_eq_true _ (decExc _ _) ?_; decide +kernel) | refine pairFst ?_ | refine Prod.ext (Eq.refl _) ?_ | exact rfl | refine And.intro ?_ ?_⟩

theorem witness_ShuttleLoadsAndStores_7 :
    (∃ (st : State), ∃ (s : Nat), ∃ (w : Word), ∃ (d : Dev), ∃ (x : Shuttle), ∃ (f : Dev), (st.dev.on = true) ∧ (st.dev.shGets d s w) ∧
    (x = d.sh s) ∧ (shDecode w = some .fence) ∧ (d.hubd.hub.stopped = false) ∧ (d.shFence s = (f, none))) :=
  ⟨wSh (shw 31 0 0 0 2) (fun x => { x with dcache := [⟨1, 7, 1, false⟩] }), 0, shw 31 0 0 0 2, (wSh (shw 31 0 0 0 2) (fun x =>
    { x with dcache := [⟨1, 7, 1, false⟩] })).fetched, ((wSh (shw 31 0 0 0 2) (fun x =>
    { x with dcache := [⟨1, 7, 1, false⟩] })).fetched).sh 0, (((wSh (shw 31 0 0 0 2) (fun x =>
    { x with dcache := [⟨1, 7, 1, false⟩] })).fetched).shFence 0).1,
      by repeat' first | decide +kernel | (refine @of_decide_eq_true _ (decExc _ _) ?_; decide +kernel) | refine pairFst ?_ | refine Prod.ext (Eq.refl _) ?_ | exact rfl | refine And.intro ?_ ?_⟩

theorem witness_ShuttleLoadsAndStores_8 :
    (∃ (st : State), ∃ (s : Nat), ∃ (w : Word), ∃ (d : Dev), ∃ (x : Shuttle), ∃ (f : Dev), ∃ l, (l ∈ (f.sh s).dcache) ∧ (st.dev.on =
    true) ∧ (st.dev.shGets d s w) ∧ (x = d.sh s) ∧ (shDecode w = some .fence) ∧ (d.hubd.hub.stopped = false) ∧ (d.shFence s = (f,
    none))) :=
  ⟨wSh (shw 31 0 0 0 2) (fun x => { x with dcache := [⟨1, 7, 1, false⟩] }), 0, shw 31 0 0 0 2, (wSh (shw 31 0 0 0 2) (fun x =>
    { x with dcache := [⟨1, 7, 1, false⟩] })).fetched, ((wSh (shw 31 0 0 0 2) (fun x =>
    { x with dcache := [⟨1, 7, 1, false⟩] })).fetched).sh 0, (((wSh (shw 31 0 0 0 2) (fun x =>
    { x with dcache := [⟨1, 7, 1, false⟩] })).fetched).shFence 0).1, ⟨1, 7, 0, false⟩,
      by repeat' first | decide +kernel | (refine @of_decide_eq_true _ (decExc _ _) ?_; decide +kernel) | refine pairFst ?_ | refine Prod.ext (Eq.refl _) ?_ | exact rfl | refine And.intro ?_ ?_⟩

theorem witness_ShuttleLoadsAndStores_9 :
    (∃ (st : State), ∃ (s : Nat), ∃ (w : Word), ∃ (d : Dev), ∃ (x : Shuttle), ∃ (ra : Nat), ∃ (rb : Nat), ∃ (f : Dev), ∃ l, (l ∈ (f.sh
    s).dcache) ∧ (st.dev.on = true) ∧ (st.dev.shGets d s w) ∧ (x = d.sh s) ∧ (d.hubd.hub.stopped = false) ∧ (d.shClean s ra rb = (f,
    none)) ∧ (lineIn (x.reg ra) (x.reg rb) l.line = true)) :=
  ⟨wSh (shw 31 0 1 2 3) (fun x =>
    { x with g := [(1, 64), (2, 64)], dcache := [⟨1, 7, 1, false⟩, ⟨2, 7, 1, false⟩], icache := x.icache ++ [⟨1, 7, 0, false⟩] }),
    0, shw 31 0 1 2 3, (wSh (shw 31 0 1 2 3) (fun x =>
    { x with g := [(1, 64), (2, 64)], dcache := [⟨1, 7, 1, false⟩, ⟨2, 7, 1, false⟩], icache := x.icache ++ [⟨1, 7, 0, false⟩] })).fetched,
    ((wSh (shw 31 0 1 2 3) (fun x =>
    { x with g := [(1, 64), (2, 64)], dcache := [⟨1, 7, 1, false⟩, ⟨2, 7, 1, false⟩], icache := x.icache ++ [⟨1, 7, 0, false⟩] })).fetched).sh
    0, 1, 2, (((wSh (shw 31 0 1 2 3) (fun x =>
    { x with g := [(1, 64), (2, 64)], dcache := [⟨1, 7, 1, false⟩, ⟨2, 7, 1, false⟩], icache := x.icache ++ [⟨1, 7, 0, false⟩] })).fetched).shClean
    0 1 2).1, ⟨1, 7, 0, false⟩,
      by repeat' first | decide +kernel | (refine @of_decide_eq_true _ (decExc _ _) ?_; decide +kernel) | refine pairFst ?_ | refine Prod.ext (Eq.refl _) ?_ | exact rfl | refine And.intro ?_ ?_⟩

theorem witness_ShuttleLoadsAndStores_10 :
    (∃ (st : State), ∃ (s : Nat), ∃ (w : Word), ∃ (d : Dev), ∃ (x : Shuttle), ∃ (ra : Nat), ∃ (rb : Nat), ∃ (f : Dev), (st.dev.on =
    true) ∧ (st.dev.shGets d s w) ∧ (x = d.sh s) ∧ (d.hubd.hub.stopped = false) ∧ (d.shClean s ra rb = (f, none)) ∧ (shDecode w =
    some (.clean ra rb))) :=
  ⟨wSh (shw 31 0 1 2 3) (fun x =>
    { x with g := [(1, 64), (2, 64)], dcache := [⟨1, 7, 1, false⟩, ⟨2, 7, 1, false⟩], icache := x.icache ++ [⟨1, 7, 0, false⟩] }),
    0, shw 31 0 1 2 3, (wSh (shw 31 0 1 2 3) (fun x =>
    { x with g := [(1, 64), (2, 64)], dcache := [⟨1, 7, 1, false⟩, ⟨2, 7, 1, false⟩], icache := x.icache ++ [⟨1, 7, 0, false⟩] })).fetched,
    ((wSh (shw 31 0 1 2 3) (fun x =>
    { x with g := [(1, 64), (2, 64)], dcache := [⟨1, 7, 1, false⟩, ⟨2, 7, 1, false⟩], icache := x.icache ++ [⟨1, 7, 0, false⟩] })).fetched).sh
    0, 1, 2, (((wSh (shw 31 0 1 2 3) (fun x =>
    { x with g := [(1, 64), (2, 64)], dcache := [⟨1, 7, 1, false⟩, ⟨2, 7, 1, false⟩], icache := x.icache ++ [⟨1, 7, 0, false⟩] })).fetched).shClean
    0 1 2).1,
      by repeat' first | decide +kernel | (refine @of_decide_eq_true _ (decExc _ _) ?_; decide +kernel) | refine pairFst ?_ | refine Prod.ext (Eq.refl _) ?_ | exact rfl | refine And.intro ?_ ?_⟩

theorem witness_ShuttleLoadsAndStores_11 :
    (∃ (st : State), ∃ (s : Nat), ∃ (w : Word), ∃ (d : Dev), ∃ (x : Shuttle), ∃ (ra : Nat), ∃ (rb : Nat), ∃ (f : Dev), (st.dev.on =
    true) ∧ (st.dev.shGets d s w) ∧ (x = d.sh s) ∧ (d.hubd.hub.stopped = false) ∧ (d.shClean s ra rb = (f, none)) ∧ (shDecode w =
    some (.inval ra rb))) :=
  ⟨wSh (shw 31 0 1 2 4) (fun x =>
    { x with g := [(1, 64), (2, 64)], dcache := [⟨1, 7, 1, false⟩, ⟨2, 7, 1, false⟩], icache := x.icache ++ [⟨1, 7, 0, false⟩] }),
    0, shw 31 0 1 2 4, (wSh (shw 31 0 1 2 4) (fun x =>
    { x with g := [(1, 64), (2, 64)], dcache := [⟨1, 7, 1, false⟩, ⟨2, 7, 1, false⟩], icache := x.icache ++ [⟨1, 7, 0, false⟩] })).fetched,
    ((wSh (shw 31 0 1 2 4) (fun x =>
    { x with g := [(1, 64), (2, 64)], dcache := [⟨1, 7, 1, false⟩, ⟨2, 7, 1, false⟩], icache := x.icache ++ [⟨1, 7, 0, false⟩] })).fetched).sh
    0, 1, 2, (((wSh (shw 31 0 1 2 4) (fun x =>
    { x with g := [(1, 64), (2, 64)], dcache := [⟨1, 7, 1, false⟩, ⟨2, 7, 1, false⟩], icache := x.icache ++ [⟨1, 7, 0, false⟩] })).fetched).shClean
    0 1 2).1,
      by repeat' first | decide +kernel | (refine @of_decide_eq_true _ (decExc _ _) ?_; decide +kernel) | refine pairFst ?_ | refine Prod.ext (Eq.refl _) ?_ | exact rfl | refine And.intro ?_ ?_⟩

theorem witness_ShuttleLoadsAndStores_12 :
    (∃ (st : State), ∃ (s : Nat), ∃ (w : Word), ∃ (d : Dev), ∃ (x : Shuttle), ∃ (ra : Nat), ∃ (rb : Nat), (st.dev.on = true) ∧
    (st.dev.shGets d s w) ∧ (x = d.sh s) ∧ (x.wbuf = []) ∧ ((∀ l ∈ x.dcache, lineIn (x.reg ra) (x.reg rb) l.line = true → l.dirty =
    0))) :=
  ⟨wSh (shw 31 0 1 2 3) (fun x =>
    { x with g := [(1, 64), (2, 64)], dcache := [⟨1, 7, 0, false⟩, ⟨2, 7, 1, false⟩], icache := x.icache ++ [⟨1, 7, 0, false⟩] }),
    0, shw 31 0 1 2 3, (wSh (shw 31 0 1 2 3) (fun x =>
    { x with g := [(1, 64), (2, 64)], dcache := [⟨1, 7, 0, false⟩, ⟨2, 7, 1, false⟩], icache := x.icache ++ [⟨1, 7, 0, false⟩] })).fetched,
    ((wSh (shw 31 0 1 2 3) (fun x =>
    { x with g := [(1, 64), (2, 64)], dcache := [⟨1, 7, 0, false⟩, ⟨2, 7, 1, false⟩], icache := x.icache ++ [⟨1, 7, 0, false⟩] })).fetched).sh
    0, 1, 2,
      by repeat' first | decide +kernel | (refine @of_decide_eq_true _ (decExc _ _) ?_; decide +kernel) | refine pairFst ?_ | refine Prod.ext (Eq.refl _) ?_ | exact rfl | refine And.intro ?_ ?_⟩

theorem witness_ShuttleLoadsAndStores_13 :
    (∃ (st : State), ∃ (s : Nat), ∃ (w : Word), ∃ (d : Dev), ∃ (x : Shuttle), ∃ (ra : Nat), ∃ (rb : Nat), (st.dev.on = true) ∧
    (st.dev.shGets d s w) ∧ (x = d.sh s) ∧ (shDecode w = some (.iinv ra rb))) :=
  ⟨wSh (shw 31 0 1 2 5) (fun x =>
    { x with g := [(1, 64), (2, 64)], dcache := [⟨1, 7, 0, false⟩, ⟨2, 7, 1, false⟩], icache := x.icache ++ [⟨1, 7, 0, false⟩] }),
    0, shw 31 0 1 2 5, (wSh (shw 31 0 1 2 5) (fun x =>
    { x with g := [(1, 64), (2, 64)], dcache := [⟨1, 7, 0, false⟩, ⟨2, 7, 1, false⟩], icache := x.icache ++ [⟨1, 7, 0, false⟩] })).fetched,
    ((wSh (shw 31 0 1 2 5) (fun x =>
    { x with g := [(1, 64), (2, 64)], dcache := [⟨1, 7, 0, false⟩, ⟨2, 7, 1, false⟩], icache := x.icache ++ [⟨1, 7, 0, false⟩] })).fetched).sh
    0, 1, 2,
      by repeat' first | decide +kernel | (refine @of_decide_eq_true _ (decExc _ _) ?_; decide +kernel) | refine pairFst ?_ | refine Prod.ext (Eq.refl _) ?_ | exact rfl | refine And.intro ?_ ?_⟩

theorem witness_DirtyLinesReachMemory_1 :
    (∃ (d : Dev), ∃ (s : Nat), ∃ (a : Nat), ∃ (bs : List Byte), ∃ (fw : Bool), ∃ (t : List WbEnt), (d.hubd.hub.stopped = false) ∧ ((d.sh
    s).wbuf = ⟨a, pairsAt a bs, fw⟩ :: t) ∧ (regionOf a = .tablet) ∧ (bs.length ∈ [1, 2, 4, 8]) ∧ (a % bs.length = 0) ∧ (d.chk = [])
    ∧ (d.bad = [])) ∧
    (∃ (d : Dev), ∃ (f : Dev), ∃ (s : Nat), ∃ (l : CLine), ∃ (r : Option ShTrap), ∃ y, (y ∈ (f.sh s).dcache) ∧ (regionOf (64 * l.line) =
    .hbm) ∧ (d.writeBack s l = (f, r)) ∧ (l.dirty ≠ 0) ∧ (y.line = l.line)) ∧
    (∃ (d : Dev), ∃ (f : Dev), ∃ (s : Nat), ∃ (l : CLine), ∃ (r : Option ShTrap), ∃ j, (regionOf (64 * l.line) = .hbm) ∧ (d.writeBack s
    l = (f, r)) ∧ (j ≠ s)) ∧
    (∃ (d : Dev), ∃ (f : Dev), ∃ (s : Nat), ∃ (l : CLine), ∃ (r : Option ShTrap), (regionOf (64 * l.line) = .hbm) ∧ (d.writeBack s l =
    (f, r))) ∧
    (∃ (d : Dev), ∃ (f : Dev), ∃ (s : Nat), ∃ (l : CLine), ∃ (r : Option ShTrap), (regionOf (64 * l.line) = .hbm) ∧ (d.writeBack s l =
    (f, r)) ∧ (d.fixedRefusesAs (d.sh s).priv s gkWRITE (d.lineEnt s l).addr = false) ∧ (d.plat.hbmReady = true) ∧ (d.chk = []) ∧
    (d.bad = [])) ∧
    (∃ (d : Dev), ∃ (f : Dev), ∃ (s : Nat), ∃ (l : CLine), ∃ (r : Option ShTrap), ∃ i, (i < 64) ∧ (regionOf (64 * l.line) = .hbm) ∧
    (d.writeBack s l = (f, r)) ∧ (d.fixedRefusesAs (d.sh s).priv s gkWRITE (d.lineEnt s l).addr = false) ∧ (d.plat.hbmReady = true)
    ∧ (d.chk = []) ∧ (d.bad = []) ∧ (l.dirty.getLsbD i = true)) := by
  refine ⟨⟨(wSh 0 (fun x => { x with wbuf := [⟨tabletBase + 8, pairsAt (tabletBase + 8) [5, 6, 7, 8], true⟩] })).dev, 0, tabletBase + 8, [5,
    6, 7, 8], true, [],
      by repeat' first | exact rfl | decide +kernel | refine And.intro ?_ ?_⟩,
    ⟨(wSh 0 (fun x => { x with dcache := [⟨1, 7, 1, false⟩] })).dev, (((wSh 0 (fun x =>
    { x with dcache := [⟨1, 7, 1, false⟩] })).dev).writeBack 0 ⟨1, 7, 1, false⟩).1, 0, ⟨1, 7, 1, false⟩, none, ⟨1, 7, 0, false⟩,
      by repeat' first | exact rfl | decide +kernel | refine And.intro ?_ ?_⟩,
    ⟨(wSh 0 (fun x => { x with dcache := [⟨1, 7, 1, false⟩] })).dev, (((wSh 0 (fun x =>
    { x with dcache := [⟨1, 7, 1, false⟩] })).dev).writeBack 0 ⟨1, 7, 1, false⟩).1, 0, ⟨1, 7, 1, false⟩, none, 1,
      by repeat' first | exact rfl | decide +kernel | refine And.intro ?_ ?_⟩,
    ⟨(wSh 0 (fun x => { x with dcache := [⟨1, 7, 1, false⟩] })).dev, (((wSh 0 (fun x =>
    { x with dcache := [⟨1, 7, 1, false⟩] })).dev).writeBack 0 ⟨1, 7, 1, false⟩).1, 0, ⟨1, 7, 1, false⟩, none,
      by repeat' first | exact rfl | decide +kernel | refine And.intro ?_ ?_⟩,
    ⟨(wSh 0 (fun x => { x with dcache := [⟨1, 7, 1, false⟩] })).dev, (((wSh 0 (fun x =>
    { x with dcache := [⟨1, 7, 1, false⟩] })).dev).writeBack 0 ⟨1, 7, 1, false⟩).1, 0, ⟨1, 7, 1, false⟩, none,
      by repeat' first | exact rfl | decide +kernel | refine And.intro ?_ ?_⟩,
    ⟨(wSh 0 (fun x => { x with dcache := [⟨1, 7, 1, false⟩] })).dev, (((wSh 0 (fun x =>
    { x with dcache := [⟨1, 7, 1, false⟩] })).dev).writeBack 0 ⟨1, 7, 1, false⟩).1, 0, ⟨1, 7, 1, false⟩, none, 0,
      by repeat' first | exact rfl | decide +kernel | refine And.intro ?_ ?_⟩⟩

theorem witness_DirtyLinesReachMemory_2 :
    (∃ (d : Dev), ∃ (f : Dev), ∃ (s : Nat), ∃ (l : CLine), ∃ (r : Option ShTrap), ∃ a, (regionOf (64 * l.line) = .hbm) ∧ (d.writeBack s
    l = (f, r)) ∧ (d.fixedRefusesAs (d.sh s).priv s gkWRITE (d.lineEnt s l).addr = false) ∧ (d.plat.hbmReady = true) ∧ (d.chk = [])
    ∧ (d.bad = []) ∧ ((∀ i < 64, l.dirty.getLsbD i = true → a ≠ 64 * l.line + i))) ∧
    (∃ (d : Dev), ∃ (f : Dev), ∃ (s : Nat), ∃ (l : CLine), ∃ (r : Option ShTrap), (regionOf (64 * l.line) = .hbm) ∧ (d.writeBack s l =
    (f, r)) ∧ (d.fixedRefusesAs (d.sh s).priv s gkWRITE (d.lineEnt s l).addr = true) ∧ (l.dirty ≠ 0)) ∧
    (∃ (d : Dev), ∃ (f : Dev), ∃ (s : Nat), ∃ (l : CLine), ∃ (r : Option ShTrap), (regionOf (64 * l.line) = .hbm) ∧ (d.writeBack s l =
    (f, r)) ∧ (d.fixedRefusesAs (d.sh s).priv s gkWRITE (d.lineEnt s l).addr = true) ∧ (l.dirty ≠ 0)) := by
  refine ⟨⟨(wSh 0 (fun x => { x with dcache := [⟨1, 7, 1, false⟩] })).dev, (((wSh 0 (fun x =>
    { x with dcache := [⟨1, 7, 1, false⟩] })).dev).writeBack 0 ⟨1, 7, 1, false⟩).1, 0, ⟨1, 7, 1, false⟩, none, 65,
      by repeat' first | exact rfl | decide +kernel | refine And.intro ?_ ?_⟩,
    ⟨(wSh 0 (fun x => { x with dcache := [⟨spillBase / 64, 7, 1, false⟩] })).dev, (((wSh 0 (fun x =>
    { x with dcache := [⟨spillBase / 64, 7, 1, false⟩] })).dev).writeBack 0 ⟨spillBase / 64, 7, 1, false⟩).1, 0, ⟨spillBase / 64, 7,
    1, false⟩, some (cACCESS, BitVec.ofNat 64 spillBase),
      by repeat' first | exact rfl | decide +kernel | refine And.intro ?_ ?_⟩,
    ⟨(wSh 0 (fun x => { x with dcache := [⟨spillBase / 64, 7, 1, false⟩] })).dev, (((wSh 0 (fun x =>
    { x with dcache := [⟨spillBase / 64, 7, 1, false⟩] })).dev).writeBack 0 ⟨spillBase / 64, 7, 1, false⟩).1, 0, ⟨spillBase / 64, 7,
    1, false⟩, some (cACCESS, BitVec.ofNat 64 spillBase),
      by repeat' first | exact rfl | decide +kernel | refine And.intro ?_ ?_⟩⟩

theorem witness_ShuttleControlAndTraps_1 :
    (∃ (st : State), ∃ (s : Nat), ∃ (w : Word), ∃ (d : Dev), ∃ (x : Shuttle), ∃ (rd : Nat), ∃ c, (c ∈ [(0, BitVec.ofNat 64 (b2n x.priv +
    2 * b2n x.prior)), (1, x.tvec), (2, x.epc), (3, x.cause), (4, x.tval), (5, x.cwItem), (6, x.cwClass), (7, d.shCycles - x.cyc0),
    (8, d.tb.tb.setWidth 64), (9, x.ovf.setWidth 64), (10, BitVec.ofNat 64 s), (11, BitVec.ofNat 64 (b2n x.evt))]) ∧ (st.dev.on =
    true) ∧ (st.dev.shGets d s w) ∧ (x = d.sh s) ∧ (shDecode w = some (.rdcw rd c.1))) ∧
    (∃ (st : State), ∃ (s : Nat), ∃ (w : Word), ∃ (d : Dev), ∃ (x : Shuttle), ∃ (ra : Nat), ∃ c, (c ∈ [(1,
    { x with tvec := x.reg ra &&& ~~~3#64 }), (2, { x with epc := x.reg ra }), (3, { x with cause := x.reg ra }), (4,
    { x with tval := x.reg ra }), (5, { x with cwItem := x.reg ra }), (6, { x with cwClass := x.reg ra }), (7,
    { x with cyc0 := d.shCycles - x.reg ra }), (9, { x with ovf := (x.reg ra).setWidth 4 }), (11,
    { x with evt := (x.reg ra).getLsbD 0 })]) ∧ (st.dev.on = true) ∧ (st.dev.shGets d s w) ∧ (x = d.sh s) ∧ (x.priv = true) ∧
    (shDecode w = some (.wrcw ra c.1))) ∧
    (∃ (st : State), ∃ (s : Nat), ∃ (w : Word), ∃ (d : Dev), ∃ (x : Shuttle), ∃ (ra : Nat), (st.dev.on = true) ∧ (st.dev.shGets d s w) ∧
    (x = d.sh s) ∧ (shDecode w = some (.wrcw ra 9))) ∧
    (∃ (st : State), ∃ (s : Nat), ∃ (w : Word), ∃ (d : Dev), ∃ (x : Shuttle), ∃ (ra : Nat), (st.dev.on = true) ∧ (st.dev.shGets d s w) ∧
    (x = d.sh s) ∧ (shDecode w = some (.wrcw ra 0)) ∧ (x.priv = true)) ∧
    (∃ (st : State), ∃ (s : Nat), ∃ (w : Word), ∃ (d : Dev), ∃ (x : Shuttle), ∃ (ra : Nat), ∃ (cw : Nat), (st.dev.on = true) ∧
    (st.dev.shGets d s w) ∧ (x = d.sh s) ∧ (cw ∈ [8, 10]) ∧ (shDecode w = some (.wrcw ra cw)) ∧ (x.priv = true)) ∧
    (∃ (st : State), ∃ (s : Nat), ∃ (w : Word), ∃ (d : Dev), ∃ (x : Shuttle), ∃ (ra : Nat), (st.dev.on = true) ∧ (st.dev.shGets d s w) ∧
    (x = d.sh s) ∧ ((x.evt = true ∨ d.waitOver (x.reg ra) = true)) ∧ (shDecode w = some (.wait ra))) := by
  refine ⟨⟨wSh (shw 31 31 0 0 0) (fun x =>
    { x with epc := 3, cause := 4, tval := 5, cwItem := 6, cwClass := 7, ovf := 9, evt := true, prior := true }), 0, shw 31 31 0 0
    0, (wSh (shw 31 31 0 0 0) (fun x =>
    { x with epc := 3, cause := 4, tval := 5, cwItem := 6, cwClass := 7, ovf := 9, evt := true, prior := true })).fetched, ((wSh
    (shw 31 31 0 0 0) (fun x =>
    { x with epc := 3, cause := 4, tval := 5, cwItem := 6, cwClass := 7, ovf := 9, evt := true, prior := true })).fetched).sh 0, 31,
    (0, BitVec.ofNat 64 (b2n (((wSh (shw 31 31 0 0 0) (fun x =>
    { x with epc := 3, cause := 4, tval := 5, cwItem := 6, cwClass := 7, ovf := 9, evt := true, prior := true })).fetched).sh
    0).priv + 2 * b2n (((wSh (shw 31 31 0 0 0) (fun x =>
    { x with epc := 3, cause := 4, tval := 5, cwItem := 6, cwClass := 7, ovf := 9, evt := true, prior := true })).fetched).sh
    0).prior)),
      by repeat' first | exact rfl | decide +kernel | refine And.intro ?_ ?_⟩,
    ⟨wSh (shw 31 0 2 0 129) id, 0, shw 31 0 2 0 129, (wSh (shw 31 0 2 0 129) id).fetched, ((wSh (shw 31 0 2 0 129) id).fetched).sh 0, 2,
    (1,
    { (((wSh (shw 31 0 2 0 129) id).fetched).sh 0) with tvec := (((wSh (shw 31 0 2 0 129) id).fetched).sh 0).reg (2) &&& ~~~3#64 }),
      by repeat' first | exact rfl | decide +kernel | refine And.intro ?_ ?_⟩,
    ⟨wSh (shw 31 0 2 0 1153) (fun x => { x with priv := false }) |>.ofDev (fun d => d.setFld (F.GK_ENT0_PRIV.at (gkKey 0 0)) 0), 0, shw
    31 0 2 0 1153, (wSh (shw 31 0 2 0 1153) (fun x => { x with priv := false }) |>.ofDev (fun d => d.setFld (F.GK_ENT0_PRIV.at
    (gkKey 0 0)) 0)).fetched, ((wSh (shw 31 0 2 0 1153) (fun x => { x with priv := false }) |>.ofDev (fun d => d.setFld
    (F.GK_ENT0_PRIV.at (gkKey 0 0)) 0)).fetched).sh 0, 2,
      by repeat' first | exact rfl | decide +kernel | refine And.intro ?_ ?_⟩,
    ⟨wSh (shw 31 0 2 0 1) id, 0, shw 31 0 2 0 1, (wSh (shw 31 0 2 0 1) id).fetched, ((wSh (shw 31 0 2 0 1) id).fetched).sh 0, 2,
      by repeat' first | exact rfl | decide +kernel | refine And.intro ?_ ?_⟩,
    ⟨wSh (shw 31 0 2 0 1025) id, 0, shw 31 0 2 0 1025, (wSh (shw 31 0 2 0 1025) id).fetched, ((wSh (shw 31 0 2 0 1025) id).fetched).sh
    0, 2, 8,
      by repeat' first | exact rfl | decide +kernel | refine And.intro ?_ ?_⟩,
    ⟨wSh (shw 31 0 2 0 8) (fun x => { x with evt := true }), 0, shw 31 0 2 0 8, (wSh (shw 31 0 2 0 8) (fun x =>
    { x with evt := true })).fetched, ((wSh (shw 31 0 2 0 8) (fun x => { x with evt := true })).fetched).sh 0, 2,
      by repeat' first | exact rfl | decide +kernel | refine And.intro ?_ ?_⟩⟩

theorem witness_ShuttleControlAndTraps_2 :
    (∃ (st : State), ∃ (s : Nat), ∃ (w : Word), ∃ (d : Dev), ∃ (x : Shuttle), ∃ (ra : Nat), (st.dev.on = true) ∧ (st.dev.shGets d s w) ∧
    (x = d.sh s) ∧ (st.dev.shStalled s = false) ∧ (shDecode w = some (.wait ra)) ∧ (x.evt = false) ∧ (d.waitOver (x.reg ra) =
    false)) ∧
    (∃ (st : State), ∃ (s : Nat), ∃ (w : Word), ∃ (d : Dev), ∃ (x : Shuttle), (st.dev.on = true) ∧ (st.dev.shGets d s w) ∧ (x = d.sh s)
    ∧ (st.dev.shStalled s = false) ∧ (shDecode w = some .untrap) ∧ (x.priv = true)) ∧
    (∃ (st : State), ∃ (s : Nat), ∃ (w : Word), ∃ (d : Dev), ∃ (x : Shuttle), ∃ (rb : Nat), (st.dev.on = true) ∧ (st.dev.shGets d s w) ∧
    (x = d.sh s) ∧ (st.dev.shStalled s = false) ∧ (x.tvec ≠ 0) ∧ (x.fresh = false) ∧ (shDecode w = some (.trap rb))) ∧
    (∃ (st : State), ∃ (s : Nat), ∃ (w : Word), ∃ (d : Dev), ∃ (x : Shuttle), (st.dev.on = true) ∧ (st.dev.shGets d s w) ∧ (x = d.sh s)
    ∧ (st.dev.shStalled s = false) ∧ (x.tvec ≠ 0) ∧ (x.fresh = false) ∧ (shDecode w = none)) ∧
    (∃ (st : State), ∃ (s : Nat), ∃ (w : Word), ∃ (d : Dev), ∃ (x : Shuttle), ∃ (ra : Nat), ∃ (cw : Nat), ∃ c, (c ∈ [(ShOp.wrcw ra cw,
    Instr.wrcw s), (.untrap, .untrap s)]) ∧ (st.dev.on = true) ∧ (st.dev.shGets d s w) ∧ (x = d.sh s) ∧ (st.dev.shStalled s = false)
    ∧ (x.tvec ≠ 0) ∧ (x.fresh = false) ∧ (x.priv = false) ∧ (cw ≠ 9) ∧ (shDecode w = some c.1)) ∧
    (∃ (st : State), ∃ (s : Nat), ∃ (a : BitVec 64), (st.dev.on = true) ∧ ((st.dev.sh s).wait = some a) ∧ ((st.dev.sh s).evt = true)) := by
  refine ⟨⟨wSh (shw 31 0 0 0 8) id, 0, shw 31 0 0 0 8, (wSh (shw 31 0 0 0 8) id).fetched, ((wSh (shw 31 0 0 0 8) id).fetched).sh 0, 0,
      by repeat' first | exact rfl | decide +kernel | refine And.intro ?_ ?_⟩,
    ⟨wSh (shw 31 0 0 0 10) (fun x => { x with epc := 0x40, inTrap := true }), 0, shw 31 0 0 0 10, (wSh (shw 31 0 0 0 10) (fun x =>
    { x with epc := 0x40, inTrap := true })).fetched, ((wSh (shw 31 0 0 0 10) (fun x =>
    { x with epc := 0x40, inTrap := true })).fetched).sh 0,
      by repeat' first | exact rfl | decide +kernel | refine And.intro ?_ ?_⟩,
    ⟨wSh (shw 31 0 0 31 9) id, 0, shw 31 0 0 31 9, (wSh (shw 31 0 0 31 9) id).fetched, ((wSh (shw 31 0 0 31 9) id).fetched).sh 0, 31,
      by repeat' first | exact rfl | decide +kernel | refine And.intro ?_ ?_⟩,
    ⟨wSh 0xFFFFFFFF id, 0, 0xFFFFFFFF, (wSh 0xFFFFFFFF id).fetched, ((wSh 0xFFFFFFFF id).fetched).sh 0,
      by repeat' first | exact rfl | decide +kernel | refine And.intro ?_ ?_⟩,
    ⟨wShD (shw 31 0 2 0 1) (fun x => { x with priv := false }) id [(F.GK_ENT0_PRIV.at (gkKey 0 0), 0)], 0, shw 31 0 2 0 1, (wShD (shw 31
    0 2 0 1) (fun x => { x with priv := false }) id [(F.GK_ENT0_PRIV.at (gkKey 0 0), 0)]).fetched, ((wShD (shw 31 0 2 0 1) (fun x =>
    { x with priv := false }) id [(F.GK_ENT0_PRIV.at (gkKey 0 0), 0)]).fetched).sh 0, 2, 0, (ShOp.wrcw (2) (0), Instr.wrcw (0)),
      by repeat' first | exact rfl | decide +kernel | refine And.intro ?_ ?_⟩,
    ⟨wSh 0 (fun x => { x with wait := some 0, evt := true }), 0, 0,
      by repeat' first | exact rfl | decide +kernel | refine And.intro ?_ ?_⟩⟩

theorem witness_ShuttleControlAndTraps_3 :
    (∃ (st : State), ∃ (s : Nat), ∃ (a : BitVec 64), (st.dev.on = true) ∧ ((st.dev.sh s).wait = some a) ∧ ((st.dev.sh s).evt = false) ∧
    (st.dev.waitOver a = false)) :=
  ⟨wSh 0 (fun x => { x with wait := some 0 }), 0, 0,
      by repeat' first | exact rfl | decide +kernel | refine And.intro ?_ ?_⟩

theorem witness_ItemsArePostedAndDone_1 :
    (∃ (st : State), ∃ (s : Nat), ∃ (rd : Nat), ∃ (ra : Nat), ∃ (w : Word), ∃ (d : Dev), ∃ (f : Dev), ∃ (x : Shuttle), ∃ (bs : List
    Byte), ∃ (q : BitVec 256), (st.dev.on = true) ∧ (st.dev.shGets d s w) ∧ (x = f.sh s) ∧ (shDecode w = some (.post rd ra)) ∧
    (d.shLoad32 s ((d.sh s).reg ra) = (f, .ok bs)) ∧ (q = BitVec.ofNat 256 (leNat bs)) ∧ ((Desc.priv q = false ∨ x.priv = true)) ∧
    (Desc.clean q = true) ∧ (f.eligible q ≠ []) ∧ (f.storeFull = false)) ∧
    (∃ (st : State), ∃ (s : Nat), ∃ (rd : Nat), ∃ (ra : Nat), ∃ (w : Word), ∃ (d : Dev), ∃ (f : Dev), ∃ (x : Shuttle), ∃ (bs : List
    Byte), ∃ (q : BitVec 256), (st.dev.on = true) ∧ (st.dev.shGets d s w) ∧ (x = f.sh s) ∧ (shDecode w = some (.post rd ra)) ∧
    (d.shLoad32 s ((d.sh s).reg ra) = (f, .ok bs)) ∧ (q = BitVec.ofNat 256 (leNat bs)) ∧ ((Desc.priv q = false ∨ x.priv = true)) ∧
    ((Desc.clean q = false ∨ f.eligible q = [])) ∧ (f.log.queue.length < 64)) := by
  refine ⟨⟨wShD (shw 31 31 2 0 6) (fun x => { x with g := [(2, 64)] }) (fun d => d.setBytes 64 (leBytes 32 (descOf 0).toNat)) [], 0, 31, 2,
    shw 31 31 2 0 6, (wShD (shw 31 31 2 0 6) (fun x => { x with g := [(2, 64)] }) (fun d => d.setBytes 64 (leBytes 32 (descOf
    0).toNat)) []).fetched, (((wShD (shw 31 31 2 0 6) (fun x => { x with g := [(2, 64)] }) (fun d => d.setBytes 64 (leBytes 32
    (descOf 0).toNat)) []).fetched).shLoad32 0 ((((wShD (shw 31 31 2 0 6) (fun x => { x with g := [(2, 64)] }) (fun d => d.setBytes
    64 (leBytes 32 (descOf 0).toNat)) []).fetched).sh 0).reg 2)).1, ((((wShD (shw 31 31 2 0 6) (fun x => { x with g := [(2, 64)] })
    (fun d => d.setBytes 64 (leBytes 32 (descOf 0).toNat)) []).fetched).shLoad32 0 ((((wShD (shw 31 31 2 0 6) (fun x =>
    { x with g := [(2, 64)] }) (fun d => d.setBytes 64 (leBytes 32 (descOf 0).toNat)) []).fetched).sh 0).reg 2)).1).sh 0, okOf
    (((wShD (shw 31 31 2 0 6) (fun x => { x with g := [(2, 64)] }) (fun d => d.setBytes 64 (leBytes 32 (descOf 0).toNat))
    []).fetched).shLoad32 0 ((((wShD (shw 31 31 2 0 6) (fun x => { x with g := [(2, 64)] }) (fun d => d.setBytes 64 (leBytes 32
    (descOf 0).toNat)) []).fetched).sh 0).reg 2)), BitVec.ofNat 256 (leNat (okOf (((wShD (shw 31 31 2 0 6) (fun x =>
    { x with g := [(2, 64)] }) (fun d => d.setBytes 64 (leBytes 32 (descOf 0).toNat)) []).fetched).shLoad32 0 ((((wShD (shw 31 31 2
    0 6) (fun x => { x with g := [(2, 64)] }) (fun d => d.setBytes 64 (leBytes 32 (descOf 0).toNat)) []).fetched).sh 0).reg 2)))),
      by repeat' first | decide +kernel | (refine @of_decide_eq_true _ (decExc _ _) ?_; decide +kernel) | refine pairFst ?_ | refine Prod.ext (Eq.refl _) ?_ | exact rfl | refine And.intro ?_ ?_⟩,
    ⟨wShD (shw 31 31 2 0 6) (fun x => { x with g := [(2, 64)] }) (fun d => d.setBytes 64 (leBytes 32 (descOf (2 ^ 155)).toNat)) [], 0,
    31, 2, shw 31 31 2 0 6, (wShD (shw 31 31 2 0 6) (fun x => { x with g := [(2, 64)] }) (fun d => d.setBytes 64 (leBytes 32 (descOf
    (2 ^ 155)).toNat)) []).fetched, (((wShD (shw 31 31 2 0 6) (fun x => { x with g := [(2, 64)] }) (fun d => d.setBytes 64 (leBytes
    32 (descOf (2 ^ 155)).toNat)) []).fetched).shLoad32 0 ((((wShD (shw 31 31 2 0 6) (fun x => { x with g := [(2, 64)] }) (fun d =>
    d.setBytes 64 (leBytes 32 (descOf (2 ^ 155)).toNat)) []).fetched).sh 0).reg 2)).1, ((((wShD (shw 31 31 2 0 6) (fun x =>
    { x with g := [(2, 64)] }) (fun d => d.setBytes 64 (leBytes 32 (descOf (2 ^ 155)).toNat)) []).fetched).shLoad32 0 ((((wShD (shw
    31 31 2 0 6) (fun x => { x with g := [(2, 64)] }) (fun d => d.setBytes 64 (leBytes 32 (descOf (2 ^ 155)).toNat)) []).fetched).sh
    0).reg 2)).1).sh 0, okOf (((wShD (shw 31 31 2 0 6) (fun x => { x with g := [(2, 64)] }) (fun d => d.setBytes 64 (leBytes 32
    (descOf (2 ^ 155)).toNat)) []).fetched).shLoad32 0 ((((wShD (shw 31 31 2 0 6) (fun x => { x with g := [(2, 64)] }) (fun d =>
    d.setBytes 64 (leBytes 32 (descOf (2 ^ 155)).toNat)) []).fetched).sh 0).reg 2)), BitVec.ofNat 256 (leNat (okOf (((wShD (shw 31
    31 2 0 6) (fun x => { x with g := [(2, 64)] }) (fun d => d.setBytes 64 (leBytes 32 (descOf (2 ^ 155)).toNat))
    []).fetched).shLoad32 0 ((((wShD (shw 31 31 2 0 6) (fun x => { x with g := [(2, 64)] }) (fun d => d.setBytes 64 (leBytes 32
    (descOf (2 ^ 155)).toNat)) []).fetched).sh 0).reg 2)))),
      by repeat' first | decide +kernel | (refine @of_decide_eq_true _ (decExc _ _) ?_; decide +kernel) | refine pairFst ?_ | refine Prod.ext (Eq.refl _) ?_ | exact rfl | refine And.intro ?_ ?_⟩⟩

theorem witness_ItemsArePostedAndDone_2 :
    (∃ (st : State), (st.dev.ringsOn = true) ∧ (st.dev.hubd.sched.post.length < 8)) ∧
    (∃ (st : State), ∃ (mid : Nat), ∃ (q : BitVec 256), (st.dev.ringsOn = true) ∧ (q = BitVec.ofNat 256 (st.dev.hubd.sched.post.foldr
    (fun w n => w.toNat + 2 ^ 32 * n) 0)) ∧ ((Desc.priv q = false ∨ (st.dev.who mid).owner = true)) ∧ (Desc.clean q = true) ∧
    (st.dev.eligible q ≠ []) ∧ (st.dev.storeFull = false)) := by
  refine ⟨⟨wit id [] |>.ofDev (fun d => d.onSched (fun q => { q with post := List.replicate 7 0 })),
      by repeat' first | decide +kernel | (refine @of_decide_eq_true _ (decExc _ _) ?_; decide +kernel) | refine pairFst ?_ | refine Prod.ext (Eq.refl _) ?_ | exact rfl | refine And.intro ?_ ?_⟩,
    ⟨wShD 0 id (fun d => d.onSched (fun q =>
    { q with post := (List.range 8).map (fun i => BitVec.ofNat 32 ((descOf 0).toNat / 2 ^ (32 * i))) })) [], 0, descOf 0,
      by repeat' first | decide +kernel | (refine @of_decide_eq_true _ (decExc _ _) ?_; decide +kernel) | refine pairFst ?_ | refine Prod.ext (Eq.refl _) ?_ | exact rfl | refine And.intro ?_ ?_⟩⟩

theorem witness_ItemsArePostedAndDone_3 :
    (∃ (st : State), ∃ (mid : Nat), ∃ (q : BitVec 256), (st.dev.ringsOn = true) ∧ (q = BitVec.ofNat 256 (st.dev.hubd.sched.post.foldr
    (fun w n => w.toNat + 2 ^ 32 * n) 0)) ∧ (Desc.priv q = true) ∧ (128 ≤ mid) ∧ ((st.dev.who mid).owner = false)) ∧
    (∃ (st : State), ∃ (mid : Nat), ∃ (q : BitVec 256), (st.dev.ringsOn = true) ∧ (q = BitVec.ofNat 256 (st.dev.hubd.sched.post.foldr
    (fun w n => w.toNat + 2 ^ 32 * n) 0)) ∧ (Desc.priv q = true) ∧ (mid < 128)) := by
  refine ⟨⟨wShD 0 id (fun d => d.onSched (fun q =>
    { q with post := (List.range 8).map (fun i => BitVec.ofNat 32 ((descOf (2 ^ 151)).toNat / 2 ^ (32 * i))) })) [], midBOB, descOf
    (2 ^ 151),
      by repeat' first | decide +kernel | (refine @of_decide_eq_true _ (decExc _ _) ?_; decide +kernel) | refine pairFst ?_ | refine Prod.ext (Eq.refl _) ?_ | exact rfl | refine And.intro ?_ ?_⟩,
    ⟨wShD 0 id (fun d => d.onSched (fun q =>
    { q with post := (List.range 8).map (fun i => BitVec.ofNat 32 ((descOf (2 ^ 151)).toNat / 2 ^ (32 * i))) })) [], 0, descOf (2 ^
    151),
      by repeat' first | decide +kernel | (refine @of_decide_eq_true _ (decExc _ _) ?_; decide +kernel) | refine pairFst ?_ | refine Prod.ext (Eq.refl _) ?_ | exact rfl | refine And.intro ?_ ?_⟩⟩

theorem witness_ItemsArePostedAndDone_4 :
    (∃ (st : State), ∃ (s : Nat), ∃ (w : Word), ∃ (d : Dev), ∃ (i : Item), (st.dev.on = true) ∧ (st.dev.shGets d s w) ∧ (shDecode w =
    some .done) ∧ ((d.sh s).item = some i) ∧ (st.dev.shStalled s = false) ∧ ((d.sh s).wbuf = []) ∧ ((∀ l ∈ (d.sh s).dcache, l.dirty
    = 0)) ∧ (Desc.chain i.desc = 0xFFFF)) :=
  ⟨wSh (shw 31 0 0 0 7) (fun x => { x with item := some ⟨0, descOf (2 ^ 154), 0, none, false⟩ }), 0, shw 31 0 0 0 7, (wSh (shw 31 0 0
    0 7) (fun x => { x with item := some ⟨0, descOf (2 ^ 154), 0, none, false⟩ })).fetched, ⟨0, descOf (2 ^ 154), 0, none, false⟩,
      by repeat' first | decide +kernel | (refine @of_decide_eq_true _ (decExc _ _) ?_; decide +kernel) | refine pairFst ?_ | refine Prod.ext (Eq.refl _) ?_ | exact rfl | refine And.intro ?_ ?_⟩

theorem witness_SchedulerDispatches_1 :
    (∃ (d : Dev), ∃ (n : Nat), ∃ (s : Nat), ∃ (i : Item), (d.nextItem = some (n, i, s))) ∧
    (∃ (st : State), ∃ (n : Nat), ∃ (s : Nat), ∃ (i : Item), (st.dev.on = true) ∧ (st.dev.fld F.PWR_STATUS_DEV = 0) ∧ (st.dev.plat.trans
    = 0) ∧ (st.dev.nextItem = some (n, i, s))) ∧
    (∃ (st : State), ∃ (level : Nat), ∃ (n : Nat), ∃ (i : Item), (st.dev.on = true) ∧ (st.dev.hubd.sched.store.findIdx? (fun j =>
    Desc.prio j.desc == level) = some n) ∧ (st.dev.hubd.sched.store[n]? = some i) ∧ (Desc.affine i.desc = true) ∧ (i.aged = false) ∧
    (st.dev.shuttleFor i = none)) ∧
    (∃ (st : State), ∃ (s : Nat), (st.dev.on = true) ∧ ((st.dev.sh s).item.isSome = true) ∧ (st.dev.fld F.WSC_CFG_RUN_LIMIT ≠ 0) ∧
    ((st.dev.sh s).tvec ≠ 0) ∧ ((st.dev.sh s).fresh = false) ∧ (st.dev.log.queue.length < 64)) ∧
    (∃ (st : State), ∃ (k : Nat), ∃ (rest : List Nat), (st.dev.on = true) ∧ (st.dev.hubd.sched.fired = k :: rest) ∧ ((∀ j ∈
    st.dev.hubd.sched.store, j.trig ≠ some k)) ∧ (st.dev.storeFull = false) ∧ (st.dev.fld (F.WSC_TRIG_PEND_COUNT.at k) = 0) ∧
    (Desc.clean (st.dev.template (st.dev.fld (F.WSC_TRIG_LO_TEMPLATE.at k))) = true) ∧ (st.dev.eligible (st.dev.template (st.dev.fld
    (F.WSC_TRIG_LO_TEMPLATE.at k))) ≠ [])) ∧
    (∃ (st : State), ∃ (k : Nat), ∃ (rest : List Nat), ∃ (j : Item), (st.dev.on = true) ∧ (st.dev.hubd.sched.fired = k :: rest) ∧
    (st.dev.hubd.sched.store = [j]) ∧ (j.trig = some k) ∧ (j.firings < 2 ^ 32 - 1)) := by
  refine ⟨⟨(wit (fun d => d.onSched (fun q => { q with store := [⟨5, descOf 0, 2, none, false⟩] })) []).dev, 0, 0, ⟨5, descOf 0, 2, none,
    false⟩,
      by repeat' first | exact rfl | decide +kernel | refine And.intro ?_ ?_⟩,
    ⟨wit (fun d => d.onSched (fun q => { q with store := [⟨5, descOf 0, 2, none, false⟩] })) [], 0, 0, ⟨5, descOf 0, 2, none, false⟩,
      by repeat' first | exact rfl | decide +kernel | refine And.intro ?_ ?_⟩,
    ⟨wit (fun d => (d.onSched (fun q => { q with store := [⟨5, descOf (2 ^ 152), 2, none, false⟩], affine := [(9, 1)] })).onSh 0 (fun _
    => shAt 0)) [], 0, 0, ⟨5, descOf (2 ^ 152), 2, none, false⟩,
      by repeat' first | exact rfl | decide +kernel | refine And.intro ?_ ?_⟩,
    ⟨wShD 0 id id [(F.WSC_CFG_RUN_LIMIT, 1)], 0,
      by repeat' first | exact rfl | decide +kernel | refine And.intro ?_ ?_⟩,
    ⟨wit (fun d => d.onSched (fun q => { q with fired := [255, 3], templates := [(7, descOf 0)] })) [(F.WSC_TRIG_LO_TEMPLATE.at 255,
    7)], 255, [3],
      by repeat' first | exact rfl | decide +kernel | refine And.intro ?_ ?_⟩,
    ⟨wit (fun d => d.onSched (fun q => { q with fired := [255, 3], store := [⟨5, descOf 0, 2, some 255, false⟩] })) [], 255, [3], ⟨5,
    descOf 0, 2, some 255, false⟩,
      by repeat' first | exact rfl | decide +kernel | refine And.intro ?_ ?_⟩⟩

theorem witness_SchedulerDispatches_2 :
    (∃ (st : State), ∃ (q : BitVec 256), ∃ (rest : List (BitVec 256)), (st.dev.on = true) ∧ (st.dev.occ < 65536) ∧
    (st.dev.hubd.sched.held = q :: rest)) ∧
    (∃ (st : State), ∃ (cls : Nat), (st.dev.ringsOn = true) ∧ (cls < 65536) ∧ (st.dev.occ ≤ 65536)) := by
  refine ⟨⟨wit (fun d => d.onSched (fun q => { q with held := [descOf 0] })) [], descOf 0, [],
      by repeat' first | exact rfl | decide +kernel | refine And.intro ?_ ?_⟩,
    ⟨wit (fun d => d.onSched (fun q => { q with store := [⟨5, descOf 0, 2, none, false⟩] })) [], 9,
      by repeat' first | exact rfl | decide +kernel | refine And.intro ?_ ?_⟩⟩

theorem witness_HubRequestsAreServed_1 :
    (∃ (s : State), ∃ (q : HubReq), ∃ (line : Nat), (s.dev.on = true) ∧ (line = q.addr / 64 * 64) ∧ (q.lost = none) ∧ (q.waited = 0) ∧
    (s.dev.mayInject q = true) ∧ (regionOf line = .tablet) ∧ (s.dev.chk = []) ∧ (s.dev.bad = []) ∧ (s.dev.fld F.ECC_TEST_EN = 0) ∧
    (s.dev.passes q.mid gkWRITE line) ∧ (s.dev.passes q.mid gkWRITE (line + 32))) ∧
    (∃ (s : State), ∃ (q : HubReq), ∃ (line : Nat), (s.dev.on = true) ∧ (line = q.addr / 64 * 64) ∧ (q.lost = none) ∧ (q.waited = 0) ∧
    (s.dev.mayInject q = true) ∧ (regionOf line = .tablet) ∧ (s.dev.chk = []) ∧ (s.dev.bad = []) ∧ (s.dev.fld F.ECC_TEST_EN = 0) ∧
    (s.dev.passes q.mid gkWRITE line) ∧ (s.dev.passes q.mid gkWRITE (line + 32))) ∧
    (∃ (s : State), ∃ (q : HubReq), ∃ (line : Nat), (s.dev.on = true) ∧ (line = q.addr / 64 * 64) ∧ (q.lost = none) ∧ (q.waited = 0) ∧
    (s.dev.mayInject q = true) ∧ (regionOf line = .tablet) ∧ (s.dev.chk = []) ∧ (s.dev.bad = []) ∧ (s.dev.fld F.ECC_TEST_EN = 0) ∧
    (s.dev.passes q.mid gkREAD line)) ∧
    (∃ (s : State), ∃ (q : HubReq), ∃ (line : Nat), ∃ (word : Nat), (s.dev.on = true) ∧ (line = q.addr / 64 * 64) ∧ (q.lost = none) ∧
    (q.waited = 0) ∧ (s.dev.mayInject q = true) ∧ (regionOf line = .tablet) ∧ (s.dev.chk = []) ∧ (s.dev.bad = []) ∧ (s.dev.fld
    F.ECC_TEST_EN = 0) ∧ (word < 16) ∧ (s.dev.passes q.mid gkOR (line + 4 * word))) ∧
    (∃ (s : State), ∃ (q : HubReq), ∃ (line : Nat), ∃ (reason : Nat), (s.dev.on = true) ∧ (line = q.addr / 64 * 64) ∧ (q.lost = none) ∧
    (q.waited = 0) ∧ (s.dev.mayInject q = true) ∧ (regionOf line = .tablet) ∧ (s.dev.chk = []) ∧ (s.dev.bad = []) ∧ (s.dev.fld
    F.ECC_TEST_EN = 0) ∧ (s.dev.verdict q.mid gkWRITE line = (stDENIED, reason))) ∧
    (∃ (s : State), ∃ (q : HubReq), ∃ (mask : BitVec 64), ∃ (data : BitVec 512), ∃ (half : Bool), ∃ (m : BitVec 32), ∃ (h : BitVec 256),
    ∃ (word : Nat), ∃ (bits : Word), ∃ c, (c ∈ [Instr.read q mask, .writeL q data, .writeM q half m h, .or q word bits]) ∧ (s.dev.on
    = true) ∧ (s.dev.mayInject q = false)) := by
  refine ⟨⟨State.reset, hubQ midMGT, tabletBase + 0x3FFC0,
      by repeat' first | exact rfl | decide +kernel | refine And.intro ?_ ?_⟩,
    ⟨State.reset, hubQ midMGT, tabletBase + 0x3FFC0,
      by repeat' first | exact rfl | decide +kernel | refine And.intro ?_ ?_⟩,
    ⟨State.reset, hubQ midMGT, tabletBase + 0x3FFC0,
      by repeat' first | exact rfl | decide +kernel | refine And.intro ?_ ?_⟩,
    ⟨wit (fun d => d.setBytes (tabletBase + 0x3FFFC) [3]) [], hubQ midMGT, tabletBase + 0x3FFC0, 15,
      by repeat' first | exact rfl | decide +kernel | refine And.intro ?_ ?_⟩,
    ⟨State.reset, hubQ 0, tabletBase + 0x3FFC0, ((State.reset).dev.verdict 0 gkWRITE (tabletBase + 0x3FFC0)).2,
      by repeat' first | exact rfl | decide +kernel | refine And.intro ?_ ?_⟩,
    ⟨wit (fun d => d.onHub (fun h => { h with stopped := true })) [], hubQ 0, 1, 1, true, 1, 1, 1, 1, .or (hubQ 0) (1) (1),
      by repeat' first | exact rfl | decide +kernel | refine And.intro ?_ ?_⟩⟩

theorem witness_HubRequestsAreServed_2 :
    (∃ (s : State), ∃ (r : HubRsp), ∃ (t : List HubRsp), (s.dev.on = true) ∧ (s.dev.hubd.hub.rsps = r :: t)) :=
  ⟨wit (fun d => d.onHub (fun h => { h with rsps := [⟨0, 3, 3, 31, 9, 0, 0, 0⟩] })) [], ⟨0, 3, 3, 31, 9, 0, 0, 0⟩, [],
      by repeat' first | exact rfl | decide +kernel | refine And.intro ?_ ?_⟩

theorem witness_HubLinksAreWatched :
    (∃ (s : State), (s.dev.on = true) ∧ (s.dev.hubd.hub.stopped = false)) ∧
    (∃ (s : State), ∃ (ring : Nat), ∃ (dir : Nat), ∃ (node : Nat), (s.dev.on = true) ∧ (s.dev.hubd.hub.stopped = false) ∧ (s.dev.ts =
    tsBeat) ∧ (SMap.get 0 s.dev.hubd.hub.fails (linkKey ring dir node) = 7) ∧ (s.dev.log.queue.length < 64)) ∧
    (∃ (s : State), ∃ (cl : Nat), ∃ (bank : Nat), (s.dev.on = true) ∧ (cl < 16) ∧ (bank < 32) ∧ ((s.dev.fld F.CLM_CFG_FULL).testBit cl =
    true) ∧ (s.dev.hubd.hub.starved = false) ∧ (s.dev.log.queue.length < 64)) ∧
    (∃ (s : State), ∃ (cl : Nat), ∃ (bank : Nat), (s.dev.on = true) ∧ (cl < 16) ∧ (bank < 32) ∧ ((s.dev.fld F.CLM_CFG_FULL).testBit cl =
    true) ∧ (s.dev.hubd.hub.starved = true)) ∧
    (∃ (s : State), (s.dev.on = true)) ∧
    (∃ (d : Dev), ∃ (n : Nat), ∃ (f : Nat), (d.hubd.hub.mon = some ⟨d.monSel, n, f⟩)) := by
  refine ⟨⟨State.reset,
      by repeat' first | exact rfl | decide +kernel | refine And.intro ?_ ?_⟩,
    ⟨wit (fun d => d.onHub (fun h => { h with fails := [(linkKey 3 1 31, 7)] })) [(fTs, tsBeat)], 3, 1, 31,
      by repeat' first | exact rfl | decide +kernel | refine And.intro ?_ ?_⟩,
    ⟨wit id [(F.CLM_CFG_FULL, 0x8000)], 15, 31,
      by repeat' first | exact rfl | decide +kernel | refine And.intro ?_ ?_⟩,
    ⟨wit (fun d => d.onHub (fun h => { h with starved := true })) [(F.CLM_CFG_FULL, 0x8000)], 15, 31,
      by repeat' first | exact rfl | decide +kernel | refine And.intro ?_ ?_⟩,
    ⟨State.reset,
      by repeat' first | exact rfl | decide +kernel | refine And.intro ?_ ?_⟩,
    ⟨(wit (fun d => d.onHub (fun h => { h with mon := some ⟨127, 9, 5⟩ })) [(F.HUB_MON_SEL_RING, 1), (F.HUB_MON_SEL_DIR, 1),
    (F.HUB_MON_SEL_STOP, 31)]).dev, 9, 5,
      by repeat' first | exact rfl | decide +kernel | refine And.intro ?_ ?_⟩⟩

theorem witness_GatekeepersAndHandover :
    (∃ (s : State), ∃ (mid : Nat), (s.dev.ringsOn = true) ∧ (s.dev.mayWrite mid R.GK_SEL)) ∧
    (∃ (s : State), ∃ (mid : Nat), (s.dev.ringsOn = true) ∧ (s.dev.mayWrite mid R.GK_ENT0)) ∧
    (∃ (s : State), ∃ (mid : Nat), ∃ (bank : Nat), ∃ (kind : Nat), ∃ (id : Nat), (s.dev.ringsOn = true) ∧ (bank < 512) ∧ (kind ∈ [1, 2])
    ∧ (id < 128) ∧ (s.dev.mayWrite mid (R.CLM_BANK_OWNER + 4 * bank)) ∧ ((s.dev.who mid).owner = true) ∧
    (s.dev.rel.badCluster.contains (bank / 32) = false)) ∧
    (∃ (s : State), ∃ (mid : Nat), ∃ (bank : Nat), ∃ (kind : Nat), ∃ (id : Nat), (s.dev.ringsOn = true) ∧ (bank < 512) ∧ (kind ∈ [1, 2])
    ∧ (id < 128) ∧ (s.dev.mayWrite mid (R.CLM_BANK_OWNER + 4 * bank)) ∧ ((s.dev.who mid).owner = false) ∧ (s.dev.ownsBank mid bank =
    false) ∧ (s.dev.log.queue.length < 63)) := by
  refine ⟨⟨State.reset, midMGT,
      by repeat' first | exact rfl | decide +kernel | refine And.intro ?_ ?_⟩,
    ⟨wit id [(F.GK_SEL_TABLE, 5), (F.GK_SEL_ENTRY, 63)], midMGT,
      by repeat' first | exact rfl | decide +kernel | refine And.intro ?_ ?_⟩,
    ⟨State.reset, midMGT, 511, 2, 127,
      by repeat' first | exact rfl | decide +kernel | refine And.intro ?_ ?_⟩,
    ⟨wit id [(F.GK_ENT0_PRIV.at (gkKey 5 0), 0)], 5, 511, 2, 127,
      by repeat' first | exact rfl | decide +kernel | refine And.intro ?_ ?_⟩⟩

theorem witness_BobbinChannelsMoveData_1 :
    (∃ (s : State), ∃ (c : Nat), (s.dev.on = true) ∧ (c < 32) ∧ (s.dev.ringsOn = true) ∧ (s.dev.bobBusy c = false)) ∧
    (∃ (s : State), ∃ (c : Nat), (s.dev.on = true) ∧ (c < 32) ∧ (s.dev.ringsOn = true) ∧ (s.dev.bobBusy c = true)) ∧
    (∃ (s : State), ∃ (c : Nat), ∃ (d : Dev), ∃ (bs : List Byte), ∃ (x : BitVec 512), (s.dev.on = true) ∧ (c < 32) ∧ (s.dev.fld
    (F.BOB_CH_STATUS_STATE.at c) = 1) ∧ (s.dev.ringsOn = true) ∧ (s.dev.bobReady c = true) ∧ ((s.dev.bobPay c).busRead (midBOB + c)
    gkREAD (s.dev.bob c).addr 64 = (d, stOK, bs)) ∧ (x = BitVec.ofNat 512 (leNat bs)) ∧ ((Bd.fieldsOk x && Bd.shufOk x) = true)) ∧
    (∃ (s : State), ∃ (c : Nat), ∃ (d : Dev), ∃ (bs : List Byte), ∃ (x : BitVec 512), (s.dev.on = true) ∧ (c < 32) ∧ (s.dev.fld
    (F.BOB_CH_STATUS_STATE.at c) = 1) ∧ (s.dev.ringsOn = true) ∧ (s.dev.bobReady c = true) ∧ ((s.dev.bobPay c).busRead (midBOB + c)
    gkREAD (s.dev.bob c).addr 64 = (d, stOK, bs)) ∧ (x = BitVec.ofNat 512 (leNat bs)) ∧ ((Bd.fieldsOk x && Bd.shufOk x) = false)) ∧
    (∃ (s : State), ∃ (c : Nat), ∃ (d : Dev), ∃ (bs : List Byte), ∃ (a : Nat), ∃ (n : Nat), (s.dev.on = true) ∧ (c < 32) ∧ (s.dev.fld
    (F.BOB_CH_STATUS_STATE.at c) = 2) ∧ (s.dev.ringsOn = true) ∧ (s.dev.bobReady c = true) ∧ ((s.dev.bob c).inp.length < Bd.total
    (s.dev.bob c).desc) ∧ (a = streamAddr (Bd.src (s.dev.bob c).desc) (Bd.srcStride (s.dev.bob c).desc) (Bd.srcLen (s.dev.bob
    c).desc) (s.dev.bob c).inp.length) ∧ (n = min (Bd.srcLen (s.dev.bob c).desc - (s.dev.bob c).inp.length % Bd.srcLen (s.dev.bob
    c).desc) (64 - a % 64)) ∧ ((s.dev.bobPay c).busRead (midBOB + c) gkREAD (a / 64 * 64) 64 = (d, stOK, bs))) ∧
    (∃ (s : State), ∃ (c : Nat), ∃ (x : BitVec 512), (s.dev.on = true) ∧ (c < 32) ∧ (s.dev.fld (F.BOB_CH_STATUS_STATE.at c) = 2) ∧
    (s.dev.ringsOn = true) ∧ (s.dev.bobReady c = true) ∧ (s.dev.chk = []) ∧ (s.dev.bad = []) ∧ (x = (s.dev.bob c).desc) ∧ (Bd.shuf x
    = 0) ∧ (Bd.chain x = false) ∧ (0 < Bd.total x) ∧ (Bd.total x ≤ 32) ∧ (Bd.dstCnt x = 1) ∧ (Bd.dstLen x = Bd.total x) ∧ (Bd.dst x
    % 32 = 0) ∧ ((s.dev.bob c).outPos = 0) ∧ ((s.dev.bob c).inp.length = Bd.total x) ∧ ((∀ i < Bd.total x, inStream (Bd.src x)
    (Bd.srcStride x) (Bd.srcLen x) (Bd.srcCnt x) (Bd.dst x + i) = false)) ∧ (regionOf (Bd.dst x) = .tablet) ∧ (s.dev.passes (midBOB
    + c) gkWRITE (Bd.dst x))) := by
  refine ⟨⟨wBob 4 id [(F.BOB_CH_DESC_HI_ADDR_HI.at 31, 3)], 31,
      by repeat' first | exact rfl | decide +kernel | refine And.intro ?_ ?_⟩,
    ⟨wBob 3 id [], 31,
      by repeat' first | exact rfl | decide +kernel | refine And.intro ?_ ?_⟩,
    ⟨wBob 1 (fun b => { b with addr := 64 }) [] |>.ofDev (fun d => d.setBytes 64 (leBytes 64 bobDesc.toNat)), 31, (((wBob 1 (fun b =>
    { b with addr := 64 }) [] |>.ofDev (fun d => d.setBytes 64 (leBytes 64 bobDesc.toNat))).dev.bobPay 31).busRead 0x11F gkREAD 64
    64).1, (((wBob 1 (fun b => { b with addr := 64 }) [] |>.ofDev (fun d => d.setBytes 64 (leBytes 64 bobDesc.toNat))).dev.bobPay
    31).busRead 0x11F gkREAD 64 64).2.2, BitVec.ofNat 512 (leNat ((((wBob 1 (fun b => { b with addr := 64 }) [] |>.ofDev (fun d =>
    d.setBytes 64 (leBytes 64 bobDesc.toNat))).dev.bobPay 31).busRead 0x11F gkREAD 64 64).2.2)),
      by repeat' first | exact rfl | decide +kernel | refine And.intro ?_ ?_⟩,
    ⟨wBob 1 (fun b => { b with addr := 64 }) [], 31, (((wBob 1 (fun b => { b with addr := 64 }) []).dev.bobPay 31).busRead 0x11F gkREAD
    64 64).1, (((wBob 1 (fun b => { b with addr := 64 }) []).dev.bobPay 31).busRead 0x11F gkREAD 64 64).2.2, BitVec.ofNat 512 (leNat
    ((((wBob 1 (fun b => { b with addr := 64 }) []).dev.bobPay 31).busRead 0x11F gkREAD 64 64).2.2)),
      by repeat' first | exact rfl | decide +kernel | refine And.intro ?_ ?_⟩,
    ⟨wBob 2 (fun b => { b with desc := bobDesc, inp := [1, 2, 3] }) [], 31, (((wBob 2 (fun b =>
    { b with desc := bobDesc, inp := [1, 2, 3] }) []).dev.bobPay 31).busRead 0x11F gkREAD (tabletBase + 0x40000) 64).1, (((wBob 2
    (fun b => { b with desc := bobDesc, inp := [1, 2, 3] }) []).dev.bobPay 31).busRead 0x11F gkREAD (tabletBase + 0x40000) 64).2.2,
    tabletBase + 0x40003, 29,
      by repeat' first | exact rfl | decide +kernel | refine And.intro ?_ ?_⟩,
    ⟨wBob 2 (fun b => { b with desc := bobDesc, inp := List.replicate 32 7 }) [], 31, bobDesc,
      by repeat' first | exact rfl | decide +kernel | refine And.intro ?_ ?_⟩⟩

theorem witness_BobbinChannelsMoveData_2 :
    (∃ (s : State), ∃ (c : Nat), (s.dev.on = true) ∧ (c < 32) ∧ (s.dev.ringsOn = true) ∧ ((s.dev.fld (F.BOB_CH_STATUS_STATE.at c) = 1 ∨
    (s.dev.fld (F.BOB_CH_STATUS_STATE.at c) = 2 ∧ Bd.canWrite (s.dev.bob c).desc (s.dev.bob c).inp.length (s.dev.bob c).outPos =
    false)))) ∧
    (∃ (s : State), ∃ (c : Nat), (s.dev.on = true) ∧ (c < 32) ∧ (s.dev.ringsOn = true) ∧ (s.dev.fld (F.BOB_CH_STATUS_STATE.at c) = 2) ∧
    (Bd.canWrite (s.dev.bob c).desc (s.dev.bob c).inp.length (s.dev.bob c).outPos = true)) ∧
    (∃ (s : State), ∃ (c : Nat), (s.dev.on = true) ∧ (c < 32) ∧ (s.dev.ringsOn = true) ∧ (s.dev.bobBusy c = false)) := by
  refine ⟨⟨wBob 1 id [], 31,
      by repeat' first | exact rfl | decide +kernel | refine And.intro ?_ ?_⟩,
    ⟨wBob 2 (fun b => { b with desc := bobDesc, inp := List.replicate 32 7 }) [], 31,
      by repeat' first | exact rfl | decide +kernel | refine And.intro ?_ ?_⟩,
    ⟨wBob 0 id [], 31,
      by repeat' first | exact rfl | decide +kernel | refine And.intro ?_ ?_⟩⟩

theorem witness_DevicePowerStates_1 :
    (∃ (s : State), ∃ (mid : Nat), (s.dev.ringsOn = true) ∧ (s.dev.ownerMay mid R.PWR_DEV_REQ) ∧ (s.dev.rwlOk (s.dev.who mid) = true) ∧
    (s.dev.devQuiet = true) ∧ (s.dev.fld F.PWR_STATUS_DEV = 0) ∧ (s.dev.plat.trans = 0)) ∧
    (∃ (s : State), ∃ (mid : Nat), (s.dev.ringsOn = true) ∧ (s.dev.ownerMay mid R.PWR_DEV_REQ) ∧ (s.dev.rwlOk (s.dev.who mid) = true) ∧
    (s.dev.fld F.PWR_STATUS_DEV = 1) ∧ (s.dev.plat.trans = 0)) ∧
    (∃ (s : State), ∃ (mid : Nat), (s.dev.ringsOn = true) ∧ (s.dev.ownerMay mid R.PWR_DEV_REQ) ∧ (s.dev.rwlOk (s.dev.who mid) = true) ∧
    (s.dev.devQuiet = true) ∧ (s.dev.plat.trans = 0)) ∧
    (∃ (s : State), ∃ (mid : Nat), ∃ c, (c ∈ [Instr.devLowRequest mid, .devOffRequest mid]) ∧ (s.dev.ringsOn = true) ∧ (s.dev.ownerMay
    mid R.PWR_DEV_REQ) ∧ (s.dev.rwlOk (s.dev.who mid) = true) ∧ (s.dev.devQuiet = false)) ∧
    (∃ (s : State), (s.dev.on = true) ∧ (s.dev.plat.trans = 1) ∧ (s.dev.hubd.shuttles.any (fun x => x.2.item.isSome) = false) ∧
    (s.dev.plat.devOwed = []) ∧ ((∀ ph < 128, (s.dev.lane ph).txq = []))) ∧
    (∃ (s : State), ∃ (ph : Nat), (s.dev.on = true) ∧ (s.dev.plat.trans = 1) ∧ (s.dev.hubd.shuttles.any (fun x => x.2.item.isSome) =
    false) ∧ (ph < 128) ∧ ((s.dev.lane ph).txq ≠ [])) := by
  refine ⟨⟨wit id [(F.MGT_LOCK_UNLOCK, 1)], midMGT,
      by repeat' first | exact rfl | decide +kernel | refine And.intro ?_ ?_⟩,
    ⟨wit id [(F.MGT_LOCK_UNLOCK, 1), (F.PWR_STATUS_DEV, 1), (F.PWR_STATUS_PANEL, 0xAA)], midMGT,
      by repeat' first | exact rfl | decide +kernel | refine And.intro ?_ ?_⟩,
    ⟨wit id [(F.MGT_LOCK_UNLOCK, 1)], midMGT,
      by repeat' first | exact rfl | decide +kernel | refine And.intro ?_ ?_⟩,
    ⟨wit id [(F.MGT_LOCK_UNLOCK, 1), (fTs, tsBeat)], midMGT, .devOffRequest (midMGT),
      by repeat' first | exact rfl | decide +kernel | refine And.intro ?_ ?_⟩,
    ⟨wit (fun d => { d with plat := { d.plat with trans := 1 } }) [(F.HBM_STATUS_TRAINED, 0xFF)],
      by repeat' first | exact rfl | decide +kernel | refine And.intro ?_ ?_⟩,
    ⟨wit (fun d => { d with plat := { d.plat with trans := 1 } }.onLane 127 (fun x => { x with txq := [frame 3] })) [], 127,
      by repeat' first | exact rfl | decide +kernel | refine And.intro ?_ ?_⟩⟩

theorem witness_DevicePowerStates_2 :
    (∃ (s : State), (s.dev.on = true) ∧ (s.dev.plat.trans = 3) ∧ (s.dev.plat.devOwed = []) ∧ (s.dev.lanesBusy = false)) ∧
    (∃ (s : State), (s.dev.on = true) ∧ (s.dev.plat.trans = 2) ∧ (s.dev.plat.waking = 0) ∧ (s.dev.plat.devOwed = [])) ∧
    (∃ (s : State), (s.dev.on = true) ∧ (s.dev.plat.trans ≠ 1) ∧ ((s.dev.plat.trans ≠ 3 ∨ s.dev.lanesBusy = true))) ∧
    (∃ (s : State), (s.dev.on = true) ∧ ((s.dev.plat.trans ≠ 2 ∨ s.dev.plat.waking ≠ 0))) := by
  refine ⟨⟨wit (fun d => { d with plat := { d.plat with trans := 3 } }) [],
      by repeat' first | exact rfl | decide +kernel | refine And.intro ?_ ?_⟩,
    ⟨wit (fun d => { d with plat := { d.plat with trans := 2 } }.onLane 127 (fun x => { x with pwrSaved := 3 })) [(F.PWR_STATUS_DEV, 1),
    (F.WRP_LANE_STATUS_PWR.at 127, 3)],
      by repeat' first | exact rfl | decide +kernel | refine And.intro ?_ ?_⟩,
    ⟨State.reset,
      by repeat' first | exact rfl | decide +kernel | refine And.intro ?_ ?_⟩,
    ⟨State.reset,
      by repeat' first | exact rfl | decide +kernel | refine And.intro ?_ ?_⟩⟩

theorem witness_PanelPowerStates_1 :
    (∃ (s : State), ∃ (mid : Nat), ∃ (p : Nat), (s.dev.ringsOn = true) ∧ (s.dev.mayWrite mid R.PWR_PANEL_REQ) ∧ (s.dev.rwlOk (s.dev.who
    mid) = true) ∧ (p = s.dev.fld F.PWR_PANEL_SEL_PANEL) ∧ (s.dev.sleepOk p false = true) ∧ (s.dev.panel p < 2)) ∧
    (∃ (s : State), ∃ (mid : Nat), ∃ (p : Nat), (s.dev.ringsOn = true) ∧ (s.dev.mayWrite mid R.PWR_PANEL_REQ) ∧ (s.dev.rwlOk (s.dev.who
    mid) = true) ∧ (p = s.dev.fld F.PWR_PANEL_SEL_PANEL) ∧ (s.dev.sleepOk p false = false)) ∧
    (∃ (s : State), ∃ (mid : Nat), ∃ (p : Nat), (s.dev.ringsOn = true) ∧ (s.dev.mayWrite mid R.PWR_PANEL_REQ) ∧ (s.dev.rwlOk (s.dev.who
    mid) = true) ∧ (p = s.dev.fld F.PWR_PANEL_SEL_PANEL) ∧ (s.dev.sleepOk p true = true) ∧ (s.dev.panel p ≠ 3)) ∧
    (∃ (s : State), ∃ (mid : Nat), ∃ (p : Nat), (s.dev.ringsOn = true) ∧ (s.dev.mayWrite mid R.PWR_PANEL_REQ) ∧ (s.dev.rwlOk (s.dev.who
    mid) = true) ∧ (p = s.dev.fld F.PWR_PANEL_SEL_PANEL) ∧ (s.dev.panelUp p = false)) ∧
    (∃ (s : State), ∃ (p : Nat), (s.dev.on = true) ∧ (p < 4) ∧ (s.dev.ringsOn = true) ∧ (s.dev.plat.sleeping.testBit p = true)) ∧
    (∃ (s : State), ∃ (p : Nat), (s.dev.on = true) ∧ (p < 4) ∧ (s.dev.plat.sleeping.testBit p = false)) := by
  refine ⟨⟨wit id [(F.MGT_LOCK_UNLOCK, 1), (F.PWR_PANEL_SEL_PANEL, 3)], midMGT, 3,
      by repeat' first | exact rfl | decide +kernel | refine And.intro ?_ ?_⟩,
    ⟨wRun [] id [(F.MGT_LOCK_UNLOCK, 1)], midMGT, 0,
      by repeat' first | exact rfl | decide +kernel | refine And.intro ?_ ?_⟩,
    ⟨wit id [(F.MGT_LOCK_UNLOCK, 1), (F.PWR_PANEL_SEL_PANEL, 3)], midMGT, 3,
      by repeat' first | exact rfl | decide +kernel | refine And.intro ?_ ?_⟩,
    ⟨wit id [(F.MGT_LOCK_UNLOCK, 1), (F.PWR_PANEL_SEL_PANEL, 3), (F.PWR_STATUS_PANEL, 0x80)], midMGT, 3,
      by repeat' first | exact rfl | decide +kernel | refine And.intro ?_ ?_⟩,
    ⟨wit (fun d => { d with plat := { d.plat with sleeping := 8 } }.setBytes (beamMemAddr 127 0) [1, 2]) [], 3,
      by repeat' first | exact rfl | decide +kernel | refine And.intro ?_ ?_⟩,
    ⟨State.reset, 3,
      by repeat' first | exact rfl | decide +kernel | refine And.intro ?_ ?_⟩⟩

theorem witness_PanelPowerStates_2 :
    (∃ (s : State), ∃ (p : Nat), (s.dev.on = true) ∧ (p < 4) ∧ (s.dev.ringsOn = true) ∧ (s.dev.plat.sleeping.testBit p = false) ∧
    (s.dev.plat.waking.testBit p = true) ∧ (s.dev.panel p = 3) ∧ (s.dev.trd.startOwed = none)) ∧
    (∃ (s : State), ∃ (p : Nat), (s.dev.on = true) ∧ (p < 4) ∧ (s.dev.plat.waking.testBit p = true) ∧ (s.dev.panel p ≠ 3) ∧
    (s.dev.ldr.bay = none) ∧ (s.dev.trd.startOwed = none)) ∧
    (∃ (s : State), ∃ (p : Nat), (s.dev.on = true) ∧ (p < 4) ∧ (s.dev.panel p < 2) ∧ (s.dev.codeHeld = true)) ∧
    (∃ (s : State), ∃ (p : Nat), (s.dev.on = true) ∧ (p < 4) ∧ (s.dev.panel p < 2) ∧ (s.dev.codeHeld = false) ∧ (s.dev.tooHot = false) ∧
    (s.dev.fld (F.PWR_PANEL_CFG_ADAPT.at p) = 1)) := by
  refine ⟨⟨wit (fun d => { d with plat := { d.plat with waking := 8 } }) [(F.PWR_STATUS_PANEL, 0xC0)], 3,
      by repeat' first | exact rfl | decide +kernel | refine And.intro ?_ ?_⟩,
    ⟨wit (fun d => { d with plat := { d.plat with waking := 8 } }) [], 3,
      by repeat' first | exact rfl | decide +kernel | refine And.intro ?_ ?_⟩,
    ⟨State.reset, 3,
      by repeat' first | exact rfl | decide +kernel | refine And.intro ?_ ?_⟩,
    ⟨wit (fun d => { d with plat := { d.plat with stage := 12 } }) [(F.PWR_PANEL_CFG_ADAPT.at 3, 1)], 3,
      by repeat' first | exact rfl | decide +kernel | refine And.intro ?_ ?_⟩⟩

theorem witness_WatchUnitActs :
    (∃ (s : State), ∃ (xs : List Nat), ∃ (r : Nat), ∃ (i : Nat), (s.dev.aonOn = true) ∧ (s.dev.fld F.PWR_STATUS_DEV = 0) ∧ (xs.length =
    100) ∧ ((∀ x ∈ xs, x < 65536)) ∧ ((∀ j < 64, sgn 16 (xs.getD j 0) ≤ t105)) ∧ ((∀ f < 32, s.dev.fld (F.WCH_FILT_EN.at f) = 0)) ∧
    (r < 32) ∧ (i < 64) ∧ ((∀ j < 32, j ≠ r → Rule.en (s.dev.rule j) = false)) ∧ (s.dev.fld F.WCH_STATUS_FIRED = 0) ∧ (Rule.en
    (s.dev.rule r) = true) ∧ (Rule.action (s.dev.rule r) = acALERT) ∧ (Rule.insrc (s.dev.rule r) = true) ∧ (Rule.input (s.dev.rule
    r) = i) ∧ (Rule.below (s.dev.rule r) = false) ∧ (Rule.persist (s.dev.rule r) = 0) ∧ (Rule.thresh (s.dev.rule r) < sgn 16
    (xs.getD i 0)) ∧ (s.dev.log.queue.length < 64)) ∧
    (∃ (s : State), ∃ (mid : Nat), (s.dev.ringsOn = true) ∧ (s.dev.ownerMay mid R.WCH_CMD) ∧ (s.dev.plat.parked = true) ∧ (s.dev.ts ≠
    tsWaiting)) ∧
    (∃ (s : State), ∃ (mid : Nat), (s.dev.ringsOn = true) ∧ (s.dev.mayWrite mid R.WCH_CMD) ∧ ((s.dev.who mid).owner = false)) ∧
    (∃ (s : State), ∃ (mid : Nat), ∃ (r : Nat), (s.dev.ringsOn = true) ∧ (s.dev.mayWrite mid R.WCH_RULE_HI) ∧ (s.dev.rwlOk (s.dev.who
    mid) = true) ∧ (r = s.dev.fld F.WCH_SEL_INDEX) ∧ ((s.dev.fired r = false ∨ Rule.action (s.dev.rule r) = acALERT))) := by
  refine ⟨⟨wit (fun d =>
    { d with plat := { d.plat with crystalDone := true, watch := { d.plat.watch with rules := [(31, w32 (wRule 63) ++ 0#32)] } } })
    [], List.replicate 63 0 ++ [1] ++ List.replicate 36 0, 31, 63,
      by repeat' first | exact rfl | decide +kernel | refine And.intro ?_ ?_⟩,
    ⟨wit (fun d => { d with plat := { d.plat with parked := true } }) [(F.PWR_STATUS_PARKED, 1)], midMGT,
      by repeat' first | exact rfl | decide +kernel | refine And.intro ?_ ?_⟩,
    ⟨wit id [(F.GK_ENT0_PRIV.at (gkKey 5 0), 0)], 5,
      by repeat' first | exact rfl | decide +kernel | refine And.intro ?_ ?_⟩,
    ⟨wit (fun d =>
    { d with alerts := orBit 0 (alRule 31), plat := { d.plat with watch := { d.plat.watch with rules := [(31, w32 (wRule 63) ++ 0#32)] } } })
    [(F.MGT_LOCK_UNLOCK, 1), (F.WCH_SEL_INDEX, 31), (F.WCH_STATUS_FIRED, 2 ^ 31)], midMGT, 31,
      by repeat' first | exact rfl | decide +kernel | refine And.intro ?_ ?_⟩⟩

theorem witness_TracePacketsReachTheSink :
    (∃ (s : State), ∃ (c : Nat), ∃ (main : Bool), ∃ (p : BitVec 128), ∃ (t : List (Nat × Bool × BitVec 128)), (s.dev.on = true) ∧
    (s.dev.hubd.trc.owed = (c, main, p) :: t) ∧ ((SMap.get [] s.dev.hubd.trc.fifo c).length < 256)) ∧
    (∃ (s : State), ∃ (c : Nat), ∃ (main : Bool), ∃ (p : BitVec 128), ∃ (t : List (Nat × Bool × BitVec 128)), (s.dev.on = true) ∧
    (s.dev.hubd.trc.owed = (c, main, p) :: t) ∧ (256 ≤ (SMap.get [] s.dev.hubd.trc.fifo c).length) ∧ ((main = false ∨ s.dev.fld
    F.TRC_CTL_STALL = 0))) ∧
    (∃ (s : State), ∃ (c : Nat), ∃ (a : Nat), ∃ (p : BitVec 128), ∃ (t : List (BitVec 128)), (s.dev.ringsOn = true) ∧ (s.dev.fld
    F.TRC_CTL_SINK = 0) ∧ (SMap.get [] s.dev.hubd.trc.fifo c = p :: t) ∧ (SMap.get 0 s.dev.hubd.trc.lost c = 0) ∧ (a = s.dev.fld
    F.TRC_BUF_BASE_BASE * 256 / 2 ^ s.dev.fld F.TRC_CTL_SIZE * 2 ^ s.dev.fld F.TRC_CTL_SIZE + s.dev.fld F.TRC_WPTR_BYTES % 2 ^
    s.dev.fld F.TRC_CTL_SIZE) ∧ (a % 16 = 0) ∧ (a < hbmEnd) ∧ (s.dev.plat.hbmReady = true) ∧ (s.dev.chk = []) ∧ (s.dev.bad = []) ∧
    (s.dev.passes midTRC gkWRITE a)) := by
  refine ⟨⟨wit (fun d => d.onTrc (fun t => { t with owed := [(15, true, 5)] })) [], 15, true, 5, [],
      by repeat' first | exact rfl | decide +kernel | refine And.intro ?_ ?_⟩,
    ⟨wit (fun d => d.onTrc (fun t => { t with owed := [(15, true, 5)], fifo := [(15, List.replicate 256 7)] })) [], 15, true, 5, [],
      by repeat' first | exact rfl | decide +kernel | refine And.intro ?_ ?_⟩,
    ⟨wit (fun d => { d with plat := { d.plat with hbmReady := true } }.onTrc (fun t => { t with fifo := [(15, [5])] }))
    [(F.TRC_CTL_SIZE, 12), (F.TRC_WPTR_BYTES, 4080), (F.TRC_BUF_BASE_BASE, 17)], 15, 4096 + 4080, 5, [],
      by repeat' first | exact rfl | decide +kernel | refine And.intro ?_ ?_⟩⟩

theorem witness_ShedRule :
    (∃ (i : Nat), (i < 0x800)) ∧
    (∃ (s : State), ∃ (gb : Nat), ∃ (h : Nat), ∃ (k : Nat), ∃ (p : Nat), ∃ (idx : Nat), (s.dev.on = true) ∧ (s.dev.hazard = false) ∧
    (s.dev.readyAt gb h k p idx) ∧ (s.dev.kindAt (hnOf gb h) k p = .plain)) := by
  refine ⟨⟨0x7FF,
      by repeat' first | exact rfl | decide +kernel | refine And.intro ?_ ?_⟩,
    ⟨wRun [(31 * 2048 + 63, BitVec.ofNat 72 (0xAAAA * 2 ^ 56 + 63))] (fun l => { l with done := [(31, 63)] }) [], 0, 0, 31, 63, 0,
      by repeat' first | exact rfl | decide +kernel | refine And.intro ?_ ?_⟩⟩

theorem witness_HarnessWindowStartsAtZero :
    (∃ (s : State), (s.dev.on = true) ∧ (s.dev.inBeat = true) ∧ (s.dev.loom.phase = .rerun)) ∧
    (∃ (s : State), (s.dev.on = true) ∧ ((s.dev.ts = tsWaiting ∨ s.dev.ts = tsStarting)) ∧ (s.dev.unmet = 0)) := by
  refine ⟨⟨wit (fun d => d.onLoom (fun x => { x with phase := .rerun })) [(fTs, tsBeat)],
      by repeat' first | exact rfl | decide +kernel | refine And.intro ?_ ?_⟩,
    ⟨wit id [(fTs, tsWaiting)],
      by repeat' first | exact rfl | decide +kernel | refine And.intro ?_ ?_⟩⟩

theorem witness_StatusNeedsNoHub :
    (∃ (s : State), ∃ (f : MgtFrame), (s.dev.mgtServes = true) ∧ (s.dev.mgtMine f = true) ∧ (f.intact = true) ∧ (f.running = false)) :=
  ⟨wit (fun d => { d with plat := { d.plat with crystalDone := true, aonPll := 2 } }) [], ⟨2, 0, true, false⟩,
      by repeat' first | exact rfl | decide +kernel | refine And.intro ?_ ?_⟩

theorem witness_FiltersFollowTheirSource :
    (∃ (d : Dev), ∃ (f : Nat), ∃ (x : Int), (x = d.srcInt (d.fld (F.WCH_FILT_SRC.at f)))) ∧
    (∃ (d : Dev), ∃ (f : Nat), ∃ (x : Int), (x = d.srcInt (d.fld (F.WCH_FILT_SRC.at f))) ∧ (d.fld (F.WCH_FILT_EN.at f) = 0)) ∧
    (∃ (d : Dev), ∃ (f : Nat), ∃ (x : Int), (x = d.srcInt (d.fld (F.WCH_FILT_SRC.at f))) ∧ (d.fld (F.WCH_FILT_EN.at f) = 1) ∧
    (d.plat.watch.primed.testBit f = false)) ∧
    (∃ (d : Dev), ∃ (f : Nat), ∃ (x : Int), (x = d.srcInt (d.fld (F.WCH_FILT_SRC.at f))) ∧ (d.fld (F.WCH_FILT_EN.at f) = 1) ∧
    (d.plat.watch.primed.testBit f = true)) ∧
    (∃ (d : Dev), ∃ (f : Nat), ∃ (x : Int), ∃ (w : Who), ∃ (v : Word), (x = d.srcInt (d.fld (F.WCH_FILT_SRC.at f))) ∧ (f = d.fld
    F.WCH_SEL_INDEX) ∧ ((d.writeFilt w v).fld (F.WCH_FILT_EN.at f) = 0)) := by
  refine ⟨⟨State.reset.dev, 255, State.reset.dev.srcInt 0,
      by repeat' first | exact rfl | decide +kernel | refine And.intro ?_ ?_⟩,
    ⟨State.reset.dev, 255, State.reset.dev.srcInt 0,
      by repeat' first | exact rfl | decide +kernel | refine And.intro ?_ ?_⟩,
    ⟨(wit id [(F.WCH_FILT_EN.at 255, 1)]).dev, 255, State.reset.dev.srcInt 0,
      by repeat' first | exact rfl | decide +kernel | refine And.intro ?_ ?_⟩,
    ⟨(wit (fun d => { d with plat := { d.plat with watch := { d.plat.watch with primed := 2 ^ 255 } } }) [(F.WCH_FILT_EN.at 255, 1),
    (F.WCH_VALUE_Y.at 255, 0x8001), (F.WCH_FILT_K.at 255, 3)]).dev, 255, State.reset.dev.srcInt 0,
      by repeat' first | exact rfl | decide +kernel | refine And.intro ?_ ?_⟩,
    ⟨(wit (fun d => { d with plat := { d.plat with watch := { d.plat.watch with primed := 1 } } }) []).dev, 0, State.reset.dev.srcInt 0,
    ⟨0, false, false, false⟩, 0,
      by repeat' first | exact rfl | decide +kernel | refine And.intro ?_ ?_⟩⟩

theorem witness_CachedInstructionsComplete_1 :
    (∃ (st : State), ∃ (s : Nat), ∃ (w : Word), ∃ (x : Shuttle), ∃ (rd : Nat), ∃ (ra : Nat), ∃ (rb : Nat), ∃ (k : Nat), ∃ (acc : Nat), ∃
    (wd : Nat), ∃ (shift : Nat), ∃ (sat : Bool), ∃ (a : BitVec 64), ∃ (b : BitVec 64), ∃ (p : BitVec 64), ∃ c, (c ∈ [(ShOp.sum rd ra
    rb, Instr.sum s, p), (.dif rd ra rb, .dif s, p), (.conj rd ra rb, .conj s, p), (.disj rd ra rb, .disj s, p), (.excl rd ra rb,
    .excl s, p), (.shl rd ra rb, .shl s, p), (.shr rd ra rb, .shr s, p), (.sha rd ra rb, .sha s, p), (.less rd ra rb, .less s, p),
    (.lessu rd ra rb, .lessu s, p), (.prod rd ra rb, .prod s, p), (.prodhs rd ra rb, .prodhs s, p), (.prodhu rd ra rb, .prodhu s,
    p), (.sumk rd ra k, .sumk s, p), (.conjk rd ra k, .conjk s, p), (.disjk rd ra k, .disjk s, p), (.exclk rd ra k, .exclk s, p),
    (.lessk rd ra k, .lessk s, p), (.topk rd k, .topk s, p)] ++ [(.ifeq ra rb k, .ifeq s, if a = b then x.pc + sext 16 (4 * k) else
    p), (.ifne ra rb k, .ifne s, if a = b then p else x.pc + sext 16 (4 * k)), (.iflt ra rb k, .iflt s, if a.toInt < b.toInt then
    x.pc + sext 16 (4 * k) else p), (.ifge ra rb k, .ifge s, if a.toInt < b.toInt then p else x.pc + sext 16 (4 * k)), (.iflo ra rb
    k, .iflo s, if a.toNat < b.toNat then x.pc + sext 16 (4 * k) else p), (.ifhs ra rb k, .ifhs s, if a.toNat < b.toNat then p else
    x.pc + sext 16 (4 * k)), (.leap rd k, .leap s, x.pc + sext 24 (4 * k)), (.via rd ra k, .via s, (a + sext 17 k) &&& ~~~3#64)] ++
    [(.ext rd sat wd acc shift, .ext s, p), (.clra acc, .clra s, p), (.mva rd acc, .mva s, p), (.mvta acc ra, .mvta s, p), (.ldo acc
    ra, .ldo s, p), (.rdcw rd 8, .rdcw s, p), (.wrcw ra 9, .wrcw s, p), (.iinv ra rb, .iinv s, p)]) ∧ (st.dev.on = true) ∧
    (st.dev.hasWord s w) ∧ (x = st.dev.sh s) ∧ (a = x.reg ra) ∧ (b = x.reg rb) ∧ (p = x.pc + 4) ∧ (shDecode w = some c.1)) ∧
    (∃ (st : State), ∃ (s : Nat), ∃ (w : Word), ∃ (x : Shuttle), ∃ (rd : Nat), ∃ (cw : Nat), (st.dev.on = true) ∧ (st.dev.hasWord s w) ∧
    (x = st.dev.sh s) ∧ (cw < 12) ∧ (shDecode w = some (.rdcw rd cw))) ∧
    (∃ (st : State), ∃ (s : Nat), ∃ (w : Word), ∃ (x : Shuttle), ∃ (ra : Nat), ∃ (cw : Nat), (st.dev.on = true) ∧ (st.dev.hasWord s w) ∧
    (x = st.dev.sh s) ∧ (cw < 12) ∧ (x.priv = true) ∧ (shDecode w = some (.wrcw ra cw))) ∧
    (∃ (st : State), ∃ (s : Nat), ∃ (w : Word), ∃ (x : Shuttle), ∃ (rt : Nat), ∃ (ra : Nat), ∃ (sz : Nat), ∃ (disp : Nat), ∃ (a : Nat),
    (st.dev.on = true) ∧ (st.dev.hasWord s w) ∧ (x = st.dev.sh s) ∧ (st.dev.chk = []) ∧ (st.dev.bad = []) ∧ (x.wbuf = []) ∧ (a =
    (x.reg ra + sext 14 disp).toNat) ∧ (a % szBytes sz = 0) ∧ (regionOf a = .tablet) ∧ (buffered s a = false) ∧ (st.dev.shBlocked s
    a = false) ∧ (st.dev.passes s gkREAD a) ∧ (shDecode w = some (.get rt ra sz disp))) ∧
    (∃ (st : State), ∃ (s : Nat), ∃ (w : Word), ∃ (x : Shuttle), ∃ (rt : Nat), ∃ (ra : Nat), ∃ (sz : Nat), ∃ (disp : Nat), ∃ (a : Nat),
    (st.dev.on = true) ∧ (st.dev.hasWord s w) ∧ (x = st.dev.sh s) ∧ (st.dev.chk = []) ∧ (st.dev.bad = []) ∧ (x.wbuf = []) ∧ (a =
    (x.reg ra + sext 14 disp).toNat) ∧ (a % szBytes sz = 0) ∧ (regionOf a = .tablet) ∧ (buffered s a = false) ∧ (st.dev.shBlocked s
    a = false) ∧ (st.dev.passes s gkWRITE a) ∧ (shDecode w = some (.sto rt ra sz disp))) ∧
    (∃ (st : State), ∃ (s : Nat), ∃ (w : Word), ∃ (x : Shuttle), ∃ (sat : Bool), ∃ (acc : Nat), ∃ (xo : Nat), ∃ (yo : Nat), ∃ (xp :
    Nat), ∃ (yp : Nat), ∃ c, (c ∈ [(ShOp.macd sat acc xo yo xp yp, Instr.macd s), (.macp sat acc xo yo xp yp, .macp s)]) ∧
    (st.dev.on = true) ∧ (st.dev.hasWord s w) ∧ (x = st.dev.sh s) ∧ (st.dev.chk = []) ∧ (st.dev.bad = []) ∧ (x.wbuf = []) ∧ ((x.reg
    xp).toNat % 4 = 0) ∧ ((x.reg yp).toNat % 4 = 0) ∧ (shDecode w = some c.1)) := by
  refine ⟨⟨wSh (shw 1 31 1 2 0) id, 0, shw 1 31 1 2 0, (wSh (shw 1 31 1 2 0) id).dev.sh 0, 31, 1, 2, 0, 0, 0, 0, false, ((wSh (shw 1 31 1 2 0)
    id).dev.sh 0).reg 1, ((wSh (shw 1 31 1 2 0) id).dev.sh 0).reg 2, ((wSh (shw 1 31 1 2 0) id).dev.sh 0).pc + 4, (ShOp.sum (31) (1)
    (2), Instr.sum (0), (((wSh (shw 1 31 1 2 0) id).dev.sh 0).pc + 4)),
      by repeat' first | decide +kernel | (refine @of_decide_eq_true _ (decExc _ _) ?_; decide +kernel) | refine pairFst ?_ | refine Prod.ext (Eq.refl _) ?_ | exact rfl | refine And.intro ?_ ?_⟩,
    ⟨wSh (shw 31 31 0 0 0) (fun x =>
    { x with epc := 3, cause := 4, tval := 5, cwItem := 6, cwClass := 7, ovf := 9, evt := true, prior := true }), 0, shw 31 31 0 0
    0, (wSh (shw 31 31 0 0 0) (fun x =>
    { x with epc := 3, cause := 4, tval := 5, cwItem := 6, cwClass := 7, ovf := 9, evt := true, prior := true })).dev.sh 0, 31, 0,
      by repeat' first | decide +kernel | (refine @of_decide_eq_true _ (decExc _ _) ?_; decide +kernel) | refine pairFst ?_ | refine Prod.ext (Eq.refl _) ?_ | exact rfl | refine And.intro ?_ ?_⟩,
    ⟨wSh (shw 31 0 2 0 1) id, 0, shw 31 0 2 0 1, (wSh (shw 31 0 2 0 1) id).dev.sh 0, 2, 0,
      by repeat' first | decide +kernel | (refine @of_decide_eq_true _ (decExc _ _) ?_; decide +kernel) | refine pairFst ?_ | refine Prod.ext (Eq.refl _) ?_ | exact rfl | refine And.intro ?_ ?_⟩,
    ⟨wSh (BitVec.ofNat 32 (8 * 2 ^ 27 + 1 * 2 ^ 22 + 3 * 2 ^ 17 + 3 * 2 ^ 14 + 0x3FF8)) (fun x =>
    { x with g := [(1, BitVec.ofNat 64 (2 ^ 63 + 5)), (3, BitVec.ofNat 64 (tabletBase + 8))] }), 0, BitVec.ofNat 32 (8 * 2 ^ 27 + 1
    * 2 ^ 22 + 3 * 2 ^ 17 + 3 * 2 ^ 14 + 0x3FF8), (wSh (BitVec.ofNat 32 (8 * 2 ^ 27 + 1 * 2 ^ 22 + 3 * 2 ^ 17 + 3 * 2 ^ 14 +
    0x3FF8)) (fun x => { x with g := [(1, BitVec.ofNat 64 (2 ^ 63 + 5)), (3, BitVec.ofNat 64 (tabletBase + 8))] })).dev.sh 0, 1, 3,
    3, 0x3FF8, tabletBase,
      by repeat' first | decide +kernel | (refine @of_decide_eq_true _ (decExc _ _) ?_; decide +kernel) | refine pairFst ?_ | refine Prod.ext (Eq.refl _) ?_ | exact rfl | refine And.intro ?_ ?_⟩,
    ⟨wSh (BitVec.ofNat 32 (9 * 2 ^ 27 + 1 * 2 ^ 22 + 3 * 2 ^ 17 + 3 * 2 ^ 14 + 0x3FF8)) (fun x =>
    { x with g := [(1, BitVec.ofNat 64 (2 ^ 63 + 5)), (3, BitVec.ofNat 64 (tabletBase + 8))] }), 0, BitVec.ofNat 32 (9 * 2 ^ 27 + 1
    * 2 ^ 22 + 3 * 2 ^ 17 + 3 * 2 ^ 14 + 0x3FF8), (wSh (BitVec.ofNat 32 (9 * 2 ^ 27 + 1 * 2 ^ 22 + 3 * 2 ^ 17 + 3 * 2 ^ 14 +
    0x3FF8)) (fun x => { x with g := [(1, BitVec.ofNat 64 (2 ^ 63 + 5)), (3, BitVec.ofNat 64 (tabletBase + 8))] })).dev.sh 0, 1, 3,
    3, 0x3FF8, tabletBase,
      by repeat' first | decide +kernel | (refine @of_decide_eq_true _ (decExc _ _) ?_; decide +kernel) | refine pairFst ?_ | refine Prod.ext (Eq.refl _) ?_ | exact rfl | refine And.intro ?_ ?_⟩,
    ⟨wSh (BitVec.ofNat 32 (16 * 2 ^ 27 + 0 * 2 ^ 26 + 3 * 2 ^ 24 + 7 * 2 ^ 21 + 6 * 2 ^ 18 + 3 * 2 ^ 13 + 4 * 2 ^ 8)) (fun x =>
    { x with g := [(3, 0x3FFFC)], ofs := [(6, 4), (7, -4)], acc := [(2, 5), (3, BitVec.ofNat 40 (2 ^ 39 - 1))] }), 0, BitVec.ofNat
    32 (16 * 2 ^ 27 + 0 * 2 ^ 26 + 3 * 2 ^ 24 + 7 * 2 ^ 21 + 6 * 2 ^ 18 + 3 * 2 ^ 13 + 4 * 2 ^ 8), (wSh (BitVec.ofNat 32 (16 * 2 ^
    27 + 0 * 2 ^ 26 + 3 * 2 ^ 24 + 7 * 2 ^ 21 + 6 * 2 ^ 18 + 3 * 2 ^ 13 + 4 * 2 ^ 8)) (fun x =>
    { x with g := [(3, 0x3FFFC)], ofs := [(6, 4), (7, -4)], acc := [(2, 5), (3, BitVec.ofNat 40 (2 ^ 39 - 1))] })).dev.sh 0, false,
    3, 7, 6, 3, 4, (ShOp.macd (false) (3) (7) (6) (3) (4), Instr.macd (0)),
      by repeat' first | decide +kernel | (refine @of_decide_eq_true _ (decExc _ _) ?_; decide +kernel) | refine pairFst ?_ | refine Prod.ext (Eq.refl _) ?_ | exact rfl | refine And.intro ?_ ?_⟩⟩

theorem witness_CachedInstructionsComplete_2 :
    (∃ (st : State), ∃ (s : Nat), ∃ (w : Word), ∃ (x : Shuttle), ∃ (ra : Nat), ∃ (rb : Nat), ∃ c, (c ∈ [(ShOp.fence, Instr.fence s),
    (.clean ra rb, .clean s), (.inval ra rb, .inval s)]) ∧ (st.dev.on = true) ∧ (st.dev.hasWord s w) ∧ (x = st.dev.sh s) ∧
    (st.dev.chk = []) ∧ (st.dev.bad = []) ∧ (x.wbuf = []) ∧ (x.dcache = []) ∧ (shDecode w = some c.1)) ∧
    (∃ (st : State), ∃ (s : Nat), ∃ (w : Word), ∃ (x : Shuttle), ∃ (i : Item), (st.dev.on = true) ∧ (st.dev.hasWord s w) ∧ (x =
    st.dev.sh s) ∧ (st.dev.chk = []) ∧ (st.dev.bad = []) ∧ (x.wbuf = []) ∧ (x.dcache = []) ∧ (x.item = some i) ∧ (Desc.chain i.desc
    = 0xFFFF) ∧ (st.dev.shStalled s = false) ∧ (shDecode w = some .done)) ∧
    (∃ (st : State), ∃ (s : Nat), ∃ (w : Word), ∃ (x : Shuttle), ∃ (rd : Nat), ∃ (ra : Nat), ∃ (bs : List Byte), (st.dev.on = true) ∧
    (st.dev.hasWord s w) ∧ (x = st.dev.sh s) ∧ ((st.dev.shLoad32 s (x.reg ra)).2 = .ok bs) ∧ ((Desc.priv (BitVec.ofNat 256 (leNat
    bs)) = false ∨ x.priv = true)) ∧ (shDecode w = some (.post rd ra))) ∧
    (∃ (st : State), ∃ (s : Nat), ∃ (w : Word), ∃ (x : Shuttle), ∃ (ra : Nat), (st.dev.on = true) ∧ (st.dev.hasWord s w) ∧ (x =
    st.dev.sh s) ∧ (x.evt = true) ∧ (shDecode w = some (.wait ra))) ∧
    (∃ (st : State), ∃ (s : Nat), ∃ (w : Word), ∃ (x : Shuttle), (st.dev.on = true) ∧ (st.dev.hasWord s w) ∧ (x = st.dev.sh s) ∧
    (st.dev.shStalled s = false) ∧ (shDecode w = some .untrap) ∧ (x.priv = true)) ∧
    (∃ (st : State), ∃ (s : Nat), ∃ (w : Word), ∃ (x : Shuttle), ∃ (rb : Nat), (st.dev.on = true) ∧ (st.dev.hasWord s w) ∧ (x =
    st.dev.sh s) ∧ (st.dev.shStalled s = false) ∧ (x.tvec ≠ 0) ∧ (x.fresh = false) ∧ (shDecode w = some (.trap rb))) := by
  refine ⟨⟨wSh (shw 31 0 0 0 2) (fun x => { x with g := [(1, 64), (2, 64)] }), 0, shw 31 0 0 0 2, (wSh (shw 31 0 0 0 2) (fun x =>
    { x with g := [(1, 64), (2, 64)] })).dev.sh 0, 1, 2, (ShOp.fence, Instr.fence (0)),
      by repeat' first | decide +kernel | (refine @of_decide_eq_true _ (decExc _ _) ?_; decide +kernel) | refine pairFst ?_ | refine Prod.ext (Eq.refl _) ?_ | exact rfl | refine And.intro ?_ ?_⟩,
    ⟨wSh (shw 31 0 0 0 7) (fun x => { x with item := some ⟨0, descOf 0, 0, none, false⟩ }), 0, shw 31 0 0 0 7, (wSh (shw 31 0 0 0 7)
    (fun x => { x with item := some ⟨0, descOf 0, 0, none, false⟩ })).dev.sh 0, ⟨0, descOf 0, 0, none, false⟩,
      by repeat' first | decide +kernel | (refine @of_decide_eq_true _ (decExc _ _) ?_; decide +kernel) | refine pairFst ?_ | refine Prod.ext (Eq.refl _) ?_ | exact rfl | refine And.intro ?_ ?_⟩,
    ⟨wShD (shw 31 31 2 0 6) (fun x => { x with g := [(2, 64)] }) (fun d => d.setBytes 64 (leBytes 32 (descOf 0).toNat)) [], 0, shw 31 31
    2 0 6, (wShD (shw 31 31 2 0 6) (fun x => { x with g := [(2, 64)] }) (fun d => d.setBytes 64 (leBytes 32 (descOf 0).toNat))
    []).dev.sh 0, 31, 2, okOf ((wShD (shw 31 31 2 0 6) (fun x => { x with g := [(2, 64)] }) (fun d => d.setBytes 64 (leBytes 32
    (descOf 0).toNat)) []).dev.shLoad32 0 64),
      by repeat' first | decide +kernel | (refine @of_decide_eq_true _ (decExc _ _) ?_; decide +kernel) | refine pairFst ?_ | refine Prod.ext (Eq.refl _) ?_ | exact rfl | refine And.intro ?_ ?_⟩,
    ⟨wSh (shw 31 0 2 0 8) (fun x => { x with evt := true }), 0, shw 31 0 2 0 8, (wSh (shw 31 0 2 0 8) (fun x =>
    { x with evt := true })).dev.sh 0, 2,
      by repeat' first | decide +kernel | (refine @of_decide_eq_true _ (decExc _ _) ?_; decide +kernel) | refine pairFst ?_ | refine Prod.ext (Eq.refl _) ?_ | exact rfl | refine And.intro ?_ ?_⟩,
    ⟨wSh (shw 31 0 0 0 10) (fun x => { x with epc := 0x40, inTrap := true }), 0, shw 31 0 0 0 10, (wSh (shw 31 0 0 0 10) (fun x =>
    { x with epc := 0x40, inTrap := true })).dev.sh 0,
      by repeat' first | decide +kernel | (refine @of_decide_eq_true _ (decExc _ _) ?_; decide +kernel) | refine pairFst ?_ | refine Prod.ext (Eq.refl _) ?_ | exact rfl | refine And.intro ?_ ?_⟩,
    ⟨wSh (shw 31 0 0 31 9) (fun x => { x with tvec := 0x80 }), 0, shw 31 0 0 31 9, (wSh (shw 31 0 0 31 9) (fun x =>
    { x with tvec := 0x80 })).dev.sh 0, 31,
      by repeat' first | decide +kernel | (refine @of_decide_eq_true _ (decExc _ _) ?_; decide +kernel) | refine pairFst ?_ | refine Prod.ext (Eq.refl _) ?_ | exact rfl | refine And.intro ?_ ?_⟩⟩

theorem witness_CachedInstructionsComplete_3 :
    (∃ (st : State), ∃ (s : Nat), ∃ (w : Word), ∃ (x : Shuttle), (st.dev.on = true) ∧ (st.dev.hasWord s w) ∧ (x = st.dev.sh s) ∧
    (st.dev.shStalled s = false) ∧ (x.tvec ≠ 0) ∧ (x.fresh = false) ∧ (shDecode w = none)) :=
  ⟨wSh 0xFFFFFFFF (fun x => { x with tvec := 0x80 }), 0, 0xFFFFFFFF, (wSh 0xFFFFFFFF (fun x => { x with tvec := 0x80 })).dev.sh 0,
      by repeat' first | decide +kernel | (refine @of_decide_eq_true _ (decExc _ _) ?_; decide +kernel) | refine pairFst ?_ | refine Prod.ext (Eq.refl _) ?_ | exact rfl | refine And.intro ?_ ?_⟩

end Sys2Proof.Tests
end

section
/-!
PROOF. The shed rule's obligation (02 R30) asks that every plain pick which is ready delivers its result. A ready pick may still read
a shed group whose parity is wrong; 02 R38 then flags a shed error and the pick delivers nothing. The obligation does not exclude it.
-/

namespace Sys2Proof.Machine

/-- What a command of the powered device answers holds of the device that it leaves: the converse of `answers_act`. -/
theorem Answers.of_act {c : Instr} {s : State} {f : Dev → Dev} {P : Dev → Prop} (ha : Answers c s P) (e : exec c s = s.act f)
    (h : s.dev.on = true) : P (f s.dev) := by
  obtain ⟨t, ht, -, hp⟩ := ha
  rw [e, State.act_on s f h] at ht
  cases ht
  exact hp

/-- Flagging a fault writes no shed entry (02 R38). -/
@[simp] theorem Dev.flagFault_shed (d : Dev) (f : FaultRec) : (d.flagFault f).loom.shed = d.loom.shed := by
  unfold Dev.flagFault
  split
  · simp
  · rfl

/-- A word that is stored right is fetched, and nothing is counted. -/
theorem Dev.fetchWord_of_clean {d : Dev} {hn stream p x : Nat} (h : d.loom.jacRead (jacKey hn stream p) = .clean x) :
    d.fetchWord hn stream p = (d, true) := by
  simp [Dev.fetchWord, h]

/-- A pick that is ready and reads a shed group whose parity is wrong flags that fault and does nothing else (02 R38). -/
theorem Dev.singlePick_of_shedFault {d : Dev} {want : PickKind → Bool} {gb h k p idx : Nat} {f : FaultRec}
    (hr : d.readyAt gb h k p idx) (hw : want (d.kindAt (hnOf gb h) k p) = true)
    (hf : d.shedFault (hnOf gb h) k p (d.loom.pick (hnOf gb h) k p) (d.fieldsOf (hnOf gb h) k p) = some f) :
    d.singlePick want gb h k = d.flagFault f := by
  obtain ⟨hcan, rfl, hheld, hword, hreads, -⟩ := hr
  rw [Dev.kindAt] at hw
  rw [Dev.fieldsOf] at hreads hf
  simp [Dev.singlePick, hcan, hw, hheld, hreads, Dev.fetchWord_of_clean hword, hf]

/-! ### The counterexample -/

/-- A pick word that copies operand A, with A naming entry 0: at pick 0, the heddle's own entry (02 R30). -/
def holdEntry0 : PickWord := BitVec.ofNat 72 (0xAAAA * 2 ^ 56)

/-- Heddle 0 of harness 0 stands at pick 0, which holds entry 0; the previous beat left entry 0 at 1 in OTHER, bank 1. A particle has
then flipped entry 5 of that bank, so that the parity of group 0 is wrong (02 R38). -/
def upsetInOther : State :=
  State.reset.withDev ((Dev.reset.setFld F.LOM_DEPTH_D 64).onLoom (fun l => Loom.hit { l with
    phase := .running, need := [(0, 1)], jac := [(jacKey 0 0 0, holdEntry0)],
    shed := [(shedKey (hkOf 0 0) 1 0, true)] } (.shed 0 0 1 5)))

/-- The held pick is ready: its four reads of entry 0 return 1. -/
theorem upsetInOther_readyAt : upsetInOther.dev.readyAt 0 0 0 0 15 := by
  refine ⟨?_, ?_, ?_, ?_, ?_, ?_⟩ <;> decide +kernel

/-- The held pick meets a shed error in group 0 of OTHER. -/
theorem upsetInOther_shedFault : upsetInOther.dev.shedFault (hnOf 0 0) 0 0 (upsetInOther.dev.loom.pick (hnOf 0 0) 0 0)
    (upsetInOther.dev.fieldsOf (hnOf 0 0) 0 0) = some ⟨3, 0, 0, 0, 0, 0⟩ := by
  decide +kernel

/-- Refutes O55: a plain pick that is ready delivers nothing when a shed group that it reads has wrong parity (02 R38). In
`upsetInOther` the pick's result is 1, and its entry of CUR stays 0. -/
theorem not_shedRule : ¬ Obligations.ShedRule := by
  unfold Obligations.ShedRule
  rintro ⟨-, -, hpick⟩
  have hon : upsetInOther.dev.on = true := by decide +kernel
  have hkind : upsetInOther.dev.kindAt (hnOf 0 0) 0 0 = .plain := by decide +kernel
  obtain ⟨hentry, -⟩ := (hpick upsetInOther 0 0 0 0 15 hon (by decide +kernel) upsetInOther_readyAt hkind).of_act
    (exec_plainPick 0 0 0 upsetInOther) hon
  rw [Dev.singlePick_of_shedFault upsetInOther_readyAt (by rw [hkind]; rfl) upsetInOther_shedFault, Dev.flagFault_shed] at hentry
  exact absurd hentry (by decide +kernel)

end Sys2Proof.Machine
end

section
/-!
PROOF. The harness window's obligation (04 R98). Every release passes through `Loom.fresh`, which empties the window. What the release
does after it to the loom reaches only the received lanes (04 R115) and the bundles on the rings (04 R117).
-/

namespace Sys2Proof.Machine

variable (d : Dev)

/-- What every step of a fold over devices keeps, the fold keeps. -/
theorem Dev.foldl_keeps {α β : Type} (g : Dev → β) {f : Dev → α → Dev} (h : ∀ e x, g (f e x) = g e) (xs : List α) :
    g (xs.foldl f d) = g d :=
  List.foldlRecOn xs f (motive := fun e => g e = g d) rfl fun e he x _ => (h e x).trans he

/-! ### After `Loom.fresh`: steps of a release that leave the loom -/

@[simp] theorem Dev.panelsFollow_loom (running : Bool) : (d.panelsFollow running).loom = d.loom :=
  d.foldl_keeps Dev.loom (fun e p => by
    split
    · rfl
    · simp [Dev.setPanel]) _

@[simp] theorem Dev.sendAll_loom (skip : Option Nat) (typ head body len : Nat) :
    (d.sendAll skip typ head body len).loom = d.loom :=
  d.foldl_keeps Dev.loom (fun e p => by
    split
    · simp [Dev.linkSend]
    · rfl) _

@[simp] theorem Dev.weftToken_loom (n : Nat) : (d.weftToken n).loom = d.loom := by
  unfold Dev.weftToken
  split
  · simp
  · rfl

@[simp] theorem Dev.tokenSkew_loom (tb : Word) : (d.tokenSkew tb).loom = d.loom := by
  simp only [Dev.tokenSkew]
  split <;> simp

@[simp] theorem Dev.checkToken_loom : d.checkToken.loom = d.loom := by
  unfold Dev.checkToken
  split
  · split
    · simp
    · rfl
  · rfl

/-! ### After `Loom.fresh`: the received lanes and the bundles -/

/-- The bundles of bays that are out write received lanes only (04 R115). -/
theorem Dev.fillOut_keeps {β : Type} {g : Loom → β} (hg : ∀ l m, g { l with lrx := m } = g l) :
    g d.fillOut.loom = g d.loom := by
  simp only [Dev.fillOut, Dev.onLoom_self, hg]

/-- A bundle that enters at the gateway changes the bundles only (04 R117). -/
theorem Dev.gatewayPut_keeps {β : Type} {g : Loom → β} (hg : ∀ l bs, g { l with bundles := bs } = g l)
    (link flow val : Nat) : g (d.gatewayPut link flow val).loom = g d.loom :=
  d.foldl_keeps (fun e => g e.loom) (fun _ _ => by simp only [Dev.onLoom_self, hg]) _

/-- The bundles that arrived early change the bundles only (04 R117). -/
theorem Dev.earlyIn_keeps {β : Type} {g : Loom → β} (hg : ∀ l bs, g { l with bundles := bs } = g l) :
    g d.earlyIn.loom = g d.loom := by
  refine d.foldl_keeps (fun e => g e.loom) (fun e p => ?_) _
  dsimp only
  rw [Dev.foldl_keeps _ (fun e => g e.loom) fun e (x : Nat × Nat × Nat) => e.gatewayPut_keeps hg p x.2.1 x.2.2,
    Dev.onLink_loom]

@[simp] theorem Dev.fillOut_win : d.fillOut.loom.win = d.loom.win := d.fillOut_keeps fun _ _ => rfl
@[simp] theorem Dev.fillOut_phase : d.fillOut.loom.phase = d.loom.phase := d.fillOut_keeps fun _ _ => rfl
@[simp] theorem Dev.earlyIn_win : d.earlyIn.loom.win = d.loom.win := d.earlyIn_keeps fun _ _ => rfl
@[simp] theorem Dev.earlyIn_phase : d.earlyIn.loom.phase = d.loom.phase := d.earlyIn_keeps fun _ _ => rfl

/-! ### The loom as a release leaves it -/

/-- An attempt that starts afresh has empty harness windows (04 R98). -/
@[simp] theorem Loom.fresh_win (l : Loom) : l.fresh.win = [] := rfl

/-- An attempt that starts afresh is released (02 R33). -/
@[simp] theorem Loom.fresh_phase (l : Loom) : l.fresh.phase = .released := rfl

/-- The release of a beat or of a SOLO beat empties the harness windows (04 R98). -/
@[simp] theorem Dev.releaseBeat_win (ts : Nat) : (d.releaseBeat ts).loom.win = [] := by
  unfold Dev.releaseBeat
  by_cases h : ts = tsBeat <;> simp [h]

/-- The release of a beat or of a SOLO beat begins its attempt (02 R33). -/
@[simp] theorem Dev.releaseBeat_phase (ts : Nat) : (d.releaseBeat ts).loom.phase = .released := by
  unfold Dev.releaseBeat
  by_cases h : ts = tsBeat <;> simp [h]

/-! ### What BEAT_RELEASE does -/

variable {d}

/-- In a beat that reruns, BEAT_RELEASE starts the attempt afresh (02 R41). -/
theorem Dev.beatRelease_of_rerun (hb : d.inBeat = true) (hp : d.loom.phase = .rerun) :
    d.beatRelease = (d.onLoom Loom.fresh).fillOut := by
  simp [Dev.beatRelease, hb, hp]

/-- In WAITING or STARTING with every release condition met, BEAT_RELEASE releases the beat (06 R159). -/
theorem Dev.beatRelease_of_ready (ht : d.ts = tsWaiting ∨ d.ts = tsStarting) (hu : d.unmet = 0) :
    d.beatRelease = d.releaseBeat tsBeat := by
  have hbeat : d.inBeat = false := by rcases ht with h | h <;> simp [Dev.inBeat, h] <;> decide
  have hhalt : d.ts ≠ tsHalted := by rcases ht with h | h <;> simp [h] <;> decide
  simp [Dev.beatRelease, hbeat, hhalt, ht, hu]

/-- Settles O56: every release passes through `Loom.fresh`, and nothing after it writes a harness window (04 R98). -/
theorem harnessWindowStartsAtZero : Obligations.HarnessWindowStartsAtZero := by
  unfold Obligations.HarnessWindowStartsAtZero
  refine ⟨fun d ts x => ?beat, fun s hon hb hp => answers_act (exec_beatRelease s) hon ?rerun,
    fun s hon ht hu => answers_act (exec_beatRelease s) hon ?ready⟩
  case beat => simp
  case rerun =>
    rw [Dev.beatRelease_of_rerun hb hp]
    simp
  case ready =>
    rw [Dev.beatRelease_of_ready ht hu]
    simp

end Sys2Proof.Machine
end

section
/-!
PROOF. The obligation of STATUS of the management port (10 R318). A response changes only what leaves the device; the MGT_STATUS that it
carries is computed from the error log's write index and from the causes that hold ALERT_N low.
-/

namespace Sys2Proof.Machine

variable (d : Dev)

/-! ### A response of the management port changes eth only -/

@[simp] theorem Dev.mgReply_mem (via stat : Nat) (bs : List Byte) : (d.mgReply via stat bs).mem = d.mem := rfl
@[simp] theorem Dev.mgReply_regs (via stat : Nat) (bs : List Byte) : (d.mgReply via stat bs).regs = d.regs := rfl
@[simp] theorem Dev.mgReply_loom (via stat : Nat) (bs : List Byte) : (d.mgReply via stat bs).loom = d.loom := rfl
@[simp] theorem Dev.mgReply_trd (via stat : Nat) (bs : List Byte) : (d.mgReply via stat bs).trd = d.trd := rfl

/-- A response leaves every byte of memory. -/
theorem Dev.mgReply_sameBytes (via stat : Nat) (bs : List Byte) : d.sameBytes (d.mgReply via stat bs) :=
  fun a => by simp only [Dev.byte, Dev.mgReply_mem]

/-- A response leaves every register. -/
theorem Dev.mgReply_sameRegs (via stat : Nat) (bs : List Byte) : d.sameRegs (d.mgReply via stat bs) [] :=
  fun k _ => by simp only [Dev.reg, Dev.mgReply_regs]

/-! ### The word MGT_STATUS -/

/-- A field reads less than 2 to the power of its width. -/
theorem Dev.fld_lt (f : Fld) : d.fld f < 2 ^ (f.hi - f.lo + 1) :=
  Nat.mod_lt _ (Nat.two_pow_pos _)

/-- MGT_STATUS is one of the computed words: the log's write index above the level of ALERT_N (10 R318). -/
theorem Dev.view_mgtStatus :
    d.view R.MGT_STATUS = w32 (d.fld F.LOG_STATUS_IDX * 2 ^ 16 + b2n (d.alerts != 0)) := by
  have hloom : d.viewLoom R.MGT_STATUS = none := rfl
  have htime : d.viewTime R.MGT_STATUS = none := rfl
  have hlinks : d.viewLinks R.MGT_STATUS = some (w32 (d.fld F.LOG_STATUS_IDX * 2 ^ 16 + b2n (d.alerts != 0))) := rfl
  simp only [Dev.view, hloom, htime, hlinks, Option.none_or, Option.some_or, Option.getD_some]

/-- The 12 bits of the write index and the bit of ALERT_N fit the word, so nothing of them is cut off. -/
theorem Dev.view_mgtStatus_toNat : (d.view R.MGT_STATUS).toNat =
    d.fld F.LOG_STATUS_IDX * 2 ^ 16 + (if d.alerts = 0 then 0 else 1) := by
  have hidx : d.fld F.LOG_STATUS_IDX < 2 ^ 12 := d.fld_lt F.LOG_STATUS_IDX
  have hbit : b2n (d.alerts != 0) = if d.alerts = 0 then 0 else 1 := by
    by_cases h : d.alerts = 0 <;> simp [b2n, h]
  rw [d.view_mgtStatus, hbit, w32, BitVec.toNat_ofNat, Nat.mod_eq_of_lt]
  split <;> omega

/-! ### What MGT_STATUS does -/

variable {d}

/-- A request that is for this device, intact and alone runs (10 R317). -/
theorem Dev.mgRequest_of_accepted {f : MgtFrame} (hs : d.mgtServes = true) (hm : d.mgtMine f = true)
    (hi : f.intact = true) (hr : f.running = false) (g : Dev → Nat → Dev) : d.mgRequest f g = g d f.via := by
  simp [Dev.mgRequest, hs, hm, hi, hr]

/-- A STATUS whose N and ADDR are 0 answers the four status words (10 R317, R318). -/
theorem Dev.mgStatus_zero (via : Nat) : d.mgStatus via 0 0 =
    d.mgReply via mgOK (d.reg4 R.LDR_STATUS ++ d.reg4 R.TRD_STATUS ++ d.reg4 R.LOM_STATUS ++
      leBytes 4 (d.fld F.LOG_STATUS_IDX * 2 ^ 16 + (if d.alerts = 0 then 0 else 1))) := by
  rw [← d.view_mgtStatus_toNat]
  rfl

/-- Settles O57: an accepted STATUS only sends a response (10 R318), and neither its guard nor its words ask for the hub. -/
theorem statusNeedsNoHub : Obligations.StatusNeedsNoHub := by
  unfold Obligations.StatusNeedsNoHub
  intro s f hs hm hi hr
  refine answers_actPin (exec_mgtStatus ⟨f, 0, 0⟩ s) ?_
  rw [Dev.mgRequest_of_accepted hs hm hi hr, Dev.mgStatus_zero]
  exact ⟨rfl, s.dev.mgReply_sameBytes _ _ _, s.dev.mgReply_sameRegs _ _ _, s.dev.mgReply_loom _ _ _, s.dev.mgReply_trd _ _ _⟩

end Sys2Proof.Machine
end

section
/-!
PROOF. The obligation of the watch unit's filters (15 R460). A filter that is off is put to rest by the same two writes, whether a
sample or a write of WCH_FILT finds it off; each lemma on a filter's step says what one case of the rule does.
-/

namespace Sys2Proof.Machine

/-! ### The mark of a filter's first sample -/

/-- A bit switched on reads 1. -/
@[simp] theorem testBit_orBit_same (m i : Nat) : (orBit m i).testBit i = true := by
  unfold orBit
  split
  case isTrue h => exact h
  case isFalse h => rw [Nat.add_comm, Nat.testBit_two_pow_add_eq, Bool.eq_false_iff.mpr h, Bool.not_false]

/-- A bit switched off reads 0. -/
@[simp] theorem testBit_offBit_same (m i : Nat) : (offBit m i).testBit i = false := by
  unfold offBit
  split
  case isTrue h =>
    have hback : 2 ^ i + (m - 2 ^ i) = m := Nat.add_sub_cancel' (Nat.ge_two_pow_of_testBit h)
    rwa [← hback, Nat.testBit_two_pow_add_eq, Bool.not_eq_true'] at h
  case isFalse h => exact Bool.eq_false_iff.mpr h

/-! ### A filter's value -/

/-- A number as w bits is below 2 to the power of w. -/
theorem unsgn_lt (w : Nat) (x : Int) : unsgn w x < 2 ^ w := by
  have hpos : (0 : Int) < Int.ofNat (2 ^ w) := Int.natCast_pos.mpr (Nat.two_pow_pos w)
  have hnonneg : 0 ≤ x % Int.ofNat (2 ^ w) := Int.emod_nonneg x hpos.ne'
  exact (Int.toNat_lt hnonneg).mpr (Int.emod_lt_of_pos x hpos)

variable (d : Dev) (f : Nat)

/-- A filter's value keeps a signed number of 16 bits whole (15 R460). -/
@[simp] theorem Dev.filterValue_setFld_unsgn (x : Int) :
    (d.setFld (F.WCH_VALUE_Y.at f) (unsgn 16 x)).fld (F.WCH_VALUE_Y.at f) = unsgn 16 x := by
  rw [d.fld_setFld_same (F.WCH_VALUE_Y.at f) _ (by decide : F.WCH_VALUE_Y.ok)]
  exact Nat.mod_eq_of_lt (unsgn_lt 16 x)

/-- Setting a filter's value leaves every register but that value's, whatever becomes of the marks. -/
theorem Dev.sameRegs_setFilterValue (v : Nat) (g : Watch → Watch) :
    d.sameRegs ((d.setFld (F.WCH_VALUE_Y.at f) v).onWatch g) [instKey R.WCH_VALUE f] := by
  intro k hk
  rw [Dev.onWatch_reg, d.reg_setFld_other v (List.ne_of_not_mem_cons hk)]

/-- The value of a filter after a sample x that is not its first: y + ((x - y) >> K) on signed values of 17 bits. -/
def Dev.filterNext (x : Int) : Int :=
  let y := sgn 16 (d.fld (F.WCH_VALUE_Y.at f))
  y + sgn 17 (unsgn 17 (x - y)) / 2 ^ d.fld (F.WCH_FILT_K.at f)

/-! ### A filter at rest -/

/-- Filter f at rest: its value 0, its next sample the first (15 R460). -/
def Dev.restFilter : Dev :=
  (d.setFld (F.WCH_VALUE_Y.at f) 0).onWatch (fun w => { w with primed := offBit w.primed f })

@[simp] theorem Dev.restFilter_value : (d.restFilter f).fld (F.WCH_VALUE_Y.at f) = 0 := by
  rw [Dev.restFilter, Dev.onWatch_fld, d.fld_setFld_same (F.WCH_VALUE_Y.at f) 0 (by decide : F.WCH_VALUE_Y.ok), Nat.zero_mod]

@[simp] theorem Dev.restFilter_primed : (d.restFilter f).plat.watch.primed.testBit f = false := by
  simp [Dev.restFilter]

/-! ### What a sample and a write of WCH_FILT do -/

variable {d f}

/-- A filter with EN = 0 is put to rest by a sample. -/
theorem Dev.filterStep_of_off (hen : d.fld (F.WCH_FILT_EN.at f) = 0) : d.filterStep f = d.restFilter f := by
  simp only [Dev.filterStep, hen, if_true, Dev.restFilter]

/-- The first sample of a filter is its value. -/
theorem Dev.filterStep_of_first (hen : d.fld (F.WCH_FILT_EN.at f) ≠ 0) (hp : d.plat.watch.primed.testBit f = false) :
    d.filterStep f = (d.setFld (F.WCH_VALUE_Y.at f) (unsgn 16 (d.srcInt (d.fld (F.WCH_FILT_SRC.at f))))).onWatch
      (fun w => { w with primed := orBit w.primed f }) := by
  simp only [Dev.filterStep, hen, hp, if_false, Bool.false_eq_true]

/-- A later sample of a filter moves its value. -/
theorem Dev.filterStep_of_later (hen : d.fld (F.WCH_FILT_EN.at f) ≠ 0) (hp : d.plat.watch.primed.testBit f = true) :
    d.filterStep f = d.setFld (F.WCH_VALUE_Y.at f) (unsgn 16 (d.filterNext f (d.srcInt (d.fld (F.WCH_FILT_SRC.at f))))) := by
  simp only [Dev.filterStep, hen, hp, if_false, if_true, Dev.filterNext]

/-- A filter's step leaves every register but its value's: each of its three cases only sets that value. -/
theorem Dev.filterStep_sameRegs (d : Dev) (f : Nat) : d.sameRegs (d.filterStep f) [instKey R.WCH_VALUE f] := by
  by_cases hen : d.fld (F.WCH_FILT_EN.at f) = 0
  · rw [Dev.filterStep_of_off hen]
    exact d.sameRegs_setFilterValue f _ _
  · cases hp : d.plat.watch.primed.testBit f with
    | false =>
      rw [Dev.filterStep_of_first hen hp]
      exact d.sameRegs_setFilterValue f _ _
    | true =>
      rw [Dev.filterStep_of_later hen hp]
      exact d.sameRegs_setFilterValue f _ id

/-- A write of WCH_FILT that leaves EN = 0 in the selected filter leaves that filter at rest. -/
theorem Dev.writeFilt_of_off {w : Who} {v : Word}
    (hen : (d.writeFilt w v).fld (F.WCH_FILT_EN.at (d.fld F.WCH_SEL_INDEX)) = 0) :
    d.writeFilt w v = (d.plainWrite w R.WCH_FILT v).restFilter (d.fld F.WCH_SEL_INDEX) := by
  by_cases hoff : (d.plainWrite w R.WCH_FILT v).fld (F.WCH_FILT_EN.at (d.fld F.WCH_SEL_INDEX)) = 0
  · simp only [Dev.writeFilt, hoff, if_true, Dev.restFilter]
  · simp only [Dev.writeFilt, hoff, if_false] at hen

/-- Settles O58, case by case: a filter that is off is put to rest, by a sample and by the write of WCH_FILT that switches it off; a
filter that is on takes its first sample as it is and moves towards each later one. -/
theorem filtersFollowTheirSource : Obligations.FiltersFollowTheirSource := by
  unfold Obligations.FiltersFollowTheirSource
  rintro d f x rfl
  refine ⟨d.filterStep_sameRegs f, fun hen => ?off, fun hen hp => ?first, fun hen hp => ?later, fun w v hf hen => ?write⟩
  case off =>
    rw [Dev.filterStep_of_off hen]
    exact ⟨d.restFilter_value f, d.restFilter_primed f⟩
  case first =>
    rw [Dev.filterStep_of_first (hen.trans_ne Nat.one_ne_zero) hp]
    simp only [Dev.onWatch_fld, Dev.filterValue_setFld_unsgn, Dev.onWatch_self, testBit_orBit_same, and_self]
  case later =>
    rw [Dev.filterStep_of_later (hen.trans_ne Nat.one_ne_zero) hp]
    exact ⟨d.filterValue_setFld_unsgn f _, hp⟩
  case write =>
    subst hf
    rw [Dev.writeFilt_of_off hen]
    exact ⟨Dev.restFilter_value _ _, Dev.restFilter_primed _ _⟩

end Sys2Proof.Machine
end
